-- ==== Sys2Proof/Word.lean ====
section
/-! DEFINITION. The word types of the SC900 and the shape of its sparse stores. Every multi-byte field is
little-endian (R4); the byte-order helpers stand in Sys2Proof/Machine/Bits.lean. -/

namespace Sys2Proof

/-- One byte. -/
abbrev Byte := BitVec 8

/-- A 32-bit register or table word (R409, R418). -/
abbrev Word := BitVec 32

/-- A 64-bit field: an address in the encoding of R52, or an STIME value (R28). -/
abbrev DWord := BitVec 64

/-- A sparse store in one canonical form: keys strictly rising, and no entry equal to what an unlisted key reads as. The
operations on it stand in Sys2Proof/Machine/Store.lean. -/
abbrev Store (α : Type) := List (Nat × α)

end Sys2Proof
end

