-- ==== Sys2Proof/Syntax.lean ====
section
/-! DEFINITION. The commands the SC900 takes: one constructor per row of spec/opcode_table.json, with the operands the
outside supplies. The table gives its rows no bits; the operands are the model's own (DESIGN CHOICE, log entry 2). -/

namespace Sys2Proof

/-- Which submission queue a command is about: an SQ context, the admin SQ of a function, the Slim Host Port's queue. -/
inductive QueueId where
  | sq (n : Nat)
  | admin (fn : Nat)
  | shp
deriving DecidableEq, Repr

/-- What a host read returns: its bytes, a poisoned completion, a completion with UR or CA, or none in time (Table 18.6). -/
inductive HostData where
  | bytes (bs : List Byte)
  | poisoned
  | unsupported
  | aborted
  | timeout
deriving DecidableEq, Repr

/-- A register that a plain register write names: an MSP word address, or a BAR0 offset of a function with the access
size in bytes (R418, R437). -/
inductive RegTarget where
  | msp (addr : Nat)
  | bar0 (fn off size : Nat)
deriving DecidableEq, Repr

/-- The two sides of a node on the ring (R338). -/
inductive Side where
  | east
  | west
deriving DecidableEq, Repr

/-- The two lanes of the ring (R332). -/
inductive Lane where
  | a
  | b
deriving DecidableEq, Repr

/-- How a GPIO edge went (R237). -/
inductive EdgeKind where
  | rising
  | falling
deriving DecidableEq, Repr

/-- A resource that zeroing ends on (Table 7.3). -/
inductive ZeroObj where
  | page (phys : Nat)
  | fifo (port : Nat)
  | prefetch (sq : Nat)
  | bmSet (ch : Nat)
  | ns (nsid : Nat)
deriving DecidableEq, Repr

/-- One cell of the ring (Table 14.4): its header fields and its payload bytes. -/
structure Cell where
  type : Nat
  gcls : Bool := false
  last : Bool := false
  lane : Lane := .a
  src : Nat
  dst : Nat
  tag : Nat := 0
  index : Nat := 0
  payload : List Byte := []
deriving DecidableEq, Repr

/-- What arrives in a ring slot: nothing usable, a cell whose CRC fails, or a cell (R342, R344). -/
inductive SlotIn where
  | empty
  | badCrc
  | cell (c : Cell)
deriving DecidableEq, Repr

/-- The link's own control messages (Table 14.5, R346, R360, R361, R366). -/
inductive MailMsg where
  | join (node blockSize quota hopsA hopsB dlyA dlyB : Nat) (mcap : Bool)
  | blocks (generation : Nat) (sizes : List (Nat × Nat × Nat))
  | query (src saggar sq depth cells : Nat) (ports : List (Nat × Nat))
  | reply (src sq : Nat) (reason : Nat) (sums : List (Nat × Nat × Nat))
  | release (src sq : Nat)
deriving DecidableEq, Repr

/-- The transfer outcome that the port logic reports for a CCW in progress (R58, R86, R221): the bytes it received for
the CCW, and the device-status bits the line raised. -/
structure LineEnd where
  received : List Byte := []
  sent : Nat := 0
  dstat : BitVec 16 := 0
deriving DecidableEq, Repr

/-- How a block mover buffer's end is reported by the endpoints (R191, R193): no more progress than `moved` bytes, with
the reason. -/
inductive BmEnd where
  | full
  | short (moved : Nat)
  | error (moved : Nat)
deriving DecidableEq, Repr

/-- How the self-test of a channel processor ends (Table 15.2; CAUSE 1 and 2 of Table 15.7). -/
inductive UnitTest where
  | passed
  | failedLogic
  | failedMargin
deriving DecidableEq, Repr

/-- The analogue inputs at an instant of conversion: the two input voltages of each channel and the reference, in microvolts
(R277, R278). -/
structure ConverterInputs where
  volts : List (Int × Int)
  vref : Nat
deriving DecidableEq, Repr

/-- An instruction loaded through the TAP, and the boundary cells of the data scan that follows it, if one does (R488). -/
structure JtagLoad where
  ir : BitVec 6
  scan : Option (BitVec 1032) := none
deriving DecidableEq, Repr

/-- What reading a unit of local store finds (R383, R384). -/
inductive EccFound where
  | clean
  | corrected
  /-- a correctable error that appears again on the re-read after write-back -/
  | hard
  | uncorrectable
deriving DecidableEq, Repr

/-- The kinds of TLP that R441 names besides requests and completions that succeed. -/
inductive BadTlp where
  | malformed
  | ecrc
  | unsupported
  | poisonedBar0Write (fn : Nat)
deriving DecidableEq, Repr

/-- A PCI Express configuration request (R431 to R435). -/
inductive CfgReq where
  | read (fn off : Nat)
  | write (fn off : Nat) (value : Word)
deriving DecidableEq, Repr

/-- The commands of the SC900, in the order of spec/opcode_table.json. -/
inductive Instr where
  -- The Kiln
  | frameTick
  | commitSlice
  | sliceStart
  | frameOverrunWdgBite
  | tickInEdge (kind : EdgeKind)
  | tickHoldover
  | runStart (w : Word)
  | runStop (w : Word)
  | frameZeroOpen
  | kilnPerWrite (w : Word)
  | kilnSrcWrite (w : Word)
  | stimeAdj (w : Word)
  | stimeLoRead
  -- The management port
  | mspRead (req : List Byte) (clocked : Nat)
  | mspWrite (req : List Byte)
  | mspRepeat (req : List Byte)
  | registerWrite (t : RegTarget) (value : DWord)
  | tblDataWrite (w : Word)
  | tblDataRead
  | tblSelWrite (w : Word)
  | commit (w : Word)
  | discard (w : Word)
  | tableCheckEnd
  | lockSet (w : Word)
  | lockClear (w : Word)
  | warm (w : Word)
  | evtCauseRead
  | wdgKick (w : Word)
  | wdgEnable (w : Word)
  | deviceWdgBite
  | apply (w : Word)
  | relSup (w : Word)
  | relOvr (w : Word)
  | relDwdg (w : Word)
  | wmClr (w : Word)
  | wake (w : Word)
  | shpCtlWrite (w : Word)
  | lnkEnable (w : Word)
  | lnkDisable (w : Word)
  | retrain (w : Word)
  -- Doorbells and rings
  | admCtlEnable (fn : Nat)
  | admCtlDisable (fn : Nat)
  | sqTailDoorbell (fn : Nat) (sq : Option Nat) (size : Nat) (value : DWord)
  | cqHeadDoorbell (fn : Nat) (cq : Option Nat) (size : Nat) (value : DWord)
  | evqHeadDoorbell (fn : Nat) (size : Nat) (value : DWord)
  | heartbeatDoorbell (fn : Nat)
  | heartbeatLost (sag : Nat)
  | nudge (fn sch : Nat)
  | msixUnmask (fn vec : Nat)
  | aggTimeExpiry (cq : Nat)
  | entryFetch (q : QueueId) (d : HostData)
  | hostReadReturn (id : Nat) (d : HostData)
  | completionTimeout (id : Nat)
  | start (q : QueueId)
  | trg (q : QueueId)
  | resume (q : QueueId)
  | halt (q : QueueId)
  -- Admin commands: the running admin command of a function
  | createCq (fn : Nat)
  | deleteCq (fn : Nat)
  | resetCq (fn : Nat)
  | createSq (fn : Nat)
  | deleteSq (fn : Nat)
  | resetSq (fn : Nat)
  | createEvq (fn : Nat)
  | deleteEvq (fn : Nat)
  | resetEvq (fn : Nat)
  | abort (fn : Nat)
  | allocPages (fn : Nat)
  | freePages (fn : Nat)
  | createNs (fn : Nat)
  | deleteNs (fn : Nat)
  | getFeature (fn : Nat)
  | setFeature (fn : Nat)
  | identify (fn : Nat)
  | getQueue (fn : Nat)
  | admissionQueryTimeout (fn : Nat)
  -- CCW dispatches: subchannel sch executes the CCW it has reached
  | ccwWrite (sch : Nat)
  | ccwRead (sch : Nat)
  | ccwControl (sch : Nat)
  | ccwSense (sch : Nat)
  | ccwExchange (sch : Nat)
  | ccwMove (sch : Nat)
  | ccwFence (sch : Nat)
  | ccwStage (sch : Nat)
  | ccwSnap (sch : Nat)
  | ccwNop (sch : Nat)
  | ccwJump (sch : Nat)
  | ccwTest (sch : Nat)
  | ccwWaitt (sch : Nat)
  | ccwWaitc (sch : Nat)
  | ccwWaitf (sch : Nat)
  | ccwLoop (sch : Nat)
  | ccwSetc (sch : Nat)
  | ccwPost (sch : Nat)
  | ccwSignal (sch : Nat)
  | ccwClaim (sch : Nat)
  | ccwRelease (sch : Nat)
  | ccwJappend (sch : Nat)
  | ccwColophon (sch : Nat)
  -- Ends of waits
  | portTransferEnd (sch : Nat) (e : LineEnd)
  | lineTurnaround (port : Nat)
  | portTimeout (sch : Nat)
  | readIdleEnd (sch : Nat)
  | endOfFrame (port : Nat)
  | waittExpiry (sch : Nat)
  | waitcTrue (sch : Nat)
  | waitcTimeout (sch : Nat)
  | waitfDone (sch : Nat)
  | fenceDone (sch : Nat)
  | ccwWatchdog (sch : Nat)
  | claimWatchdogHold (group : Nat)
  | claimWatchdogWait (group slot : Nat)
  | remoteTimeout (sch : Nat)
  -- CONTROL codes: the CONTROL CCW of sch with this code
  | portFlush (sch : Nat)
  | clrerr (sch : Nat)
  | i2cRecover (sch : Nat)
  | breakCode (sch : Nat)
  | canMb (sch : Nat)
  | mdioWrite (sch : Nat)
  | mdioRead (sch : Nat)
  | mdioDone (data : BitVec 16)
  | setEdge (sch : Nat)
  | phase (sch : Nat)
  | preset (sch : Nat)
  | clrIndex (sch : Nat)
  | clrTrip (sch : Nat)
  | setWin (sch : Nat)
  | convReset (sch : Nat)
  -- Field events
  | byteReceived (port : Nat) (b : Byte) (frameErr parityErr : Bool)
  | breakReceived (port : Nat)
  | canFrameReceived (port : Nat) (id : Word) (flags : Byte) (data : List Byte) (age : Nat)
  | canFrameSent (port age : Nat)
  | canWithdraw (port : Nat)
  | ethFrameReceived (port : Nat) (frame : List Byte) (fcsOk : Bool) (age : Nat)
  | ethFrameSent (port age : Nat)
  | ethAbandon (port : Nat)
  | edgeCapture (pin : Nat) (kind : EdgeKind)
  | gpioSnapshot (levels : DWord)
  | encoderEdge (enc : Nat) (a b : Bool)
  | index (enc : Nat)
  | monitorSample (wm : Nat) (microvolt : Int)
  | guardCrossing (wm : Nat) (microvolt : Int)
  | converterSample (inputs : ConverterInputs)
  | converterRecord
  -- The block mover
  | bmGo (ch : Nat)
  | bmAbort (ch : Nat)
  | bmAbortDone (ch : Nat) (moved : Nat)
  | bmDisable (ch : Nat)
  | bmStatClear (ch : Nat) (w : Word)
  | bmHalf (ch : Nat)
  | bmBufferEnd (ch : Nat) (e : BmEnd)
  -- The journal
  | jrnRead (q : QueueId)
  | jrnWrite (q : QueueId)
  | append (q : QueueId)
  | jrnFlush (q : QueueId)
  | zeroRange (q : QueueId)
  | seal (q : QueueId)
  | info (q : QueueId)
  | verify (q : QueueId)
  | fleostCheckEnd (engine : Nat) (rejected : Bool)
  | folioOpEnd (sectors bits uncorrectable : Nat)
  | jps1Entry
  | jps2Entry
  | jpsExitDone
  | journalScrub (nsid folio sectors bits uncorrectable : Nat)
  | zeroingDone (o : ZeroObj)
  -- The Uamond Link
  | bypassTestEnd (passed : Bool)
  | sideTrainingStart (side : Side)
  | sideUp (side : Side)
  | sideDown (side : Side)
  | linkWrap (side : Side) (other : Nat)
  | linkUnwrap (side : Side)
  | slotStart (lane : Lane) (segment slot : Nat) (arrives : SlotIn)
  | sync (lane : Lane) (payload : List Byte)
  | train (side : Side) (ta tb tc td : Nat)
  | image (c : Cell) (pubStime : DWord)
  | rportReq (src saggar cls tag frame : Nat) (ccw : List Byte) (data : List Byte)
  | rportRsp (src tag : Nat) (status : Nat) (dstat : BitVec 16) (residual frame : Nat) (data : List Byte)
  | mail (m : MailMsg)
  | election (candidate : Nat)
  | masterSelfStart
  -- Repair and health
  | rotation
  | rotationTestEnd (unit : Nat) (result : UnitTest) (slowdown : Nat)
  -- `struck`: the subchannel whose CCW had begun its issue step, or was posting a status word (R379)
  | processorFault (cp : Nat) (struck : Option Nat)
  | bmBurstFault (ch : Nat) (writeIssued : Bool)
  -- `begun`: bytes of the CCW in progress had begun on the line (R382)
  | sliceFault (port : Nat) (begun : Bool)
  | localStoreScrub (unit : Nat) (found : EccFound)
  | temp (eighths : Int)
  | volt (rail mv : Nat)
  | repairRecordWrite
  -- Power, reset and bisque
  | porstNAssert
  | porstNRelease
  | warmNAssert
  | warmNRelease
  | testMode (high : Bool)
  | brownOut
  | bisqueEnd
  -- PCI Express
  | pePerstNAssert
  | pePerstNRelease
  | dlDown
  | flr (fn : Nat)
  | d3hot (fn : Nat)
  | vfEnable (numVfs : Nat) (enable : Bool)
  | configRequest (r : CfgReq)
  -- The slim host port
  | shpStatus (req : List Byte)
  | shpSubmit (req : List Byte)
  | shpComplete (req : List Byte)
  | shpEvents (req : List Byte)
  | lsWrite (req : List Byte)
  | lsRead (req : List Byte)
  | shpHeartbeat (req : List Byte)
  | shpSetup (req : List Byte)
  | shpPages (req : List Byte)
  | shpNs (req : List Byte)
  | shpQreset (req : List Byte)
  | shpIdentify (req : List Byte)
  | shpControlDone
  -- Rows the table lists last
  | dlUp
  | sideTrainingRetry (side : Side)
  | bypassTestRepeat
  | canBusError (port : Nat) (tecDelta recDelta : Int)
  | busOffRecoveryDone (port : Nat)
  | tickOutPulseEnd
  | bar0Read (fn off size : Nat)
  | malformedTlp (t : BadTlp)
  | jtagInstruction (load : JtagLoad)
deriving DecidableEq, Repr

end Sys2Proof
end

