-- ==== Sys2Proof/Machine/State.lean ====
section
/-! DEFINITION. The state of one SC900: every register, table, FIFO, buffer, counter, mode and pin the spec gives it, as
plain data, and the queue of commands that wait. INVENTORY.md lists each field with its rule and its reset value. A `Store`
lists only what differs from the default of its kind (R7: a table entry never written reads zero). -/

namespace Sys2Proof.Machine

/-- Why a step stops with a fault. -/
inductive Fault where
  /-- Raised by commands that name a resource number outside Table 1.4 for which the chapter that owns the resource states
  no outcome (R11: such a number names nothing). Safe: the machine stops where the hardware has no such unit. -/
  | noSuchResource
deriving DecidableEq, Repr

/-- Why a command is refused. -/
inductive Refusal where
  /-- Raised by the dispatcher for a command without a meaning yet. Safe. -/
  | notModelled (mnemonic : String)
deriving DecidableEq, Repr

/-! ### Status codes, addresses, CCWs -/

/-- The status codes of Table 5.11 (R137); `Status.code` in Machine/Bits.lean gives their values. -/
inductive Status where
  | ok | lengthMismatch | portError | portTimeout | claimWatchdog
  | programCheck | protectionCheck | addressCheck | ccwWatchdog | dataIntegrity
  | aborted | halted
  | refusedDeadline | refusedBudget | refusedResource | refusedRights
  | jrnOutOfRange | jrnSealed | jrnFull | jrnChainMismatch | jrnZeroing
  | repairExhausted | linkUnreachable | migratedAbort
  | abortCaught | abortMissed | abortNotFound
  | malformedEntry
deriving DecidableEq, Repr

/-- A channel command word (R46, Table 3.1). -/
structure Ccw where
  op : Byte
  flags : Byte
  tgt : BitVec 16
  count : Word
  addr : DWord
deriving DecidableEq, Repr

/-- Where a program stands: an inline slot of its start entry (R83), or an address in the encoding of R52. -/
inductive Pc where
  | inline (slot : Nat)
  | at (a : DWord)
deriving DecidableEq, Repr

/-- The service classes (R34 to R36). -/
inductive Cls where
  | g | w | b
deriving DecidableEq, Repr

/-- The queue that reserves a subchannel: an SQ, the SHP queue (R447), or an autonomous queue (R466). -/
inductive QRef where
  | sq (n : Nat)
  | shp
  | auto (k : Nat)
deriving DecidableEq, Repr

/-! ### The Kiln -/

/-- Frame, slices, tick sources, STIME and the Kiln's registers (chapter 2). -/
structure Kiln where
  /-- KILN_CTL (Table 2.8) -/
  run : Bool := false
  holdover : Bool := false
  slewing : Bool := false
  tickOutEn : Bool := false
  ovrLimit : Nat := 0
  /-- an OVR_LIMIT written, in force from the next tick (R45) -/
  ovrLimitNext : Nat := 0
  trim : BitVec 16 := 0
  /-- KILN_PER as written, and the period in force (R21) -/
  per : Nat := 1000
  perInForce : Nat := 1000
  /-- written periods not yet in force: the ticks until each comes into force, and its value (R21) -/
  perPend : List (Nat × Nat) := []
  /-- the part of a nanosecond by which TRIM has moved the station clock so far, in units of 10^-9 ns (R29) -/
  trimAcc : Int := 0
  /-- KILN_SRC (Table 2.9) -/
  src : Nat := 0
  edge : Bool := false
  glitch : Nat := 0
  holdFr : Nat := 0
  frame : Word := 0
  /-- a frame is in progress; its tick, its actual length, the slice in progress (R18, R36) -/
  frameRuns : Bool := false
  /-- the frame in progress was opened directly by a source edge (R26, R263) -/
  firstExt : Bool := false
  tickAt : Nat := 0
  frameLen : Nat := 0
  /-- the frame in progress is lengthened or shortened toward the source (R25) -/
  tickSlew : Bool := false
  slice : Nat := 0
  /-- RUN was set and frame 0 has not opened: the instant it opens with INTERNAL (R26) -/
  zeroPending : Bool := false
  zeroAt : Nat := 0
  /-- a node that starts the ring waits for its TICK_IN edge (R353) -/
  zeroByEdge : Bool := false
  /-- the master's frame number, taken at the next tick (R367) -/
  frameNext : Option Word := none
  /-- RUN was cleared: the frame in progress is the last (R504) -/
  stopping : Bool := false
  /-- last accepted source edge or SYNC, and whether the source has yet given one since its selection (R23) -/
  lastEdge : Nat := 0
  awaitFirst : Bool := true
  /-- phase error of the local generator to the source, ns (R25) -/
  phaseErr : Int := 0
  /-- STIME offset not yet applied, ns (R30) -/
  stimeSlew : Int := 0
  /-- STIME_HI shadow and whether the next read returns it (R28) -/
  stimeShadow : Option Word := none
  /-- KILN_OVR (R45) and whether the watchdog has bitten in this run (R397) -/
  ovrTotal : Nat := 0
  ovrConsec : Nat := 0
  ovrFirstCp : Nat := 0
  ovrBitten : Bool := false
  ovrBiteDue : Bool := false
  accSel : Nat := 0
  accRefuse : Nat := 0
  accJwake : Nat := 0
  /-- TICK_OUT falls at this instant (R27) -/
  tickOutFall : Nat := 0
  /-- STIME slew already applied in this frame, ns (R30) -/
  stimeUsed : Nat := 0
deriving DecidableEq, Repr

/-- Accounting of one logical processor (Table 2.9) and its overrun mark (R44). -/
structure CpAcct where
  gWu : Nat := 0
  wbWu : Nat := 0
  idleWu : Nat := 0
  curG : Nat := 0
  curWb : Nat := 0
  curWbExchange : Nat := 0
  defer : Nat := 0
  overran : Bool := false
  overruns : Nat := 0
deriving DecidableEq, Repr

/-- The input image of the current frame (R16, Table 3.7). -/
structure InputImage where
  stime : DWord := 0
  frame : Word := 0
  gpio : DWord := 0
  above : Word := 0
  below : Word := 0
  counts : Store Word := []
deriving DecidableEq, Repr

/-- Values staged for the pins: GPIO value and mask, PWM duty words, DAC codes by port number (R62), with which of them a
qualifying subchannel wrote (R404). -/
structure StageImage where
  gpioVal : DWord := 0
  gpioMask : DWord := 0
  duty : Store (Option Nat) := []
  dac : Store (Option Nat) := []
  qualified : List Nat := []
deriving DecidableEq, Repr

/-! ### The management port -/

/-- A table change whose admission check runs (R424). -/
structure TblCheck where
  table : Nat
  words : List (Nat × Word)
deriving DecidableEq, Repr

/-- The MSP interface and the table window (chapter 17). -/
structure Msp where
  /-- words of the latest acknowledged READ; none since the last interface reset (R411) -/
  repeatBuf : Option (List Word) := none
  /-- the latest response clocked out (R410) -/
  response : List Byte := []
  /-- the instant from which MSP_CS_N has been high for 100 ns (R409) -/
  nextAt : Nat := 0
  /-- the latest word a register or table read returned outside an MSP frame -/
  readData : Word := 0
  tblSel : Nat := 0
  tblAddr : Nat := 0
  ainc : Bool := true
  hold : Bool := false
  buf : List (Nat × Word) := []
  busy : Option TblCheck := none
  last : Nat := 0
  refused : Nat := 0
  failAddr : Nat := 0
  failId : Nat := 0
  failReason : Nat := 0
  failSq : Nat := 0
  /-- shadows of the 64-bit table counters, by the address of their upper half: SEQ of a JNS entry (R312), TOTAL of a claim slot
  (R253) -/
  seqShadow : Store (Option Word) := []
  totalShadow : Store (Option Word) := []
deriving DecidableEq, Repr

/-- One supervisor cause record (R407). -/
structure Cause where
  code : Nat
  object : Nat
  detail : Nat
  saggar : Nat
  info : Word
deriving DecidableEq, Repr

/-- Device, event and watchdog registers (chapters 7, 16, 17). -/
structure Dev where
  rev : Word := 0x0100
  uid : DWord := 0
  gradeX : Bool := false
  ready : Bool := false
  bisqueFail : Bool := false
  autoloaded : Bool := false
  autoloadErr : Bool := false
  warmStat : Bool := false
  step : Nat := 0
  autoload : Bool := false
  lock : Bool := false
  hard : Bool := false
  errMsp : Nat := 0
  errReg : Nat := 0
  errHost : Nat := 0
  errLock : Nat := 0
  evtPend : BitVec 16 := 0
  evtMask : BitVec 16 := 0
  causes : List Cause := []
  evtDetail : Word := 0
  evtInfo : Word := 0
  evtLost : Nat := 0
  wdgEn : Bool := false
  wdgBite : Bool := false
  wdgStrict : Bool := false
  badKick : Nat := 0
  wdgPer : Nat := 10000
  /-- the period in force, and the instant of the last valid kick while the timer runs (R398) -/
  wdgPerInForce : Nat := 10000
  wdgSince : Option Nat := none
  fsOvr : Bool := false
  fsSup : Bool := false
  fsForce : Bool := false
  safeApplies : Nat := 0
deriving DecidableEq, Repr

/-- Reset pins, bisque and power (chapter 19). -/
structure Power where
  /-- PORST_N is asserted, or the brown-out detector holds reset (R454, R456) -/
  porst : Bool := true
  warmPin : Bool := false
  testMode : Bool := false
  brownOut : Bool := false
  /-- a bisque runs, and it is a warm one (R458) -/
  bisque : Bool := false
  bisqueWarm : Bool := false
  /-- the instant the present bisque step began -/
  stepAt : Nat := 0
  /-- DEV_CTL.WARM has been written; the reset follows the response (R412, Table 17.6) -/
  warmReq : Bool := false
  /-- a warm reset by DEV_CTL.WARM or WARM_N took the node out of the ring; it inserts again when WARM_N rises (Table 19.9) -/
  reinsert : Bool := false
  jtagIr : BitVec 6 := 0b111111
  /-- the cells of the boundary register as last updated (R488) -/
  boundary : BitVec 1032 := 0
deriving DecidableEq, Repr

/-- The output pins whose levels follow combinationally from the state; `settle` forms them after every command. -/
structure Pins where
  failsafeN : Bool := false
  mspIrqN : Bool := true
  shpIrqN : Bool := true
  /-- bit n: this SC900 drives TRIPn low (R268) -/
  trip : BitVec 8 := 0
  /-- bit n: TRIPn is held low from outside -/
  tripExt : BitVec 8 := 0
  tickOut : Bool := false
  lkInsert : Bool := false
  /-- low from the release of PORST_N until power is removed (R432) -/
  peClkreqN : Bool := true
  /-- EXTEST, HIGHZ or CLAMP is selected: pin levels come from the boundary register and not from this record (R489;
  `State.scanPin` in Machine/PinLevels.lean) -/
  boundary : Bool := false
deriving DecidableEq, Repr

/-! ### Saggars and local store -/

/-- One SAGGAR entry with its heartbeat (Table 7.1, R173). -/
structure Saggar where
  en : Bool := false
  clsG : Bool := false
  clsW : Bool := true
  clsB : Bool := true
  subLim : Nat := 0
  pageLim : Nat := 0
  nsLim : Nat := 0
  folioLim : Nat := 0
  hbPer : Nat := 0
  hbHalt : Bool := false
  hbLost : Nat := 0
  hbDown : Bool := false
  /-- the instant of the last heartbeat write while the timer is armed -/
  hbSince : Option Nat := none
  sqGrant : BitVec 256 := 0
  cqGrant : BitVec 256 := 0
  observe : BitVec 512 := 0
  actuate : BitVec 512 := 0
deriving DecidableEq, Repr

/-- A physical local-store page (R154, R176, Table 15.4). -/
inductive PageState where
  | free
  | mapped (sag view : Nat)
  | zeroing (sag : Nat)
  | retired
deriving DecidableEq, Repr

/-- A view page that a G queue program-locks (R39). -/
structure PageLock where
  q : QRef
  sag : Nat
  view : Nat
deriving DecidableEq, Repr

/-- The local store: bytes by physical address, the views, the pages, locks and poison (R171, R384). -/
structure LocalStore where
  mem : Store Byte := []
  view : Store (Option Nat) := []
  pages : Store PageState := []
  locks : List PageLock := []
  poison : List Nat := []
  /-- pages retired while they have an owner: they do not return to the pool (Table 15.4) -/
  retiring : List Nat := []
deriving DecidableEq, Repr

/-! ### Queues -/

/-- What a fetched entry is (R119, R121). -/
inductive EntryKind where
  | start | trg | resume | halt | journal | malformed
deriving DecidableEq, Repr

/-- How far a fetched entry has come. -/
inductive EntryPhase where
  /-- in a G prefetch buffer, or fetched and waiting to start -/
  | waiting
  /-- in the start set, or begun: its program runs, its arming holds, its journal work is under way -/
  | begun
  /-- its work ended with this status -/
  | ended (st : Status)
deriving DecidableEq, Repr

/-- A journal entry's fields (Table 5.5). -/
structure JrnFields where
  opc : Nat := 0
  nsid : Nat := 0
  folio : DWord := 0
  nfol : Nat := 0
  coding : Word := 0
  buf : DWord := 0
  sgl : Bool := false
  chain : List Byte := []
deriving DecidableEq, Repr

/-- A fetched submission entry and its progress. -/
structure Entry where
  eid : Nat
  slot : Nat
  cid : Nat
  kind : EntryKind
  sig : Bool := false
  irq : Bool := false
  dlv : Bool := false
  deadline : Word := 0
  prog : DWord := 0
  stata : DWord := 0
  trigger : Word := 0
  inl0 : Option Ccw := none
  inl1 : Option Ccw := none
  sch : Nat := 0
  jrn : JrnFields := {}
  /-- the instant its read returned (R33, R496) -/
  fetchAt : Nat := 0
  fetchStime : DWord := 0
  /-- in a G prefetch buffer and not yet in a start set (R496) -/
  prefetched : Bool := false
  fetchSeq : Nat := 0
  phase : EntryPhase := .waiting
  /-- frames that have opened since its fetch while it waited to start (R34) -/
  defer : Nat := 0
  /-- completion bytes 8 to 11 -/
  result : Word := 0
deriving DecidableEq, Repr

/-- The states of an SQ context (Table 6.8). -/
inductive SqState where
  | free | active | error | resetting | deleting | stopped
deriving DecidableEq, Repr

/-- A submission queue context (Table 17.10, R146). -/
structure Sq where
  state : SqState := .free
  fn : Nat := 0
  cq : Nat := 0
  base : DWord := 0
  n : Nat := 0
  journal : Bool := false
  cls : Cls := .w
  tagged : Bool := false
  depth : Nat := 0
  weight : Nat := 0
  burst : Nat := 0
  cp : Nat := 0
  mask : BitVec 8 := 0
  progs : List DWord := []
  head : Nat := 0
  tail : Nat := 0
  qerr : Option Nat := none
  defers : Nat := 0
  entries : List Entry := []
  /-- T_r of a reset or delete in progress (R150) -/
  tr : Nat := 0
  aborted : Nat := 0
  /-- its CREATE_SQ completion has been written: doorbells are accepted (R159) -/
  opened : Bool := false
  /-- weight and burst that take effect from the next fetch round (R156) -/
  arbNext : Option (Nat × Nat) := none
  /-- the prefetch buffer is being zeroed (R176) -/
  zeroing : Bool := false
  /-- a tail moved back over unfetched entries: which exposed slots are fetched is not defined (R115) -/
  loose : Bool := false
deriving DecidableEq, Repr

/-- A completion entry without its phase (Table 5.6). -/
structure Cqe where
  cid : Nat
  sqid : Nat
  status : Status
  kd : Word
  irq : Bool := false
  /-- of a malformed entry: its index, which fixes SQHD and follows in QUEUE_ERROR (R130) -/
  qerr : Option Nat := none
  /-- the entries it completes: the one it names last, before it those it covers (R125); they stay uncompleted while it is held -/
  covers : List Entry := []
deriving DecidableEq, Repr

/-- The fetch round among the W queues (R498): the step, the last queue served at it, and the turn in progress with the entries
it may still fetch. The slim host port stands after SQ255 (R447). -/
structure FetchRound where
  step : Nat := 1
  last : Option Nat := none
  turn : Option (Nat × Nat) := none
deriving DecidableEq, Repr

/-- A completion queue context (Table 17.10, R131, R136). -/
structure Cq where
  exists_ : Bool := false
  fn : Nat := 0
  base : DWord := 0
  n : Nat := 0
  vector : Nat := 0
  aggCnt : Nat := 0
  aggTime : Nat := 0
  head : Nat := 0
  tail : Nat := 0
  phase : Bool := true
  pendCnt : Nat := 0
  pendSince : Nat := 0
  held : List Cqe := []
  /-- a completion was held in the frame in progress -/
  heldInFrame : Bool := false
  stallFr : Nat := 0
deriving DecidableEq, Repr

/-- An event ready for an event queue (Table 5.8). -/
structure Evt where
  code : Nat
  object : Nat
  detail : Nat
  info : Word
  stime : Word
deriving DecidableEq, Repr

/-- One function: admin queue, event queue, PCI Express state (chapters 5, 6, 18). -/
structure Fn where
  sqb : DWord := 0
  cqb : DWord := 0
  sqn : Nat := 0
  cqn : Nat := 0
  en : Bool := false
  rdy : Bool := false
  cfgErr : Bool := false
  /-- an EN write made before READY waits (R436) -/
  enHeld : Bool := false
  /-- EN fell while a command ran (R138) -/
  draining : Bool := false
  sqHead : Nat := 0
  sqTail : Nat := 0
  cqHead : Nat := 0
  cqTail : Nat := 0
  cqPhase : Bool := true
  /-- the admin entry that runs, as read (R139) -/
  running : Option (List Byte) := none
  /-- the admin SQ's tail moved back over unfetched entries (R115) -/
  loose : Bool := false
  /-- a command that touches shared state has begun and is not applied yet: a CREATE_SQ that waits (R159) -/
  applying : Bool := false
  /-- a CREATE_SQ waits for link replies; the frame it asked in (R360) -/
  queryFrame : Option Nat := none
  /-- the replies so far: node, reason, and per port the target's sum and B_p -/
  replies : List (Nat × Nat × List (Nat × Nat × Nat)) := []
  heldAdmin : Option Cqe := none
  /-- the pages an ALLOC_PAGES waits for (R154) -/
  pagesWait : Option (List Nat) := none
  evqOn : Bool := false
  evqBase : DWord := 0
  evqN : Nat := 0
  evqHead : Nat := 0
  evqTail : Nat := 0
  evqPhase : Bool := true
  evqLost : Nat := 0
  busMaster : Bool := false
  msixEn : Bool := false
  fnMask : Bool := false
  d3 : Bool := false
  /-- STIME shadow of the function status mirror (R439) -/
  stimeShadow : Option Word := none
  /-- the data the latest BAR0 read returned -/
  barData : DWord := 0
  /-- AER uncorrectable error status; Received Master Abort and Received Target Abort of Status (Table 18.6) -/
  aer : Word := 0
  masterAbort : Bool := false
  targetAbort : Bool := false
deriving DecidableEq, Repr

/-- One MSI-X vector (R440); the reset value of the mask bit is PCI Express's. -/
structure Msix where
  addr : DWord := 0
  data : Word := 0
  masked : Bool := true
  pending : Bool := false
deriving DecidableEq, Repr

/-- An item on the ordered path to the host (R133): a posted write, or an MSI-X message. -/
inductive Posted where
  | write (fn : Nat) (addr : DWord) (bs : List Byte)
  | msix (fn vec : Nat) (addr : DWord) (data : Word)
deriving DecidableEq, Repr

/-- Who waits for a host read. -/
inductive Reader where
  | ccw (sch : Nat)
  | element (sch : Nat)
  | data (sch : Nat)
  | fence (sch : Nat)
  | bmList (ch : Nat) (src : Bool)
  | bmData (ch : Nat)
  | jrnList (job : Nat)
  | jrnData (job : Nat)
deriving DecidableEq, Repr

/-- An outstanding host read (R441). -/
structure HostRead where
  id : Nat
  fn : Nat
  addr : DWord
  len : Nat
  who : Reader
deriving DecidableEq, Repr

/-! ### Subchannels -/

/-- The states of Table 4.1. -/
inductive SchState where
  | idle | active | waiting | suspended | parked | armed | halting
deriving DecidableEq, Repr

/-- What halts a program, and how its entry completes (R95, R96, R150, R174, R101). -/
inductive HaltWhy where
  | halt | reset | heartbeat | restart | qreset
deriving DecidableEq, Repr

/-- How far a port transfer has come. -/
inductive OpPhase where
  /-- the port logic has taken the transfer up and reads its list elements or transmit data; of a CONTROL or a remote CCW: they are
  read before it goes on -/
  | prep
  /-- the grant of a SHARED port is awaited (R60) -/
  | claim
  /-- behind other line operations (R214) -/
  | queued
  /-- on the line: transmitting, or (a WRITE) moving bytes into the transmit FIFO -/
  | line
  /-- the receiver is open; no byte has begun -/
  | listen
  /-- bytes are being received -/
  | receive
  /-- the receive ended; the status is due (t5 to t6 of Table 3.6) -/
  | ended
  /-- a remote CCW awaits its response (R357) -/
  | remote
deriving DecidableEq, Repr

/-- The port CCW a subchannel has in progress. -/
structure PortOp where
  ccw : Ccw
  port : Nat
  node : Nat
  phase : OpPhase
  /-- buffer pieces in order: address and bytes (R53) -/
  pieces : List (DWord × Nat) := []
  /-- where list elements stop being good, and the status then (R54) -/
  limit : Option (Nat × Status) := none
  elems : Nat := 0
  /-- the next buffer-list element, while the list is read -/
  listNext : Option DWord := none
  tx : List Byte := []
  rx : List Byte := []
  rxCount : Nat := 0
  txCount : Nat := 0
  frameLong : Bool := false
  dstat : BitVec 16 := 0
  /-- instant of the dispatch, of t1, of the latest byte's end, of t3 -/
  t0 : Nat := 0
  t1 : Nat := 0
  lastByte : Nat := 0
  t3 : Nat := 0
  /-- RESP_NS and BYTE_NS in force at the dispatch (R428) -/
  respNs : Nat := 0
  byteNs : Nat := 0
  seq : Nat := 0
  deadline : Nat := 0
  /-- TURN_NS and OVH_NS in force at the dispatch (R428), and the instant t2 of Table 3.6 -/
  turnNs : Nat := 0
  ovhNs : Nat := 0
  t2 : Nat := 0
  /-- a host read of a list element is outstanding -/
  elemBusy : Bool := false
  /-- the response of a remote CCW: status, DSTAT, RESIDUAL, frame of execution, while list elements for its data are read (R357) -/
  remoteSt : Option (Status × BitVec 16 × Nat × Nat) := none
deriving DecidableEq, Repr

/-- What a WAITING subchannel waits for besides a port (R67 to R71, R74, R75). -/
inductive Wait where
  | none
  | hostCcw
  | time (due : Nat)
  | cond (code : BitVec 16) (invert : Bool) (due : Option Nat)
  | ticks (left : Nat)
  | frame (n : Word)
  | fencePort (port : Nat)
  | fenceLs
  | fenceHost
  | claim (port : Nat)
  | move (ch : Nat)
  | jappend (job : Nat)
deriving DecidableEq, Repr

/-- One subchannel: a program context (chapter 4). -/
structure Sch where
  state : SchState := .idle
  owner : Option QRef := none
  eid : Option Nat := none
  stata : DWord := 0
  /-- where an armed or running program starts, and its inline CCWs -/
  startPc : Pc := .at 0
  inl0 : Option Ccw := none
  inl1 : Option Ccw := none
  progAddr : DWord := 0
  trigger : Option Word := none
  pc : Pc := .at 0
  /-- a CCW read from host memory at pc, or the status its read failed with -/
  fetched : Option Ccw := none
  fetchFail : Bool := false
  cur : Option Ccw := none
  curPc : Pc := .at 0
  op : Option PortOp := none
  wait : Wait := .none
  lc0 : Word := 0
  lc1 : Word := 0
  lc2 : Word := 0
  lc3 : Word := 0
  /-- the retained status is LENGTH_MISMATCH (R87) -/
  lmr : Bool := false
  residual : Word := 0
  dstat : BitVec 16 := 0
  resumeL : Bool := false
  nudgeL : Bool := false
  startL : Bool := false
  haltWhy : Option HaltWhy := none
  /-- a RESTART trigger waits for the halt it asked (R101) -/
  restart : Bool := false
  /-- the trigger of a G arming fired; the program starts at the next tick (R497) -/
  fired : Bool := false
  /-- the instant the trigger fired (R33) -/
  firedAt : Nat := 0
  /-- the latest port CCW carried HOLD: the halt's break point is further on (R96) -/
  holdRun : Bool := false
  /-- an open span: opcode, target, and whether the rest is only read forward (R85, R88) -/
  span : Option (Byte × BitVec 16) := none
  /-- COUNT of the span's previous CCW: an I²C READ span keeps COUNT[30:24] (R227) -/
  spanCount : Word := 0
  spanSkip : Bool := false
  afterJump : Bool := false
  /-- a nudge re-reads the park address: finding the open COLOPHON again parks without posting (R104) -/
  reread : Bool := false
  /-- the frame whose tick applied the program's last STAGE; while that tick is to come, the ticks until it (R15) -/
  applyFrame : BitVec 16 := 0xFFFF
  stageTicks : Nat := 0
  readySince : Nat := 0
  dispatchedAt : Nat := 0
  wdgInForce : Nat := 0
  ccwa : Word := 0
  trgOvr : Nat := 0
  ccwWdg : Nat := 0
  waitSeq : Nat := 0
deriving DecidableEq, Repr

/-- An autonomous queue (R466). -/
structure Auto where
  sag : Nat
  cp : Nat
  cls : Cls
  depth : Nat
  mask : BitVec 8
  progs : List DWord
  /-- START slots that have not started or still run (R465) -/
  starts : List Entry := []
  /-- its programs halt, and then it is released (R467) -/
  ending : Bool := false
deriving DecidableEq, Repr

/-- What admission holds of an admitted G queue (R38, R147, R188). -/
structure Admitted where
  q : QRef
  sag : Nat
  cp : Nat
  depth : Nat
  schs : List Nat := []
  /-- the PLIST addresses (R148) -/
  plist : List DWord := []
  /-- C_q, the largest Z, K and latency sum -/
  c : Nat := 0
  z : Nat := 0
  k : Nat := 0
  lat : Nat := 0
  /-- T_q per port of this node, and every port of this node that a CCW of it addresses -/
  ports : List (Nat × Nat) := []
  addressed : List Nat := []
  /-- N_q per remote node -/
  cells : List (Nat × Nat) := []
  /-- A_r of R38; the namespaces of its JAPPENDs -/
  jappend : Nat := 0
  jnsids : List Nat := []
  channels : List Nat := []
  /-- per remote port: TGT, the target's Σ d·T_p and its B_p (R360) -/
  remote : List (Nat × Nat × Nat) := []
deriving DecidableEq, Repr

/-! ### Block mover -/

/-- The states of a channel (Table 8.5). -/
inductive BmState where
  | idle | run | aborting | stalled
deriving DecidableEq, Repr

/-- A transfer: the fields of MODE and of the register set or the move descriptor (Tables 8.2, 8.3, 8.11). -/
structure BmCfg where
  mode : Word := 0
  src : DWord := 0
  dst : DWord := 0
  count : Nat := 0
  wstride : Nat := 0
  sring : Nat := 0
  dring : Nat := 0
deriving DecidableEq, Repr

/-- A block mover channel: assignment and register set (Tables 8.1, 8.2). -/
structure Bm where
  sag : Nat := 0
  slot : Nat := 0
  en : Bool := false
  gres : Option QRef := none
  zeroing : Bool := false
  /-- the saggar whose leaving the zeroing follows (R178) -/
  zeroFor : Nat := 0
  failed : Bool := false
  src : DWord := 0
  dst : DWord := 0
  count : Nat := 0
  mode : Word := 0
  wstride : Nat := 0
  sring : Nat := 0
  dring : Nat := 0
  spos : Nat := 0
  dpos : Nat := 0
  ieHalf : Bool := false
  ieFull : Bool := false
  ping : Bool := false
  pace : Bool := false
  vec : Nat := 0
  state : BmState := .idle
  half : Bool := false
  fullA : Bool := false
  fullB : Bool := false
  abortedB : Bool := false
  err : Bool := false
  short : Bool := false
  disabled : Bool := false
  bufB : Bool := false
  code : Status := .ok
  resid : Nat := 0
  srcB : DWord := 0
  dstB : DWord := 0
  wbaddr : DWord := 0
  ends : Nat := 0
  /-- the running buffer: what it moves, bytes done, the pieces of each side, list elements still to be read -/
  run : BmCfg := {}
  done : Nat := 0
  halfDone : Bool := false
  srcPieces : List (DWord × Nat) := []
  dstPieces : List (DWord × Nat) := []
  srcList : Option DWord := none
  dstList : Option DWord := none
  srcElems : Nat := 0
  dstElems : Nat := 0
  /-- what the end of the pieces of a bad list gives (R193) -/
  srcEnd : Status := .addressCheck
  dstEnd : Status := .addressCheck
  /-- host data read for source pieces, by piece; the piece whose read is outstanding -/
  hostData : List (Nat × List Byte) := []
  nextRead : Nat := 0
  /-- local bytes that this transfer's writes have replaced, by physical address, while its sides may overlap (R198) -/
  orig : List (Nat × Byte) := []
  /-- bytes of a record being formed for a CAN FD or Ethernet port, or snapshots of a BITPLANE block taken from its port -/
  gather : List Byte := []
  /-- the MOVE that holds the channel, and the MOVEs that wait for it, oldest first (R206) -/
  mover : Option Nat := none
  waiters : List (Nat × BmCfg) := []
deriving DecidableEq, Repr

/-! ### Field ports -/

/-- A received character with its error flags (R221). -/
structure RxByte where
  b : Byte
  fe : Bool := false
  pe : Bool := false
  stime : DWord := 0
deriving DecidableEq, Repr

/-- An entry that a full FIFO has dropped: a pop in the same cycle takes it in after all (R218). `fifo`: 0 serial, 1 edge capture,
2 snapshot, 3 index capture; `at` the instant; what the drop changed stands beside it as it was before. -/
structure LateDrop where
  fifo : Nat
  at_ : Nat
  rx : Option RxByte := none
  record : List Byte := []
  drops : Nat := 0
  estat : BitVec 16 := 0
  flag : Bool := false
deriving DecidableEq, Repr

/-- The rest of a UART WRITE whose line a G CCW has taken between segments (R214): its subchannel, the characters still to be sent
with who wrote them, and whether its end is a break point. -/
structure Segment where
  owner : Nat
  tx : List Byte
  by_ : List Nat
  brkPt : Bool
deriving DecidableEq, Repr

/-- A CAN FD message buffer (R232). -/
structure CanMb where
  kind : Nat := 0
  filter : Word := 0
  mask : Word := 0
  full : Bool := false
  record : List Byte := []
  stime : DWord := 0
  queuedAt : Nat := 0
  sch : Nat := 0
  /-- the end of the frame's transmission is a break point of a SHARED port (R247) -/
  brkPt : Bool := false
deriving DecidableEq, Repr

/-- An Ethernet transmit record waiting (R234). -/
structure EthTx where
  record : List Byte
  queuedAt : Nat
  sch : Nat
  brkPt : Bool := false
deriving DecidableEq, Repr

/-- The run-time state of a field port; the configuration stands in the PORT table. -/
structure Port where
  errs : Nat := 0
  drops : Nat := 0
  estat : BitVec 16 := 0
  /-- the configuration in force while older CCWs run (R212); none = the table's -/
  live : Option (List Word) := none
  /-- CCWs with an older sequence number run under `live` -/
  liveSeq : Nat := 0
  /-- further configurations that CCWs already dispatched keep, each with the number below which CCWs are its own (R212) -/
  later : List (List Word × Nat) := []
  /-- saggar of the previous CCW, for the FIFO zeroing of R176; and the saggar whose FLR or revocation is zeroing the FIFOs (R178) -/
  prevSag : Option Nat := none
  zeroFor : Option Nat := none
  failed : Bool := false
  /-- serial FIFOs and line -/
  rx : List RxByte := []
  tx : List Byte := []
  /-- bytes of the frame being sent and of the frame being received (R225, R85) -/
  sent : List Byte := []
  frameRx : List Byte := []
  txBy : List Nat := []
  de : Bool := false
  lineBusy : Option Nat := none
  /-- the end of the transmission in progress is a break point (R247: no HOLD, no SPAN) -/
  brkPt : Bool := false
  discard : Bool := false
  brk : Bool := false
  rxStime : DWord := 0
  rxTotal : Word := 0
  lastRx : Nat := 0
  /-- the transmission on the line: its first start bit, the end of the last bit of what the FIFO holds, the turnaround that follows
  (R223), and the subchannel that transmitted last -/
  txStart : Nat := 0
  txEnd : Nat := 0
  txTurn : Nat := 0
  txOwner : Option Nat := none
  /-- the port logic begins no operation before this instant: a segment runs (R214), or MONO_NS (R228) -/
  lineAt : Nat := 0
  segment : Option Segment := none
  /-- bytes that the block mover put into the transmit FIFO while an operation had the line, and who wrote them (R223) -/
  waitTx : List Byte := []
  waitBy : List Nat := []
  /-- chip select is low, and it rises at this instant after an operation (R226); TXD is held low until this instant (R228) -/
  csLow : Bool := false
  csRise : Nat := 0
  txdLow : Nat := 0
  /-- the receive buffer whose record a READ span is reading (R217) -/
  spanMb : Option Nat := none
  late : Option LateDrop := none
  /-- CAN FD -/
  mbs : Store CanMb := []
  tec : Nat := 0
  recErr : Nat := 0
  canState : Nat := 0
  recovering : Bool := false
  lastTxStime : DWord := 0
  rxOvr : Bool := false
  abandon : List Nat := []
  /-- Ethernet -/
  ethTx : List EthTx := []
  ethRx : List (List Byte) := []
  txTag : BitVec 16 := 0
  mdioData : BitVec 16 := 0
  mdioValid : Bool := false
  dropped : Word := 0
  fcsErrs : Word := 0
  rxDrop : Bool := false
  /-- safe state: OPT latched at entry, FIXED, GPOPT, causes, pend, applies (R401 to R404) -/
  cSag : Bool := false
  cOvr : Bool := false
  cDwdg : Bool := false
  cSup : Bool := false
  pend : Bool := false
  applies : Nat := 0
  safeOpt : Nat := 0
  /-- word 0 of the SAFE entry at the latest entry into the safe state (R402) -/
  safeW0 : Word := 0
  /-- the supervisor cause released last, while PEND waits -/
  lastCause : Nat := 0
deriving DecidableEq, Repr

/-- The GPIO bank (R236, R237). -/
structure Gpio where
  level : DWord := 0
  edgeFlags : DWord := 0
  capture : List (List Byte) := []
  snaps : List (List Byte) := []
  out : DWord := 0
  driven : DWord := 0
  hiz : DWord := 0
  edgeInForce : Store Nat := []
  edgePend : Store (Option Nat) := []
  snapInForce : Nat := 0
  snapNext : Nat := 0
  capOvr : Bool := false
  snapOvr : Bool := false
deriving DecidableEq, Repr

/-- A PWM output (R238). -/
structure Pwm where
  duty : Nat := 0
  high : Nat := 0
  staged : Nat := 0
  phasePend : Option Nat := none
  phase : Nat := 0
  inactive : Bool := false
  /-- the period counter stood at `ctr` at the instant `ctrAt` (R238) -/
  ctr : Nat := 0
  ctrAt : Nat := 0
deriving DecidableEq, Repr

/-- A DAC output (R240). -/
structure Dac where
  code : Nat := 0
  staged : Nat := 0
deriving DecidableEq, Repr

/-- A pulse or encoder input (R239). -/
structure Enc where
  a : Bool := false
  b : Bool := false
  /-- the levels at the inputs and the instant they came: they count once they have stood for FILTER ns -/
  rawA : Bool := false
  rawB : Bool := false
  rawAt : Nat := 0
  count : Word := 0
  latched : Word := 0
  indexCount : Word := 0
  indexStime : DWord := 0
  capture : List (List Byte) := []
  preset : Option Word := none
  qerr : Bool := false
  capOvr : Bool := false
deriving DecidableEq, Repr

/-- The MDIO line shared by the MACs (R235): waiting operations, oldest first: subchannel, MAC, PHY, register, write data. -/
structure MdioOp where
  sch : Nat
  mac : Nat
  phy : Nat
  reg : Nat
  data : Option (BitVec 16)
deriving DecidableEq, Repr

/-! ### Claims -/

/-- A claim slot (Table 10.2) with its request. -/
structure ClaimSlot where
  sch : Nat := 0
  bound : Bool := false
  seglim : Nat := 0
  grants : Nat := 0
  waits : Nat := 0
  longest : Nat := 0
  total : Nat := 0
  reqSince : Option Nat := none
  /-- the request has been counted in WAITS (R253) -/
  counted : Bool := false
deriving DecidableEq, Repr

/-- A claim group (Table 10.1). -/
structure ClaimGroup where
  port : Nat := 0
  en : Bool := false
  cwdg : Nat := 0
  holder : Option Nat := none
  holdSince : Nat := 0
  bites : Nat := 0
  /-- slots sampled at t1 of the holder's CCW (R248) -/
  sampled : List Nat := []
  slots : Store ClaimSlot := []
deriving DecidableEq, Repr

/-! ### Analogue -/

/-- The configuration words of a monitor that come into force at a tick (R273). -/
structure WmCfg where
  en : Bool := false
  /-- MODE: 0 SAMPLED, 1 GUARD -/
  mode : Nat := 0
  rate : Nat := 0
  uen : Bool := false
  len : Bool := false
  hyst : Nat := 0
  latchPeriod : Bool := false
  upper : Nat := 0
  lower : Nat := 0
  aEvt : Bool := false
  aFire : Bool := false
  aLine : Bool := false
  evtSag : Nat := 0
  tsch : Nat := 0
  hostwin : Bool := false
deriving DecidableEq, Repr

/-- MODE is GUARD (Table 11.1). -/
def WmCfg.guard (c : WmCfg) : Bool := c.mode == 1

/-- A window monitor (Table 11.1). -/
structure Wm where
  /-- as written, and as in force -/
  cfg : WmCfg := {}
  live : WmCfg := {}
  trips : Nat := 0
  fdrop : Nat := 0
  last : DWord := 0
  latch : Bool := false
  above : Bool := false
  below : Bool := false
  valid : Bool := false
  /-- the instant of the latest sample taken -/
  sampleAt : Option Nat := none
  sets : Nat := 0
  estat : BitVec 16 := 0
  enAt : Nat := 0
  /-- the level at the WMn pin, µV, as a command gave it last: guard mode evaluates it continuously (R267) -/
  input : Int := 0
deriving DecidableEq, Repr

/-- The converter configuration (Table 11.4). -/
structure AdcCfg where
  en : Bool := false
  free : Bool := false
  sag : Nat := 0
  chmask : BitVec 16 := 0
  npf : Nat := 0
  freeNs : Nat := 0
  base : Nat := 0
  nrec : Nat := 0
deriving DecidableEq, Repr

/-- A converter record that is due after its frame (R280): the configuration of its frame, its slot, its content. -/
structure AdcDue where
  cfg : AdcCfg
  slot : Nat
  stime : DWord
  frame : Word
  sets : List (List (BitVec 16))
  drop : Bool
  clip : Bool
  /-- the frame's configuration met R276 under the period of its frame (R281) -/
  cfgOk : Bool := true
deriving DecidableEq, Repr

/-- The converters (section 11.7). -/
structure Adc where
  cfg : AdcCfg := {}
  live : AdcCfg := {}
  resetNext : Bool := false
  w : Nat := 0
  drops : Nat := 0
  clips : Nat := 0
  /-- the frame being sampled: set 0's STIME, frame, sets, flags -/
  setStime : DWord := 0
  setFrame : Word := 0
  sets : List (List (BitVec 16)) := []
  drop : Bool := false
  clip : Bool := false
  gap : Bool := false
  /-- the record that is due: the frame that ended -/
  due : Option AdcDue := none
  /-- STIME of the latest sample set taken -/
  lastSet : Option DWord := none
  lastFrame : Word := 0
  written : Word := 0
  notWritten : Word := 0
  estat : BitVec 16 := 0
  dropSeen : Bool := false
  clipSeen : Bool := false
  cfgErr : Bool := false
deriving DecidableEq, Repr

/-! ### Journal -/

/-- Namespace types (Table 12.1). -/
inductive NsType where
  | linear | ring | sealed
deriving DecidableEq, Repr

/-- A namespace (Table 12.6). -/
structure Ns where
  owner : Nat := 0
  exist : Bool := false
  type : NsType := .linear
  closed : Bool := false
  zeroing : Bool := false
  /-- the owner that the zeroing takes the namespace from (R178) -/
  zeroFor : Nat := 0
  /-- the zeroing deletes the namespace (DELETE_NS), or keeps it for its new owner (R313) -/
  deleting : Bool := false
  delOk : Bool := false
  rd : Bool := false
  imgWr : Bool := false
  nfol : Nat := 0
  seq : Nat := 0
  /-- the head of the chain of a SEALED namespace; empty while SEQ is 0 (R297) -/
  head : List Byte := []
  corr : Nat := 0
  uncorr : Nat := 0
  createStime : DWord := 0
deriving DecidableEq, Repr

/-- A written folio: data, tag, chain value (R284, R297). -/
structure Folio where
  data : List Byte
  tag : List Byte
  chain : List Byte
deriving DecidableEq, Repr

/-- Who asked a journal job (R301). -/
inductive JobFor where
  | entry (q : QueueId) (eid : Nat)
  | jappend (sch : Nat)
  | zero (nsid : Nat)
  | record
  | scrub
deriving DecidableEq, Repr

/-- A job for the array or the Fleost engines. -/
structure Job where
  id : Nat
  who : JobFor
  sag : Nat
  /-- step of R301 -/
  rank : Nat
  opc : Nat
  nsid : Nat
  folio : Nat
  nfol : Nat
  /-- the buffer: its pieces, the list element to be read next, elements read -/
  pieces : List (DWord × Nat) := []
  listNext : Option DWord := none
  elems : Nat := 0
  /-- bytes a source still has to give, and those at hand -/
  need : Nat := 0
  data : List Byte := []
  /-- coded work: coding word, samples per channel, channel stride, start STIME, and whether a checker rejected its form -/
  coding : Word := 0
  samples : Nat := 0
  stride : Nat := 0
  srcAddr : DWord := 0
  firstStime : DWord := 0
  rejected : Bool := false
  rawFall : Bool := false
  engine : Option Nat := none
  /-- the block's header, the tag of its first folio -/
  tag : List Byte := []
  /-- ready for the media; media operations begun; folios done; their number -/
  ready : Bool := false
  begun : Bool := false
  pos : Nat := 0
  total : Nat := 0
  unwritten : Bool := false
  /-- an append has taken its folios: the first count, what those it has written held before, and the head before -/
  took : Bool := false
  first : Nat := 0
  old : List (Option Folio) := []
  oldHead : List Byte := []
  /-- the folios it writes -/
  news : List Folio := []
  /-- the chain value reached by a VERIFY -/
  chain : List Byte := []
  res : DWord := 0
  seq : Nat := 0
  readySeq : Nat := 0
  readyAt : Nat := 0
  /-- the instant of its fetch or dispatch (R329) -/
  askedAt : Nat := 0
  /-- folios of the namespace that showed too many corrected bits: they are moved at the end -/
  remaps : List Nat := []
  /-- what a scrub's read finds: corrected sectors, most corrected bits in one of them, uncorrectable sectors (R308) -/
  found : Option (Nat × Nat × Nat) := none
  /-- the issuer has gone: the job runs to its end and reports nothing (R152, R305) -/
  orphan : Bool := false
  /-- the watchdog of its JAPPEND has bitten: the status its program ends with (R108) -/
  forced : Option Status := none
deriving DecidableEq, Repr

/-- The journal array and its registers (chapter 12). -/
structure Jrn where
  maxps : Nat := 2
  ps : Nat := 0
  wakes : Nat := 0
  idle1 : Nat := 1000
  idle2 : Nat := 0
  /-- the instant the latest folio operation ended -/
  lastOp : Nat := 0
  /-- a power state exit runs until this instant (R306) -/
  exitAt : Option Nat := none
  spare : Nat := 20971
  /-- folios of no namespace that left the pool (Table 15.4) -/
  lostFolios : Nat := 0
  folios : Store (Option Folio) := []
  jobs : List Job := []
  /-- the job whose folio operation is in progress, and the instant it ends -/
  cur : Option Nat := none
  opEnd : Nat := 0
  nextJob : Nat := 0
  remaps : Nat := 0
deriving DecidableEq, Repr

/-! ### Uamond Link -/

/-- One side of the node (R338 to R340). -/
structure LnkSide where
  up : Bool := false
  training : Bool := false
  trainAt : Nat := 0
  upAt : Nat := 0
  downAt : Nat := 0
  /-- ticks since the side went down, and since it came up -/
  downTicks : Nat := 0
  upTicks : Nat := 0
  /-- a measured delay, in force from the next tick (R339) -/
  delayNext : Option Nat := none
  badCells : Nat := 0
  crcAt : Nat := 0
  exchanges : Nat := 0
  sum : Int := 0
  delay : Nat := 0
  wrapped : Bool := false
deriving DecidableEq, Repr

/-- An LNK_NODE entry (Table 14.9) with the publication being received. -/
structure LnkPeer where
  mcap : Bool := false
  hopsA : Nat := 0
  hopsB : Nat := 0
  dlyA : Nat := 0
  dlyB : Nat := 0
  lost : Nat := 0
  denied : Nat := 0
  sub : Bool := false
  subSag : Nat := 0
  subOff : Nat := 0
  imgRx : Nat := 0
  imgMiss : Nat := 0
  /-- the publication of this frame: cells received, their numbers, and whether its header has been written -/
  rxGot : Nat := 0
  rxSeen : List Nat := []
  rxDone : Bool := false
  rxStime : Option DWord := none
  /-- QUOTA as written, in force since the last block generation, and the other end's -/
  quota : Nat := 0
  quotaIn : Nat := 0
  remoteQuota : Nat := 0
  /-- the block size the node declared when it joined -/
  blk : Option Nat := none
  txCells : Nat := 0
  rxCells : Nat := 0
  /-- cells sent to the node in the present segment, in this node's block (R345) -/
  segCells : Nat := 0
deriving DecidableEq, Repr

/-- An LNK_GRANT entry (Table 14.7). -/
structure LnkGrant where
  en : Bool := false
  obs : Bool := false
  act : Bool := false
  rnode : Nat := 0
  rsag : Nat := 0
  lsag : Nat := 0
  plo : Nat := 0
  phi : Nat := 0
deriving DecidableEq, Repr

/-- A reservation that a remote issuer's admission holds here (R360). -/
structure LnkResv where
  src : Nat
  sag : Nat
  sq : Nat
  depth : Nat
  cells : Nat
  ports : List (Nat × Nat)
deriving DecidableEq, Repr

/-- A message waiting for slots, by rank (R347). -/
structure LnkMsg where
  rank : Nat
  cells : List Cell
deriving DecidableEq, Repr

/-- A remote CCW that this node executes for another (R357, R358); its port operation stands in the subchannel store under a
number of the model's own, `sch`, 256 and above. -/
structure RemoteOp where
  src : Nat
  tag : Nat
  cls : Nat
  sch : Nat
  sag : Nat
  frame : Word
deriving DecidableEq, Repr

/-- The Uamond Link (chapter 14). -/
structure Lnk where
  en : Bool := false
  mcap : Bool := false
  mtick : Bool := false
  tsync : Bool := false
  rto : Nat := 0
  node : Nat := 0
  state : Nat := 0
  master : Bool := false
  dup : Bool := false
  oversub : Bool := false
  locked : Bool := false
  crcErr : Nat := 0
  masterNode : Nat := 0
  masterValid : Bool := false
  mchg : Nat := 0
  /-- the bypass-loop test runs or repeats (R336); a failure was reported -/
  testAt : Option Nat := none
  /-- the instant of the test that repeats a failed one -/
  retryAt : Option Nat := none
  faultRaised : Bool := false
  insertAt : Nat := 0
  east : LnkSide := {}
  west : LnkSide := {}
  pres : BitVec 128 := 0
  presAcc : BitVec 128 := 0
  presSeen : Bool := false
  generation : Nat := 0
  nextGeneration : Nat := 0
  blkStart : Nat := 0
  blkSize : Nat := 0
  nextBlkStart : Nat := 0
  nextBlkSize : Nat := 0
  /-- the segment whose cells are being counted (R345) -/
  segment : Option Nat := none
  /-- the first slot above every block -/
  ownedEnd : Nat := 1
  nextOwnedEnd : Nat := 1
  lastSync : Option Nat := none
  missedTicks : Nat := 0
  electing : Bool := false
  candidate : Bool := false
  runSince : Nat := 0
  masterStime : DWord := 0
  wrapWest : Nat := 0xFF
  wrapEast : Nat := 0xFF
  wrapped : Bool := false
  imgCells : Nat := 0
  imgSag : Nat := 0
  imgOff : Nat := 0
  peers : Store LnkPeer := []
  grants : Store LnkGrant := []
  resvs : List LnkResv := []
  outA : List LnkMsg := []
  outB : List LnkMsg := []
  slotOutA : Option Cell := none
  slotOutB : Option Cell := none
  remotes : List RemoteOp := []
  /-- control messages that wait to leave, each with its destination (R346, R360) -/
  mailOut : List (Nat × MailMsg) := []
  seqs : Store Nat := []
deriving DecidableEq, Repr

/-! ### Repair and health -/

/-- A physical unit (R391). -/
inductive UnitState where
  | active | spare | testing | retired
deriving DecidableEq, Repr

/-- A REPAIR entry of a unit: `logical` 0xFF = none. -/
structure UnitInfo where
  logical : Nat := 0xFF
  state : UnitState := .spare
  factory : Bool := false
  tested : Bool := true
  tests : Nat := 0
  faults : Nat := 0
  testFrame : Nat := 0
  slow : Nat := 0
  spareSince : Nat := 0
  /-- the logical number it served last (Table 15.7); 0xFFFF for none -/
  last : Nat := 0xFFFF
  ageWarned : Bool := false
deriving DecidableEq, Repr

/-- A local-store subarray (R391). -/
structure Subarray where
  spares : Nat := 2
  factoryUsed : Nat := 0
  retired : Nat := 0
  corrected : Nat := 0
deriving DecidableEq, Repr

/-- Health and repair (chapter 15). -/
structure Health where
  units : Store UnitInfo := []
  subs : Store Subarray := []
  rotHalted : Bool := false
  /-- the frame whose rotation has been looked at (R375) -/
  rotFrame : Option Word := none
  /-- the instant of the latest fault migration (R376) -/
  faultAt : Option Nat := none
  failMap : BitVec 6 := 0
  failedCps : List Nat := []
  /-- margins are shown once bisque has set them (R393) -/
  marginsSet : Bool := false
  tempNow : Int := 0
  tempPeak : Int := 0
  hot : Bool := false
  overTemp : Bool := false
  voltSel : Nat := 0
  rails : Store Nat := []
  vflt : BitVec 9 := 0
  vout : BitVec 9 := 0
  lcorr : Nat := 0
  luncorr : Nat := 0
  scrubs : Nat := 0
  rotDis : Bool := false
  twarn : Int := 100
  ageWarn : Nat := 30
  recSeq : Nat := 0
  recBuf : List (List Byte) := []
  recLost : Nat := 0
  log : Store (List Byte) := []
  engines : List Nat := [0, 1, 2, 3]
deriving DecidableEq, Repr

/-! ### PCI Express and the slim host port -/

/-- The device-wide PCI Express state (chapter 18). -/
structure Pcie where
  perst : Bool := true
  linkUp : Bool := false
  numVfs : Nat := 0
  vfEnable : Bool := false
  /-- the configuration registers written so far, by routing offset -/
  cfg : Store Word := []
  /-- the latest configuration reply: none = Retry Status -/
  cfgReply : Option Word := none
deriving DecidableEq, Repr

/-- A control command of the SHP in progress (R446). -/
structure ShpCtl where
  cmd : Nat
  req : List Byte
deriving DecidableEq, Repr

/-- The slim host port (R442 to R451). -/
structure Shp where
  en : Bool := false
  sag : Nat := 0
  quad : Bool := true
  active : Bool := false
  cfgErr : Bool := false
  errs : Nat := 0
  response : List Byte := []
  lastRej : Nat := 0
  error : Bool := false
  ctl : Option ShpCtl := none
  ctlDone : Bool := false
  ctlStatus : Status := .ok
  ctlInfo : BitVec 16 := 0
  cdepth : Nat := 0
  jdepth : Nat := 0
  cp : Nat := 0xFF
  mask : BitVec 8 := 0
  qresetting : Bool := false
  /-- submitted entries not yet fetched, in SUBMIT order -/
  waiting : List (List Byte) := []
  entries : List Entry := []
  comps : List (List Byte) := []
  events : List (List Byte) := []
  evLost : Nat := 0
deriving DecidableEq, Repr

/-! ### The whole -/

/-- The tables that only hold what was written: PORT, PORT_TIMING and SAFE words, by TBL_ADDR (R209, R402, R428). -/
structure Tables where
  port : Store Word := []
  timing : Store Word := []
  safe : Store Word := []
deriving DecidableEq, Repr

/-- The state of the block. -/
structure State where
  /-- the commands that wait, first in first out -/
  pending : List Instr := []
  /-- nanoseconds of the station clock since PORST_N was released, and STIME (R28) -/
  clk : Nat := 0
  stime : DWord := 0
  kiln : Kiln := {}
  acct : Store CpAcct := []
  image : InputImage := {}
  stage : StageImage := {}
  frozen : StageImage := {}
  msp : Msp := {}
  dev : Dev := {}
  power : Power := {}
  pins : Pins := {}
  sags : Store Saggar := [(0, { en := true })]
  ls : LocalStore := {}
  sqs : Store Sq := []
  cqs : Store Cq := []
  fetch : FetchRound := {}
  fns : Store Fn := []
  msix : Store Msix := []
  path : List Posted := []
  reads : List HostRead := []
  schs : Store Sch := []
  autos : Store (Option Auto) := []
  admitted : List Admitted := []
  bms : Store Bm := []
  tables : Tables := {}
  ports : Store Port := []
  gpio : Gpio := {}
  pwms : Store Pwm := []
  dacs : Store Dac := []
  encs : Store Enc := []
  mdio : List MdioOp := []
  claims : Store ClaimGroup := []
  wms : Store Wm := []
  adc : Adc := {}
  nss : Store Ns := [(0, { exist := true, nfol := 4096 })]
  jrn : Jrn := {}
  lnk : Lnk := {}
  health : Health := {}
  pcie : Pcie := {}
  shp : Shp := {}
  /-- the model's own counters: entries and reads issued, dispatch order, free values drawn -/
  serial : Nat := 0
  freeCtr : Nat := 0
deriving DecidableEq, Repr

/-- The block while PORST_N is asserted, every field at its reset value (R8, R456); the values the spec does not give are
named in INVENTORY.md with their log entries. -/
def State.reset : State := {}

end Sys2Proof.Machine
end

