-- ==== Sys2Proof/Machine/Bits.lean ====
section
/-! DEFINITION. Bit-field and byte-order helpers, saturating counts, the checksums of R320 and R415, and the numbers of the
status codes and enumerations. -/

namespace Sys2Proof.Machine

/-- Bits [lo + n − 1 : lo] of a word as a number. -/
def fld {w : Nat} (x : BitVec w) (lo n : Nat) : Nat := (x.toNat >>> lo) % 2 ^ n

/-- Bit `i` of a word. -/
def bit {w : Nat} (x : BitVec w) (i : Nat) : Bool := x.getLsbD i

/-- The value `v` placed at bit `lo`, in a 32-bit word. -/
def put (lo v : Nat) : Word := BitVec.ofNat 32 (v <<< lo)

/-- A flag placed at bit `lo`. -/
def putB (lo : Nat) (b : Bool) : Word := if b then BitVec.ofNat 32 (1 <<< lo) else 0

/-- The number of a flag. -/
def b2n (b : Bool) : Nat := if b then 1 else 0

/-- Set bit `i` of `x` to `b`. -/
def setBit {w : Nat} (x : BitVec w) (i : Nat) (b : Bool) : BitVec w :=
  if b then x ||| BitVec.ofNat w (1 <<< i) else x &&& ~~~ BitVec.ofNat w (1 <<< i)

/-- A 32-bit word from a number. -/
def w32 (n : Nat) : Word := BitVec.ofNat 32 n

/-- Add `k` to a count that saturates at `top`. -/
def satAdd (top n k : Nat) : Nat := min top (n + k)

/-- Count one, saturating at 255. -/
def sat8 (n : Nat) : Nat := satAdd 255 n 1

/-- Count one, saturating at 65,535. -/
def sat16 (n : Nat) : Nat := satAdd 65535 n 1

/-- Count one, saturating at 2^32 − 1. -/
def sat32 (n : Nat) : Nat := satAdd 4294967295 n 1

/-- Division rounded up. -/
def ceilDiv (a b : Nat) : Nat := if b = 0 then 0 else (a + b - 1) / b

/-- The `n` little-endian bytes of a number (R4). -/
def leBytes : Nat → Nat → List Byte
  | 0, _ => []
  | n + 1, v => BitVec.ofNat 8 v :: leBytes n (v / 256)

/-- The number that little-endian bytes spell (R4). -/
def leNat : List Byte → Nat
  | [] => 0
  | b :: rest => b.toNat + 256 * leNat rest

/-- `n` bytes of `bs` from `off`, as a little-endian number; bytes past the end count as zero. -/
def leAt (bs : List Byte) (off n : Nat) : Nat := leNat ((bs.drop off).take n)

/-- `n` zero bytes. -/
def zeros (n : Nat) : List Byte := List.replicate n 0

/-- The first `n` bytes, zero-padded to `n`. -/
def padTo (n : Nat) (bs : List Byte) : List Byte := bs.take n ++ zeros (n - bs.length)

/-- Replace the bytes of `bs` from `off` on by `new`, keeping the length. -/
def patch (bs : List Byte) (off : Nat) (new : List Byte) : List Byte :=
  (bs.take off ++ new ++ bs.drop (off + new.length)).take bs.length

/-- Are all the bytes zero? -/
def allZero (bs : List Byte) : Bool := bs.all fun b => b == 0

/-! ### Checksums -/

/-- One bit of the CRC-8 of R415: shift out the top bit, fold in x^8 + x^2 + x + 1. -/
def crc8Bits : Nat → BitVec 8 → BitVec 8
  | 0, c => c
  | n + 1, c => crc8Bits n (if c.getLsbD 7 then (c <<< 1) ^^^ 0x07 else c <<< 1)

/-- The CRC-8 of R415: polynomial 0x07, initial value 0, most significant bit first. -/
def crc8 (bs : List Byte) : Byte := bs.foldl (fun c b => crc8Bits 8 (c ^^^ b)) 0

/-- One bit of a reflected 32-bit CRC. -/
def crc32Bits : Nat → Word → Word
  | 0, c => c
  | n + 1, c => crc32Bits n (if c.getLsbD 0 then (c >>> 1) ^^^ 0xEDB88320 else c >>> 1)

/-- The CRC-32 of R320: reflected polynomial 0xEDB8_8320, initial and final 0xFFFF_FFFF. -/
def crc32 (bs : List Byte) : Word :=
  ~~~ bs.foldl (fun c b => crc32Bits 8 (c ^^^ b.zeroExtend 32)) 0xFFFFFFFF

/-- One bit of the Modbus CRC. -/
def crc16Bits : Nat → BitVec 16 → BitVec 16
  | 0, c => c
  | n + 1, c => crc16Bits n (if c.getLsbD 0 then (c >>> 1) ^^^ 0xA001 else c >>> 1)

/-- The Modbus RTU CRC-16 of R225: polynomial 0xA001 reflected, initial value 0xFFFF. -/
def crc16 (bs : List Byte) : BitVec 16 :=
  bs.foldl (fun c b => crc16Bits 8 (c ^^^ b.zeroExtend 16)) 0xFFFF

/-! ### Numbers of enumerations -/

/-- Table 5.11. -/
def Status.code : Status → Nat
  | .ok => 0x0000 | .lengthMismatch => 0x0100 | .portError => 0x0101 | .portTimeout => 0x0102 | .claimWatchdog => 0x0110
  | .programCheck => 0x0200 | .protectionCheck => 0x0201 | .addressCheck => 0x0202 | .ccwWatchdog => 0x0203
  | .dataIntegrity => 0x0204 | .aborted => 0x0300 | .halted => 0x0301
  | .refusedDeadline => 0x0400 | .refusedBudget => 0x0401 | .refusedResource => 0x0402 | .refusedRights => 0x0403
  | .jrnOutOfRange => 0x0500 | .jrnSealed => 0x0501 | .jrnFull => 0x0502 | .jrnChainMismatch => 0x0503
  | .jrnZeroing => 0x0504 | .repairExhausted => 0x0600 | .linkUnreachable => 0x0601 | .migratedAbort => 0x0602
  | .abortCaught => 0x0700 | .abortMissed => 0x0701 | .abortNotFound => 0x0702 | .malformedEntry => 0x0800

/-- Table 5.11 read backwards, for the statuses a remote response carries (R357). -/
def Status.ofCode (n : Nat) : Status :=
  (([.ok, .lengthMismatch, .portError, .portTimeout, .claimWatchdog, .programCheck, .protectionCheck, .addressCheck,
     .ccwWatchdog, .dataIntegrity, .aborted, .halted, .refusedDeadline, .refusedBudget, .refusedResource, .refusedRights,
     .jrnOutOfRange, .jrnSealed, .jrnFull, .jrnChainMismatch, .jrnZeroing, .repairExhausted, .linkUnreachable,
     .migratedAbort, .abortCaught, .abortMissed, .abortNotFound, .malformedEntry] : List Status).find?
      fun st => st.code == n).getD .portError

/-- Table 4.1. -/
def SchState.num : SchState → Nat
  | .idle => 0 | .active => 1 | .waiting => 2 | .suspended => 3 | .parked => 4 | .armed => 5 | .halting => 6

/-- Table 6.8. -/
def SqState.num : SqState → Nat
  | .free => 0 | .active => 1 | .error => 2 | .resetting => 3 | .deleting => 4 | .stopped => 5

/-- Table 6.3 CLASS. -/
def Cls.num : Cls → Nat
  | .g => 0 | .w => 1 | .b => 2

/-- The class a CLASS byte names. -/
def Cls.ofNum : Nat → Cls
  | 0 => .g | 1 => .w | _ => .b

/-- Table 12.1. -/
def NsType.num : NsType → Nat
  | .linear => 0 | .ring => 1 | .sealed => 2

/-- The type a TYPE byte names. -/
def NsType.ofNum : Nat → NsType
  | 0 => .linear | 1 => .ring | _ => .sealed

/-- Table 8.5. -/
def BmState.num : BmState → Nat
  | .idle => 0 | .run => 1 | .aborting => 2 | .stalled => 3

/-- R391. -/
def UnitState.num : UnitState → Nat
  | .active => 0 | .spare => 1 | .testing => 2 | .retired => 3

/-- The CCW that 16 bytes spell (Table 3.1). -/
def Ccw.ofBytes (bs : List Byte) : Ccw :=
  { op := BitVec.ofNat 8 (leAt bs 0 1), flags := BitVec.ofNat 8 (leAt bs 1 1), tgt := BitVec.ofNat 16 (leAt bs 2 2),
    count := w32 (leAt bs 4 4), addr := BitVec.ofNat 64 (leAt bs 8 8) }

/-- A frame number is in the past of frame `f` (R32). -/
def inPast (d f : Word) : Bool := decide (2147483648 ≤ (d - f).toNat)

end Sys2Proof.Machine
end

