-- ==== Sys2Proof/Machine/Fleost.lean ====
section
/-! DEFINITION. Fleost coding (chapter 13): the coding word (R315, R316), the coder of F0, F1 and F2 with its Rice codes (R318,
R322 to R325), the checker lane (R326), and the block with its header (R319, R320, R327). -/

namespace Sys2Proof.Machine

/-! ### The coding word (Table 13.2) -/

def fMode (c : Word) : Nat := fld c 0 2
/-- The sample width in bits. -/
def fW (c : Word) : Nat := 8 * (fld c 2 2 + 1)
def fSgn (c : Word) : Bool := bit c 4
def fNch (c : Word) : Nat := fld c 5 4 + 1
def fOrder (c : Word) : Nat := fld c 9 2
def fK (c : Word) : Nat := fld c 12 4
/-- E of F1: 2^K − 1; 0 for F0. -/
def fE (c : Word) : Nat := if fMode c = 2 then 2 ^ fK c - 1 else 0
def fD (c : Word) : Nat := fld c 12 12
def fT (c : Word) : Nat := 16 * (fld c 24 8 + 1)

/-- The word obeys Table 13.2 for coded data. -/
def codingOk (c : Word) : Bool :=
  fMode c != 0 && !bit c 11 &&
    (if fMode c = 1 then fld c 12 20 == 0
     else if fMode c = 2 then decide (1 ≤ fK c ∧ fK c ≤ min 12 (fW c - 1)) && fld c 16 16 == 0
     else fOrder c == 0)

/-- The limits of R316 on the number of samples. -/
def samplesOk (c : Word) (ns : Nat) : Bool := decide (256 ≤ ns ∧ ns ≤ 4096) && decide (fNch c * ns ≤ 4096)

/-- The bytes of the input: nch·NS·b. -/
def rawLen (c : Word) (ns : Nat) : Nat := fNch c * ns * (fW c / 8)

/-! ### Internal values (R318) -/

def limLo (w : Nat) : Int := -((2 : Int) ^ (w - 1))
def limHi (w : Nat) : Int := (2 : Int) ^ (w - 1) - 1

/-- Clamp to the range of the internal values. -/
def clampV (w : Nat) (v : Int) : Int := if v < limLo w then limLo w else if limHi w < v then limHi w else v

/-- The internal value of a sample's bits, and the bits of an internal value. -/
def toV (c : Word) (x : Nat) : Int :=
  let w := fW c
  if fSgn c then (if 2 ^ (w - 1) ≤ x then (x : Int) - (2 : Int) ^ w else (x : Int)) else (x : Int) - (2 : Int) ^ (w - 1)
def ofV (c : Word) (v : Int) : Nat :=
  let w := fW c
  ((if fSgn c then v else v + (2 : Int) ^ (w - 1)) % ((2 : Int) ^ w)).toNat

/-- Cut the input into `n` internal values. -/
def valuesOf (c : Word) : Nat → List Byte → List Int
  | 0, _ => []
  | n + 1, bs => toV c (leNat (bs.take (fW c / 8))) :: valuesOf c n (bs.drop (fW c / 8))

/-- The bytes of reconstructed values (R320). -/
def bytesOf (c : Word) (vs : List Int) : List Byte := vs.flatMap fun v => leBytes (fW c / 8) (ofV c v)

/-! ### Bits and Rice codes (R321, R324) -/

/-- A field of `n` bits, most significant first. -/
def bitsOf : Nat → Nat → List Bool
  | 0, _ => []
  | n + 1, v => v.testBit n :: bitsOf n v

/-- Pack bits into bytes, from bit 7 down; the last byte is filled with zeros. `k` bounds the bytes. -/
def packBits : Nat → List Bool → List Byte
  | 0, _ => []
  | k + 1, bs =>
    if bs.isEmpty then []
    else BitVec.ofNat 8 ((bs.take 8 ++ List.replicate (8 - bs.length) false).foldl (fun v b => 2 * v + b2n b) 0) :: packBits k (bs.drop 8)

/-- The two counters of a section. -/
structure RiceCtr where
  a : Nat := 16
  n : Nat := 1
deriving DecidableEq, Repr

/-- The parameter k of the next code. -/
def riceK (w : Nat) (r : RiceCtr) : Nat := ((List.range (w + 1)).find? fun k => decide (r.a ≤ r.n * 2 ^ k)).getD w

/-- The counters after a code. -/
def riceNext (r : RiceCtr) (u : Nat) : RiceCtr :=
  let a := r.a + u
  let n := r.n + 1
  if n = 64 then { a := a / 2, n := 32 } else { a, n }

/-- The Rice code of `u`, and the counters after it. -/
def rice (w : Nat) (r : RiceCtr) (u : Nat) : List Bool × RiceCtr :=
  let k := riceK w r
  let m := u / 2 ^ k
  let code := if m < 24 then List.replicate m false ++ [true] ++ bitsOf k (u % 2 ^ k)
    else List.replicate 24 false ++ bitsOf (w + 1) u
  (code, riceNext r u)

/-- The mapping of a signed residual (R323). -/
def zigzag (q : Int) : Nat := if 0 ≤ q then (2 * q).toNat else (-2 * q - 1).toNat

/-- w bits of two's complement. -/
def twos (w : Nat) (v : Int) : List Bool := bitsOf w ((v % ((2 : Int) ^ w)).toNat)

/-! ### F0 and F1 (R322, R323) -/

/-- The predictor, from the reconstructed values latest first. -/
def predict (w order : Nat) (h : List Int) : Int :=
  let x (i : Nat) := h.getD i 0
  clampV w (if order = 0 then 0 else if order = 1 then x 0 else if order = 2 then 2 * x 0 - x 1 else 3 * x 0 - 3 * x 1 + x 2)

/-- The quantized residual. -/
def residual (w e : Nat) (v p : Int) : Int :=
  let r := v - p
  let m := r.natAbs
  let k := if v = limLo w ∨ v = limHi w then ceilDiv m (2 * e + 1) else (m + e) / (2 * e + 1)
  if r < 0 then -(k : Int) else (k : Int)

/-- Code the values after the warm-up: bits, and reconstructed values. -/
def codeF1 (w e order : Nat) (h : List Int) (r : RiceCtr) : List Int → List Bool × List Int
  | [] => ([], [])
  | v :: rest =>
    let p := predict w order h
    let q := residual w e v p
    let vh := clampV w (p + q * ((2 * e + 1 : Nat) : Int))
    let (b, r) := rice w r (zigzag q)
    let (bs, vs) := codeF1 w e order (vh :: h.take 2) r rest
    (b ++ bs, vh :: vs)

/-- A channel section of F0 or F1. -/
def sectionF1 (c : Word) (vs : List Int) : List Bool × List Int :=
  let w := fW c
  let k := fOrder c
  let warm := vs.take k
  let (bs, vh) := codeF1 w (fE c) k warm.reverse {} (vs.drop k)
  (warm.flatMap (twos w) ++ bs, warm ++ vh)

/-! ### F2 (R325) -/

/-- GB: the smallest value with 2^GB ≥ T. -/
def gapBits (t : Nat) : Nat := ((List.range 14).find? fun g => decide (t ≤ 2 ^ g)).getD 13

/-- Code the samples after the first: the number stored, their bits, the reconstructed values. `g` samples since the latest
stored one. -/
def codeF2 (w d t : Nat) (g : Nat) (vs : Int) (r : RiceCtr) : List Int → Nat × List Bool × List Int
  | [] => (0, [], [])
  | v :: rest =>
    if d < (v - vs).natAbs ∨ t ≤ g + 1 then
      let (b, r) := rice w r (zigzag (v - vs))
      let (p, bs, xs) := codeF2 w d t 0 v r rest
      (p + 1, bitsOf (gapBits t) g ++ b ++ bs, v :: xs)
    else
      let (p, bs, xs) := codeF2 w d t (g + 1) vs r rest
      (p, bs, vs :: xs)

/-- A channel section of F2. -/
def sectionF2 (c : Word) (vs : List Int) : List Bool × List Int :=
  let w := fW c
  match vs with
  | [] => ([], [])
  | v :: rest =>
    let (p, bs, xs) := codeF2 w (fD c) (fT c) 0 v {} rest
    (bitsOf 13 (p + 1) ++ twos w v ++ bs, v :: xs)

/-- A channel section. -/
def sectionOf (c : Word) (vs : List Int) : List Bool × List Int := if fMode c = 3 then sectionF2 c vs else sectionF1 c vs

/-! ### The checker lane (R326): decoding as section 13.10 gives it -/

/-- The bits of bytes, from bit 7 down. -/
def unpackBits (bs : List Byte) : List Bool := bs.flatMap fun b => bitsOf 8 b.toNat

/-- A field of `n` bits, and the bits after it. -/
def takeBits : Nat → Nat → List Bool → Nat × List Bool
  | 0, v, bs => (v, bs)
  | _ + 1, v, [] => (v, [])
  | n + 1, v, b :: bs => takeBits n (2 * v + b2n b) bs

/-- A field of two's complement. -/
def takeTwos (w : Nat) (bs : List Bool) : Int × List Bool :=
  let (v, bs) := takeBits w 0 bs
  (if 2 ^ (w - 1) ≤ v then (v : Int) - (2 : Int) ^ w else (v : Int), bs)

/-- Zero bits up to a 1 bit or to 24 of them; the 1 bit is consumed. -/
def takeZeros : Nat → List Bool → Nat × List Bool
  | 0, bs => (0, bs)
  | _ + 1, [] => (0, [])
  | _ + 1, true :: bs => (0, bs)
  | n + 1, false :: bs => let (m, bs) := takeZeros n bs; (m + 1, bs)

/-- Read a Rice code. -/
def takeRice (w : Nat) (r : RiceCtr) (bs : List Bool) : Nat × RiceCtr × List Bool :=
  let k := riceK w r
  let (m, bs) := takeZeros 24 bs
  let (u, bs) := if m = 24 then takeBits (w + 1) 0 bs else takeBits k m bs
  (u, riceNext r u, bs)

/-- The signed value of a mapped residual. -/
def unzigzag (u : Nat) : Int := if u % 2 = 0 then ((u / 2 : Nat) : Int) else -(((u + 1) / 2 : Nat) : Int)

/-- Decode warm-up values. -/
def takeWarm (w : Nat) : Nat → List Bool → List Int × List Bool
  | 0, bs => ([], bs)
  | n + 1, bs => let (v, bs) := takeTwos w bs; let (vs, bs) := takeWarm w n bs; (v :: vs, bs)

/-- Decode `n` predicted values. -/
def decodeF1 (w e order : Nat) : Nat → List Int → RiceCtr → List Bool → List Int × List Bool
  | 0, _, _, bs => ([], bs)
  | n + 1, h, r, bs =>
    let (u, r, bs) := takeRice w r bs
    let v := clampV w (predict w order h + unzigzag u * ((2 * e + 1 : Nat) : Int))
    let (vs, bs) := decodeF1 w e order n (v :: h.take 2) r bs
    (v :: vs, bs)

/-- Decode `p` later stored points of F2: each value is held up to the next; `true` marks a stored point. -/
def decodeF2 (w t : Nat) : Nat → Int → RiceCtr → List Bool → List (Int × Bool) × List Bool
  | 0, _, _, bs => ([], bs)
  | p + 1, v, r, bs =>
    let (g, bs) := takeBits (gapBits t) 0 bs
    let (u, r, bs) := takeRice w r bs
    let x := v + unzigzag u
    let (xs, bs) := decodeF2 w t p x r bs
    (List.replicate g (v, false) ++ (x, true) :: xs, bs)

/-- Decode a section of `ns` samples; the samples after the last stored point hold its value. -/
def decodeSection (c : Word) (ns : Nat) (bs : List Bool) : List (Int × Bool) × List Bool :=
  let w := fW c
  if fMode c = 3 then
    let (p, bs) := takeBits 13 0 bs
    let (v, bs) := takeTwos w bs
    let (xs, bs) := decodeF2 w (fT c) (p - 1) v {} bs
    let xs := (v, true) :: xs
    (xs ++ List.replicate (ns - xs.length) (((xs.getLast?).getD (v, true)).1, false), bs)
  else
    let (warm, bs) := takeWarm w (fOrder c) bs
    let (vs, bs) := decodeF1 w (fE c) (fOrder c) (ns - fOrder c) warm.reverse {} bs
    ((warm ++ vs).map fun v => (v, false), bs)

/-- The guarantee of Table 13.1 for one sample. -/
def sampleOk (c : Word) (v : Int) (x : Int × Bool) : Bool :=
  let far := (x.1 - v).natAbs
  if fMode c = 3 then decide (far ≤ fD c) && (!x.2 || x.1 == v)
  else decide (far ≤ fE c) && (!(v == limLo (fW c) || v == limHi (fW c)) || x.1 == v)

/-- The checker on a section of `k` bits: the values it reconstructs, and whether it accepts them. -/
def checkSection (c : Word) (vs : List Int) (bytes : List Byte) (k : Nat) : List Int × Bool :=
  let (xs, rest) := decodeSection c vs.length (unpackBits bytes)
  (xs.map Prod.fst,
    decide (rest.length + k = 8 * bytes.length ∧ xs.length = vs.length) && (vs.zip xs).all fun p => sampleOk c p.1 p.2)

/-- The sections of all channels: payload, the values the checker reconstructs, in order, and whether it accepts every section. -/
def sections (c : Word) (ns : Nat) : Nat → List Int → List Byte × List Int × Bool
  | 0, _ => ([], [], true)
  | n + 1, vs =>
    let bits := (sectionOf c (vs.take ns)).1
    let bytes := packBits (bits.length / 8 + 1) bits
    let (xs, ok) := checkSection c (vs.take ns) bytes bits.length
    let (ps, ys, oks) := sections c ns n (vs.drop ns)
    (bytes ++ ps, xs ++ ys, ok && oks)

/-! ### The block (R319, R327) -/

/-- A coded block. -/
structure Block where
  header : List Byte
  payload : List Byte
  raw : Bool
deriving DecidableEq, Repr

/-- Code a block from its input in the layout of R317 for an APPEND; a block that the checker rejects, or that does not shrink, is
stored raw. `failed`: the engine's fault has made its checker reject the block. The CRC runs over the checker's reconstruction. -/
def codeBlock (c : Word) (ns : Nat) (stime : DWord) (failed : Bool) (input : List Byte) : Block :=
  let (coded, recon, ok) := sections c ns (fNch c) (valuesOf c (fNch c * ns) input)
  let rejected := failed || !ok
  let raw := rejected || decide (rawLen c ns ≤ coded.length)
  let payload := if raw then input else coded
  let crc := crc32 (if raw then input else bytesOf c recon)
  let bound := if raw then 0 else if fMode c = 3 then fD c else fE c
  { header := leBytes 4 c.toNat ++ leBytes 1 (b2n raw + 2 * b2n rejected) ++ [1] ++ leBytes 2 ns ++ leBytes 8 stime.toNat ++
      leBytes 4 payload.length ++ leBytes 4 crc.toNat ++ leBytes 4 bound ++ zeros 4
    payload, raw }

end Sys2Proof.Machine
end

