-- ==== Sys2Proof/Config.lean ====
section
/-! DEFINITION. What the spec leaves open: free values, which nothing in Lean can evaluate, and the constants that a part
fixes. A draw applies the free value to a plain counter of the state, so that two draws need not agree (log entry 3). -/

namespace Sys2Proof.Config

/-- A free 64-bit value, one for each draw. -/
opaque freeValue : Nat → BitVec 64

/-- A free yes or no, one answer for each draw: which way an analogue input inside the decision band resolves (R260), whether a
slot exposed by a tail that moved back is fetched (R115), and the other choices that log entry 83 lists. -/
opaque freeBand : Nat → Bool

/-- Whether A leading B counts an encoder in QUAD mode up; the spec fixes no sense (R239). -/
opaque aLeadsUp : Bool

/-- The supply that a cabinet gives VIOH: 3.3 V, or 1.8 V (Table 20.6). -/
opaque vioh33 : Bool

/-- What the tests of a bisque find (R374, Table 15.2): the units that fail, by REPAIR entry, and how; slowdowns measured, in 0.1 %;
rows of local store that fail the march test, and subarrays of which a spare row fails it. -/
structure BisqueFinds where
  failed : List (Nat × UnitTest) := []
  slow : List (Nat × Nat) := []
  rows : List Nat := []
  spareRows : List Nat := []
deriving DecidableEq, Repr, Inhabited

/-- What the tests of a bisque find in the silicon: free, one answer for each bisque (log entry 10). -/
opaque bisqueFinds : Nat → BisqueFinds

/-- The spare folios a part holds at shipment: the reserve of 20,971 (R309), of which a part may have used some. -/
def spareFolios : Nat := 20971

end Sys2Proof.Config
end

