-- ==== Sys2Proof/Machine/Store.lean ====
section
/-! DEFINITION. The operations on sparse stores: read one key with the value an unlisted key reads as, and write one key,
keeping the canonical form (keys strictly rising, no entry equal to the default). -/

namespace Sys2Proof

/-- What key `k` holds; an unlisted key reads `d`. -/
def Store.get {α : Type} (m : Store α) (d : α) (k : Nat) : α :=
  match m with
  | [] => d
  | (j, v) :: rest => if j = k then v else Store.get rest d k

/-- The store without key `k`. -/
def Store.del {α : Type} (m : Store α) (k : Nat) : Store α := m.filter fun e => e.1 != k

/-- Put a new key in its place. -/
def Store.ins {α : Type} (m : Store α) (k : Nat) (v : α) : Store α :=
  match m with
  | [] => [(k, v)]
  | (j, u) :: rest => if j < k then (j, u) :: Store.ins rest k v else (k, v) :: (j, u) :: rest

/-- Put `v` at key `k`: what was listed there goes, and a value equal to the default is not listed. -/
def Store.set {α : Type} [DecidableEq α] (m : Store α) (d : α) (k : Nat) (v : α) : Store α :=
  if v = d then m.del k else (m.del k).ins k v

/-- The keys rise strictly from above `lo`, and no entry equals the default. -/
def Store.wfFrom {α : Type} [DecidableEq α] (m : Store α) (d : α) (lo : Nat) : Bool :=
  match m with
  | [] => true
  | (j, v) :: rest => decide (lo ≤ j) && !decide (v = d) && Store.wfFrom rest d (j + 1)

/-- The canonical form of a store with default `d`. -/
def Store.wf {α : Type} [DecidableEq α] (m : Store α) (d : α) : Bool := Store.wfFrom m d 0

/-- Put back every key below `n` at its default. -/
def Store.clearRange {α : Type} (m : Store α) (lo n : Nat) : Store α :=
  m.filter fun e => !(decide (lo ≤ e.1) && decide (e.1 < lo + n))

/-- Write consecutive values from key `k` on. -/
def Store.setList {α : Type} [DecidableEq α] (m : Store α) (d : α) (k : Nat) (vs : List α) : Store α :=
  match vs with
  | [] => m
  | v :: rest => Store.setList (Store.set m d k v) d (k + 1) rest

/-- Read `n` consecutive values from key `k` on. -/
def Store.getList {α : Type} (m : Store α) (d : α) (k : Nat) : Nat → List α
  | 0 => []
  | n + 1 => Store.get m d k :: Store.getList m d (k + 1) n

end Sys2Proof
end

