-- ==== Sys2Proof/WellFormed.lean ====
section
/-! DEFINITION. Well-formed commands: every resource number an operand names is one of Table 1.4 (R11), and every operand
that the interface itself bounds is within its bounds. -/

namespace Sys2Proof

/-- The queue exists (Table 1.4). -/
def QueueId.wf : QueueId → Bool
  | .sq n => decide (n < 256)
  | .admin fn => decide (fn < 64)
  | .shp => true

/-- The register is one an interface can address (R418, R437). -/
def RegTarget.wf : RegTarget → Bool
  | .msp addr => decide (addr < 128)
  | .bar0 fn off _ => decide (fn < 64) && decide (off < 4194304)

/-- The resource exists (Table 1.4). -/
def ZeroObj.wf : ZeroObj → Bool
  | .page phys => decide (phys < 4096)
  | .fifo port => decide (port < 512)
  | .prefetch sq => decide (sq < 256)
  | .bmSet ch => decide (ch < 16)
  | .ns nsid => decide (nsid < 1024)

/-- The cell fits its format (R343, Table 14.4). -/
def Cell.wf (c : Cell) : Bool :=
  decide (c.type < 16) && decide (c.src < 256) && decide (c.dst < 256) && decide (c.tag < 256) && decide (c.index < 65536)

/-- The cell that arrives fits its format. -/
def SlotIn.wf : SlotIn → Bool
  | .cell c => c.wf
  | .empty => true
  | .badCrc => true

/-- The function exists and the configuration offset is within 4 KiB (R431). -/
def CfgReq.wf : CfgReq → Bool
  | .read fn off => decide (fn < 64) && decide (off < 4096)
  | .write fn off _ => decide (fn < 64) && decide (off < 4096)

/-- What a refused transport layer packet names exists. -/
def BadTlp.wf : BadTlp → Bool
  | .poisonedBar0Write fn => decide (fn < 64)
  | .malformed => true
  | .ecrc => true
  | .unsupported => true

/-- The numbers of port operations: those of the subchannels, 0 to 255, and above them one for each tag of each node whose
remote CCWs this node carries out (R357; the numbering is the model's own, log entry 2). -/
def opLimit : Nat := 256 + 65536 * 128

/-- The command's operands name resources that exist (R11). -/
def Instr.wf : Instr → Bool
  | .frameTick | .commitSlice | .sliceStart | .frameOverrunWdgBite | .tickInEdge _ | .tickHoldover | .runStart _
  | .runStop _ | .frameZeroOpen | .kilnPerWrite _ | .kilnSrcWrite _ | .stimeAdj _ | .stimeLoRead | .mspRead _ _
  | .mspWrite _ | .mspRepeat _ | .tblDataWrite _ | .tblDataRead | .tblSelWrite _ | .commit _ | .discard _
  | .tableCheckEnd | .lockSet _ | .lockClear _ | .warm _ | .evtCauseRead | .wdgKick _ | .wdgEnable _ | .deviceWdgBite
  | .apply _ | .relSup _ | .relOvr _ | .relDwdg _ | .wmClr _ | .wake _ | .shpCtlWrite _ | .lnkEnable _ | .lnkDisable _
  | .retrain _ | .hostReadReturn _ _ | .completionTimeout _ | .mdioDone _ | .gpioSnapshot _ | .converterSample _
  | .converterRecord | .folioOpEnd _ _ _ | .jps1Entry | .jps2Entry | .jpsExitDone | .bypassTestEnd _
  | .sideTrainingStart _ | .sideUp _ | .sideDown _ | .linkWrap _ _ | .linkUnwrap _ | .sync _ _ | .train _ _ _ _ _
  | .mail _ | .masterSelfStart | .rotation | .rotationTestEnd _ _ _ | .temp _
  | .repairRecordWrite | .porstNAssert | .porstNRelease | .warmNAssert | .warmNRelease | .testMode _ | .brownOut | .bisqueEnd
  | .pePerstNAssert | .pePerstNRelease | .dlDown | .shpStatus _ | .shpSubmit _ | .shpComplete _
  | .shpEvents _ | .lsWrite _ | .lsRead _ | .shpHeartbeat _ | .shpSetup _ | .shpPages _ | .shpNs _ | .shpQreset _
  | .shpIdentify _ | .shpControlDone | .dlUp | .sideTrainingRetry _ | .bypassTestRepeat | .tickOutPulseEnd
  | .jtagInstruction _ => true
  | .registerWrite t _ => t.wf
  | .admCtlEnable fn => decide (fn < 64)
  | .admCtlDisable fn => decide (fn < 64)
  | .sqTailDoorbell fn sq _ _ => decide (fn < 64) && (match sq with | some k => decide (k < 256) | none => true)
  | .cqHeadDoorbell fn cq _ _ => decide (fn < 64) && (match cq with | some k => decide (k < 256) | none => true)
  | .evqHeadDoorbell fn _ _ => decide (fn < 64)
  | .heartbeatDoorbell fn => decide (fn < 64)
  | .heartbeatLost sag => decide (sag < 64)
  | .nudge fn sch => decide (fn < 64) && decide (sch < 256)
  | .msixUnmask fn vec => decide (fn < 64) && decide (vec < 33)
  | .aggTimeExpiry cq => decide (cq < 256)
  | .entryFetch q _ => q.wf
  | .start q => q.wf
  | .trg q => q.wf
  | .resume q => q.wf
  | .halt q => q.wf
  | .createCq fn => decide (fn < 64)
  | .deleteCq fn => decide (fn < 64)
  | .resetCq fn => decide (fn < 64)
  | .createSq fn => decide (fn < 64)
  | .deleteSq fn => decide (fn < 64)
  | .resetSq fn => decide (fn < 64)
  | .createEvq fn => decide (fn < 64)
  | .deleteEvq fn => decide (fn < 64)
  | .resetEvq fn => decide (fn < 64)
  | .abort fn => decide (fn < 64)
  | .allocPages fn => decide (fn < 64)
  | .freePages fn => decide (fn < 64)
  | .createNs fn => decide (fn < 64)
  | .deleteNs fn => decide (fn < 64)
  | .getFeature fn => decide (fn < 64)
  | .setFeature fn => decide (fn < 64)
  | .identify fn => decide (fn < 64)
  | .getQueue fn => decide (fn < 64)
  | .admissionQueryTimeout fn => decide (fn < 64)
  | .ccwWrite sch => decide (sch < 256)
  | .ccwRead sch => decide (sch < 256)
  | .ccwControl sch => decide (sch < 256)
  | .ccwSense sch => decide (sch < 256)
  | .ccwExchange sch => decide (sch < 256)
  | .ccwMove sch => decide (sch < 256)
  | .ccwFence sch => decide (sch < 256)
  | .ccwStage sch => decide (sch < 256)
  | .ccwSnap sch => decide (sch < 256)
  | .ccwNop sch => decide (sch < 256)
  | .ccwJump sch => decide (sch < 256)
  | .ccwTest sch => decide (sch < 256)
  | .ccwWaitt sch => decide (sch < 256)
  | .ccwWaitc sch => decide (sch < 256)
  | .ccwWaitf sch => decide (sch < 256)
  | .ccwLoop sch => decide (sch < 256)
  | .ccwSetc sch => decide (sch < 256)
  | .ccwPost sch => decide (sch < 256)
  | .ccwSignal sch => decide (sch < 256)
  | .ccwClaim sch => decide (sch < 256)
  | .ccwRelease sch => decide (sch < 256)
  | .ccwJappend sch => decide (sch < 256)
  | .ccwColophon sch => decide (sch < 256)
  | .portTransferEnd sch _ => decide (sch < opLimit)
  | .lineTurnaround port => decide (port < 512)
  | .portTimeout sch => decide (sch < opLimit)
  | .readIdleEnd sch => decide (sch < opLimit)
  | .endOfFrame port => decide (port < 512)
  | .waittExpiry sch => decide (sch < 256)
  | .waitcTrue sch => decide (sch < 256)
  | .waitcTimeout sch => decide (sch < 256)
  | .waitfDone sch => decide (sch < 256)
  | .fenceDone sch => decide (sch < 256)
  | .ccwWatchdog sch => decide (sch < 256)
  | .claimWatchdogHold group => decide (group < 16)
  | .claimWatchdogWait group slot => decide (group < 16) && decide (slot < 16)
  | .remoteTimeout sch => decide (sch < 256)
  | .portFlush sch => decide (sch < opLimit)
  | .clrerr sch => decide (sch < opLimit)
  | .i2cRecover sch => decide (sch < opLimit)
  | .breakCode sch => decide (sch < opLimit)
  | .canMb sch => decide (sch < opLimit)
  | .mdioWrite sch => decide (sch < opLimit)
  | .mdioRead sch => decide (sch < opLimit)
  | .setEdge sch => decide (sch < opLimit)
  | .phase sch => decide (sch < opLimit)
  | .preset sch => decide (sch < opLimit)
  | .clrIndex sch => decide (sch < opLimit)
  | .clrTrip sch => decide (sch < opLimit)
  | .setWin sch => decide (sch < opLimit)
  | .convReset sch => decide (sch < opLimit)
  | .byteReceived port _ _ _ => decide (port < 512)
  | .breakReceived port => decide (port < 512)
  | .canFrameReceived port _ _ _ _ => decide (port < 512)
  | .canFrameSent port _ => decide (port < 512)
  | .canWithdraw port => decide (port < 512)
  | .ethFrameReceived port _ _ _ => decide (port < 512)
  | .ethFrameSent port _ => decide (port < 512)
  | .ethAbandon port => decide (port < 512)
  | .edgeCapture pin _ => decide (pin < 64)
  | .encoderEdge enc _ _ => decide (enc < 8)
  | .index enc => decide (enc < 8)
  | .monitorSample wm _ => decide (wm < 32)
  | .guardCrossing wm _ => decide (wm < 32)
  | .bmGo ch => decide (ch < 16)
  | .bmAbort ch => decide (ch < 16)
  | .bmAbortDone ch _ => decide (ch < 16)
  | .bmDisable ch => decide (ch < 16)
  | .bmStatClear ch _ => decide (ch < 16)
  | .bmHalf ch => decide (ch < 16)
  | .bmBufferEnd ch _ => decide (ch < 16)
  | .jrnRead q => q.wf
  | .jrnWrite q => q.wf
  | .append q => q.wf
  | .jrnFlush q => q.wf
  | .zeroRange q => q.wf
  | .seal q => q.wf
  | .info q => q.wf
  | .verify q => q.wf
  | .fleostCheckEnd engine _ => decide (engine < 5)
  | .journalScrub nsid folio _ _ _ => decide (nsid < 1024) && decide (folio < 2 ^ 20)
  | .zeroingDone o => o.wf
  | .slotStart _ _ slot arrives => decide (slot < 1024) && arrives.wf
  | .image c _ => c.wf
  | .rportReq src saggar _ _ _ _ _ => decide (src < 128) && decide (saggar < 64)
  | .rportRsp src _ _ _ _ _ _ => decide (src < 128)
  | .election candidate => decide (candidate < 128)
  | .localStoreScrub unit _ => decide (unit < 2097152)
  | .processorFault cp struck => decide (cp < 32) && (struck.map fun n => decide (n < 256)).getD true
  | .bmBurstFault ch _ => decide (ch < 16)
  | .sliceFault port _ => decide (port < 512)
  | .volt rail _ => decide (rail < 9)
  | .flr fn => decide (fn < 64)
  | .d3hot fn => decide (fn < 64)
  | .vfEnable numVfs _ => decide (numVfs < 64)
  | .configRequest r => r.wf
  | .canBusError port _ _ => decide (port < 512)
  | .busOffRecoveryDone port => decide (port < 512)
  | .bar0Read fn off _ => decide (fn < 64) && decide (off < 4194304)
  | .malformedTlp t => t.wf

end Sys2Proof
end

