-- ==== Sys2Proof/Machine/Ops.lean ====
section
/-! DEFINITION. The named operations over the state: access to each resource by number, error counts, the ordered path to
the host, MSI-X messages, events and cause records, local store and its checks, and the levels of the output pins. -/

namespace Sys2Proof.Machine

/-- What a command answers. -/
abbrev Out := Host.Outcome State Fault Refusal

/-! ### Resources by number -/

def State.sag (s : State) (n : Nat) : Saggar := s.sags.get {} n
def State.setSag (s : State) (n : Nat) (x : Saggar) : State := { s with sags := s.sags.set {} n x }
def State.sq (s : State) (n : Nat) : Sq := s.sqs.get {} n
def State.setSq (s : State) (n : Nat) (x : Sq) : State := { s with sqs := s.sqs.set {} n x }
def State.cq (s : State) (n : Nat) : Cq := s.cqs.get {} n
def State.setCq (s : State) (n : Nat) (x : Cq) : State := { s with cqs := s.cqs.set {} n x }
def State.fn (s : State) (n : Nat) : Fn := s.fns.get {} n
def State.setFn (s : State) (n : Nat) (x : Fn) : State := { s with fns := s.fns.set {} n x }
def State.sch (s : State) (n : Nat) : Sch := s.schs.get {} n
def State.setSch (s : State) (n : Nat) (x : Sch) : State := { s with schs := s.schs.set {} n x }
def State.bm (s : State) (n : Nat) : Bm := s.bms.get {} n
def State.setBm (s : State) (n : Nat) (x : Bm) : State := { s with bms := s.bms.set {} n x }
def State.port (s : State) (n : Nat) : Port := s.ports.get {} n
def State.setPort (s : State) (n : Nat) (x : Port) : State := { s with ports := s.ports.set {} n x }
def State.wm (s : State) (n : Nat) : Wm := s.wms.get {} n
def State.setWm (s : State) (n : Nat) (x : Wm) : State := { s with wms := s.wms.set {} n x }
def State.ns (s : State) (n : Nat) : Ns := s.nss.get {} n
def State.setNs (s : State) (n : Nat) (x : Ns) : State := { s with nss := s.nss.set {} n x }
def State.claim (s : State) (g : Nat) : ClaimGroup := s.claims.get {} g
def State.setClaim (s : State) (g : Nat) (x : ClaimGroup) : State := { s with claims := s.claims.set {} g x }
def State.cpAcct (s : State) (n : Nat) : CpAcct := s.acct.get {} n
def State.setCpAcct (s : State) (n : Nat) (x : CpAcct) : State := { s with acct := s.acct.set {} n x }
def State.pwm (s : State) (n : Nat) : Pwm := s.pwms.get {} n
def State.setPwm (s : State) (n : Nat) (x : Pwm) : State := { s with pwms := s.pwms.set {} n x }
def State.dac (s : State) (n : Nat) : Dac := s.dacs.get {} n
def State.setDac (s : State) (n : Nat) (x : Dac) : State := { s with dacs := s.dacs.set {} n x }
def State.enc (s : State) (n : Nat) : Enc := s.encs.get {} n
def State.setEnc (s : State) (n : Nat) (x : Enc) : State := { s with encs := s.encs.set {} n x }
def State.peer (s : State) (n : Nat) : LnkPeer := s.lnk.peers.get {} n
def State.setPeer (s : State) (n : Nat) (x : LnkPeer) : State :=
  { s with lnk := { s.lnk with peers := s.lnk.peers.set {} n x } }
def State.unit (s : State) (n : Nat) : UnitInfo := s.health.units.get {} n
def State.setUnit (s : State) (n : Nat) (x : UnitInfo) : State :=
  { s with health := { s.health with units := s.health.units.set {} n x } }

def State.updSch (s : State) (n : Nat) (f : Sch → Sch) : State := s.setSch n (f (s.sch n))
def State.updSq (s : State) (n : Nat) (f : Sq → Sq) : State := s.setSq n (f (s.sq n))
def State.updCq (s : State) (n : Nat) (f : Cq → Cq) : State := s.setCq n (f (s.cq n))
def State.updFn (s : State) (n : Nat) (f : Fn → Fn) : State := s.setFn n (f (s.fn n))
def State.updSag (s : State) (n : Nat) (f : Saggar → Saggar) : State := s.setSag n (f (s.sag n))
def State.updBm (s : State) (n : Nat) (f : Bm → Bm) : State := s.setBm n (f (s.bm n))
def State.updPort (s : State) (n : Nat) (f : Port → Port) : State := s.setPort n (f (s.port n))
def State.updWm (s : State) (n : Nat) (f : Wm → Wm) : State := s.setWm n (f (s.wm n))
def State.updKiln (s : State) (f : Kiln → Kiln) : State := { s with kiln := f s.kiln }
def State.updDev (s : State) (f : Dev → Dev) : State := { s with dev := f s.dev }
def State.updMsp (s : State) (f : Msp → Msp) : State := { s with msp := f s.msp }
def State.updJrn (s : State) (f : Jrn → Jrn) : State := { s with jrn := f s.jrn }
def State.updLnk (s : State) (f : Lnk → Lnk) : State := { s with lnk := f s.lnk }
def State.updHealth (s : State) (f : Health → Health) : State := { s with health := f s.health }
def State.updShp (s : State) (f : Shp → Shp) : State := { s with shp := f s.shp }

/-- Take the next serial number of the model's own counter. -/
def State.tick1 (s : State) : State := { s with serial := s.serial + 1 }

/-- A free value: the counter is advanced, so that the next draw is another value. -/
def State.draw (s : State) : DWord × State := (Config.freeValue s.freeCtr, { s with freeCtr := s.freeCtr + 1 })

/-- A free answer of the decision band (R260). -/
def State.drawBand (s : State) : Bool × State := (Config.freeBand s.freeCtr, { s with freeCtr := s.freeCtr + 1 })

/-! ### DEV_ERR (R420) -/

/-- Set a bit of EVT_PEND (R407). -/
def State.pend (s : State) (i : Nat) : State := s.updDev fun d => { d with evtPend := setBit d.evtPend i true }

/-- Count an ignored BAR0, doorbell or SHP access: DEV_ERR.HOST and EVT_PEND bit 13. -/
def State.errHost (s : State) : State := (s.updDev fun d => { d with errHost := sat8 d.errHost }).pend 13

/-- Count an ignored MSP register write or table-window misuse: DEV_ERR.REG. -/
def State.errReg (s : State) : State := (s.updDev fun d => { d with errReg := sat8 d.errReg }).pend 13

/-- Count a rejected MSP command: DEV_ERR.MSP. -/
def State.errMsp (s : State) : State := (s.updDev fun d => { d with errMsp := sat8 d.errMsp }).pend 13

/-- Count a write ignored under DEV_LOCK: DEV_ERR.LOCK. -/
def State.errLock (s : State) : State := (s.updDev fun d => { d with errLock := sat8 d.errLock }).pend 13

/-! ### The ordered path to the host (R133) and MSI-X (R135, R440) -/

/-- Post a write to a function's host memory; a function whose Bus Master Enable is 0 issues nothing (R441). -/
def State.hostWrite (s : State) (fn : Nat) (addr : DWord) (bs : List Byte) : State :=
  if (s.fn fn).busMaster && !bs.isEmpty then { s with path := s.path ++ [.write fn addr bs] } else s

/-- The place of a vector in the MSI-X store: 33 vectors per function. -/
def msixKey (fn vec : Nat) : Nat := 33 * fn + vec

/-- Send a vector's message, or set its pending bit while it is masked; nothing while MSI-X Enable is 0 (R440). -/
def State.sendMsix (s : State) (fn vec : Nat) : State :=
  let f := s.fn fn
  if !f.msixEn || !f.busMaster then s
  else
    let m := s.msix.get {} (msixKey fn vec)
    if m.masked || f.fnMask then { s with msix := s.msix.set {} (msixKey fn vec) { m with pending := true } }
    else { s with path := s.path ++ [.msix fn vec m.addr m.data] }

/-- Send what is pending on a vector that is no longer masked (R135). -/
def State.flushMsix (s : State) (fn vec : Nat) : State :=
  let f := s.fn fn
  let m := s.msix.get {} (msixKey fn vec)
  if m.pending && !m.masked && !f.fnMask && f.msixEn then
    State.sendMsix { s with msix := s.msix.set {} (msixKey fn vec) { m with pending := false } } fn vec
  else s

/-! ### Supervisor events (R407) -/

/-- The EVT_PEND bit of an event code (Table 16.7). -/
def causeBit (code : Nat) : Nat :=
  if code = 0x0107 then 0
  else if code = 0x0102 then 2
  else if code = 0x0108 then 3
  else if code = 0x0100 || code = 0x0101 then 4
  else if code = 0x0103 then 5
  else if code = 0x0104 then 6
  else if code = 0x0105 || code = 0x0106 then 7
  else if 0x0300 ≤ code ∧ code ≤ 0x0302 then 8
  else if 0x0310 ≤ code ∧ code ≤ 0x0317 then 9
  else if 0x0200 ≤ code ∧ code ≤ 0x02FF then 10
  else if 0x0003 ≤ code ∧ code ≤ 0x0006 then 11
  else if code = 0x0002 then 12
  else 15

/-- Set the category bit and push one cause record; a full FIFO of 64 drops it, counts it and sets CAUSE_LOST. -/
def State.pushCause (s : State) (code object detail saggar : Nat) (info : Word) : State :=
  let s := s.pend (causeBit code)
  if s.dev.causes.length < 64 then
    s.updDev fun d => { d with causes := d.causes ++ [{ code, object, detail, saggar, info }] }
  else (s.updDev fun d => { d with evtLost := sat16 d.evtLost }).pend 14

/-- SHP_STAT.ACTIVE: enabled and serving its saggar (Table 17.12, R460). -/
def State.shpRefresh (s : State) : State :=
  s.updShp fun p => { p with active := p.en && s.dev.ready && (s.sag p.sag).en }

/-! ### Host events (R128, R132, R449) -/

/-- The 16 bytes of an event entry (Table 5.8). -/
def Evt.bytes (e : Evt) (phase : Bool) : List Byte :=
  leBytes 2 e.code ++ leBytes 2 e.object ++ leBytes 2 e.detail ++ leBytes 2 (if phase then 0x8000 else 0) ++
    leBytes 4 e.info.toNat ++ leBytes 4 e.stime.toNat

/-- Is the saggar served by the slim host port (R161)? -/
def State.shpBound (s : State) (sag : Nat) : Bool := s.shp.en && s.shp.active && s.shp.sag == sag

/-- Entries in a ring of `n` between head and tail (R113). -/
def ringCount (head tail n : Nat) : Nat := if n = 0 then 0 else (tail + n - head) % n

/-- Write one entry at the tail of a function's event queue and send vector 0 (R118, R136). -/
def State.evqPut (s : State) (fn : Nat) (e : Evt) : State :=
  let f := s.fn fn
  let s := s.hostWrite fn (f.evqBase + BitVec.ofNat 64 (16 * f.evqTail)) (e.bytes f.evqPhase)
  let wrap := f.evqTail + 1 == f.evqN
  let s := s.setFn fn { f with evqTail := if wrap then 0 else f.evqTail + 1, evqPhase := if wrap then !f.evqPhase else f.evqPhase }
  s.sendMsix fn 0

/-- A RESET_EVQ runs: its completion is held, and events raised until it is written are counted as lost (R145). -/
def Fn.evqResetting (f : Fn) : Bool := f.heldAdmin.isSome && (f.running.map fun bs => leAt bs 0 1) == some 0x88

/-- EVQ_OVERFLOW is written when a slot is free and events were lost; the count returns to zero (R132). -/
def State.evqOverflow (s : State) (sag : Nat) : State :=
  if s.shpBound sag then
    if s.shp.evLost ≠ 0 ∧ s.shp.events.length < 15 then
      let e : Evt := { code := 6, object := 0, detail := 0, info := w32 s.shp.evLost, stime := s.stime.setWidth 32 }
      let s := s.updShp fun p => { p with events := p.events ++ [e.bytes true], evLost := 0 }
      s.pushCause 6 0 0 sag e.info
    else s
  else
    let f := s.fn sag
    if f.evqOn ∧ !f.evqResetting ∧ f.evqLost ≠ 0 ∧ ringCount f.evqHead f.evqTail f.evqN + 2 ≤ f.evqN then
      let e : Evt := { code := 6, object := 0, detail := 0, info := w32 f.evqLost, stime := s.stime.setWidth 32 }
      let s := s.evqPut sag e
      let s := s.updFn sag fun f => { f with evqLost := 0 }
      s.pushCause 6 0 0 sag e.info
    else s

/-- Write an event to the queue of a saggar, or count it as lost (R128, R132, R145). -/
def State.evqWrite (s : State) (sag : Nat) (e : Evt) : State :=
  if s.shpBound sag then
    if s.shp.events.length < 15 ∧ s.shp.evLost = 0 then
      s.updShp fun p => { p with events := p.events ++ [e.bytes true] }
    else s.updShp fun p => { p with evLost := sat32 p.evLost }
  else
    let f := s.fn sag
    if f.evqOn ∧ !f.evqResetting ∧ f.evqLost = 0 ∧ ringCount f.evqHead f.evqTail f.evqN + 2 < f.evqN then s.evqPut sag e
    else s.updFn sag fun f => { f with evqLost := sat32 f.evqLost }

/-- Raise an event to a saggar: its event queue, and one cause record (R406, R407). A saggar that may not act receives
nothing (R152, R167). -/
def State.raise (s : State) (sag code object detail : Nat) (info : Word) : State :=
  let s := if (s.sag sag).en then s.evqWrite sag { code, object, detail, info, stime := s.stime.setWidth 32 } else s
  s.pushCause code object detail (if (s.sag sag).en then sag else 0xFF) info

/-- Raise an event whose INFO is KILN_FRAME. -/
def State.raiseF (s : State) (sag code object detail : Nat) : State := s.raise sag code object detail s.kiln.frame

/-! ### Local store (R52, R171, R172, R384) -/

/-- The address is in local store (R52). -/
def isLs (a : DWord) : Bool := bit a 63

/-- The offset in the view, ADDR[23:0]. -/
def lsOff (a : DWord) : Nat := fld a 0 24

/-- ADDR[62:24] is nonzero. -/
def lsResv (a : DWord) : Bool := fld a 24 39 ≠ 0

/-- A local-store address of a view offset. -/
def lsAddr (off : Nat) : DWord := BitVec.ofNat 64 (2 ^ 63 + off)

/-- The address `n` bytes further on. -/
def DWord.plus (a : DWord) (n : Nat) : DWord := a + BitVec.ofNat 64 n

/-- The physical page behind a view page. -/
def State.viewPage (s : State) (sag page : Nat) : Option Nat := s.ls.view.get none (4096 * sag + page)

/-- The physical byte address behind a view offset. -/
def State.phys (s : State) (sag off : Nat) : Option Nat :=
  (s.viewPage sag (off / 4096)).map fun p => 4096 * p + off % 4096

/-- The view pages that `len` bytes from `off` touch. -/
def pagesOf (off len : Nat) : List Nat :=
  if len = 0 then [] else (List.range ((off + len - 1) / 4096 - off / 4096 + 1)).map (· + off / 4096)

/-- Every page of the range is mapped in the view (R172). -/
def State.lsMapped (s : State) (sag off len : Nat) : Bool :=
  (pagesOf off len).all fun p => decide (p < 4096) && (s.viewPage sag p).isSome

/-- Some page of the range is program-locked (R39). -/
def State.lsLocked (s : State) (sag off len : Nat) : Bool :=
  (pagesOf off len).any fun p => s.ls.locks.any fun l => l.sag == sag && l.view == p

/-- Some unit of the range is poisoned (R384). -/
def State.lsPoisoned (s : State) (sag off len : Nat) : Bool :=
  (List.range len).any fun i => match s.phys sag (off + i) with
    | some a => s.ls.poison.contains (a / 8)
    | none => false

/-- One byte of a view; an unmapped byte reads zero (every reader checks the range first). -/
def State.lsByte (s : State) (sag off : Nat) : Byte :=
  match s.phys sag off with
  | some a => s.ls.mem.get 0 a
  | none => 0

/-- `len` bytes of a view, all as they stand at this instant: which units of a read that a write overlaps are old and which are new,
R503 leaves open, and here they are of one instant (DESIGN CHOICE, log entry 89). -/
def State.lsRead (s : State) (sag off len : Nat) : List Byte := (List.range len).map fun i => s.lsByte sag (off + i)

/-- Write one byte of the local store by physical address. -/
def State.physSet (s : State) (a : Nat) (b : Byte) : State := { s with ls := { s.ls with mem := s.ls.mem.set 0 a b } }

/-- Write bytes to a view, page by page as mapped. -/
def State.lsPut (s : State) (sag off : Nat) : List Byte → State
  | [] => s
  | b :: rest =>
    match s.phys sag off with
    | some a => State.lsPut (s.physSet a b) sag (off + 1) rest
    | none => State.lsPut s sag (off + 1) rest

/-- Clear the poison of every unit that a write of `len` bytes covers whole (R384). -/
def State.unpoison (s : State) (sag off len : Nat) : State :=
  let units := (List.range (len / 8 + 1)).filterMap fun k =>
    let o := (off + 7) / 8 * 8 + 8 * k
    if o + 8 ≤ off + len then (s.phys sag o).map (· / 8) else none
  if s.ls.poison.isEmpty then s
  else { s with ls := { s.ls with poison := s.ls.poison.filter fun u => !units.contains u } }

/-- Write bytes to a view. -/
def State.lsWrite (s : State) (sag off : Nat) (bs : List Byte) : State := (s.lsPut sag off bs).unpoison sag off bs.length

/-- The check of an address range of a CCW, list or command (R52, R172, R448): none = valid. -/
def State.checkRange (s : State) (sag : Nat) (a : DWord) (len : Nat) : Option Status :=
  if isLs a then
    if lsResv a then some .programCheck
    else if s.lsMapped sag (lsOff a) len then none else some .addressCheck
  else if s.shpBound sag then some .addressCheck else none

/-- The check of a range that is written: as above, and program locks (R39). -/
def State.checkWrite (s : State) (sag : Nat) (a : DWord) (len : Nat) : Option Status :=
  match s.checkRange sag a len with
  | some st => some st
  | none => if isLs a && s.lsLocked sag (lsOff a) len then some .protectionCheck else none

/-- Write bytes to a valid address of either space on behalf of a saggar. -/
def State.memWrite (s : State) (sag : Nat) (a : DWord) (bs : List Byte) : State :=
  if isLs a then s.lsWrite sag (lsOff a) bs else s.hostWrite sag a bs

/-! ### Host reads (R441) -/

/-- Issue a host read; the number answers it. -/
def State.hostRead (s : State) (fn : Nat) (a : DWord) (len : Nat) (who : Reader) : State :=
  let s := s.tick1
  { s with reads := s.reads ++ [{ id := s.serial, fn, addr := a, len, who }] }

/-- Take an outstanding read off the list. -/
def State.takeRead (s : State) (id : Nat) : Option (HostRead × State) :=
  (s.reads.find? fun r => r.id == id).map fun r => (r, { s with reads := s.reads.filter fun r => !(r.id == id) })

/-! ### Functions on the bus -/

/-- The function is enabled and the link is up (R433, R434). -/
def State.fnOn (s : State) (fn : Nat) : Bool := s.pcie.linkUp && (fn == 0 || (s.pcie.vfEnable && decide (fn ≤ s.pcie.numVfs)))

/-- The function answers BAR0 requests. -/
def State.barOn (s : State) (fn : Nat) : Bool := s.fnOn fn && !(s.fn fn).d3

/-! ### Ports by number (Table 9.1) -/

/-- The port kinds, with the numbers of R220; 0 = reserved, 10 = node services. -/
def portKind (p : Nat) : Nat :=
  if p < 0x30 then 1
  else if 0x40 ≤ p ∧ p < 0x48 then 2
  else if 0x50 ≤ p ∧ p < 0x54 then 3
  else if p = 0x60 then 4
  else if 0x70 ≤ p ∧ p < 0x80 then 5
  else if 0x80 ≤ p ∧ p < 0x88 then 6
  else if 0x88 ≤ p ∧ p < 0x90 then 7
  else if 0xA0 ≤ p ∧ p < 0xC0 then 8
  else if p = 0x90 then 9
  else if p = 0x1FF then 10
  else 0

/-- Word `w` of a PORT entry as accepted (R209). -/
def State.portWord (s : State) (p w : Nat) : Word := s.tables.port.get 0 (16 * p + w)

/-- Word `w` of a PORT entry as in force for the CCWs dispatched before a change (R212). -/
def State.liveWord (s : State) (p w : Nat) : Word :=
  match (s.port p).live with
  | some ws => ws.getD w 0
  | none => s.portWord p w

def State.portEn (s : State) (p : Nat) : Bool := bit (s.portWord p 0) 0
def State.portShared (s : State) (p : Nat) : Bool := bit (s.portWord p 0) 1
def State.portMode (s : State) (p : Nat) : Nat := fld (s.portWord p 0) 4 4

/-- The MB option of a serial port (R222). -/
def State.portMb (s : State) (p : Nat) : Bool := bit (s.portWord p 0) 8

/-- PORT_TIMING fields (Table 17.11, R428). -/
def State.ovhNs (s : State) (p : Nat) : Nat := if portKind p ≤ 3 then (s.tables.timing.get 0 (8 * p)).toNat else 400
def State.byteNs (s : State) (p : Nat) : Nat := (s.tables.timing.get 0 (8 * p + 1)).toNat
def State.turnNs (s : State) (p : Nat) : Nat := (s.tables.timing.get 0 (8 * p + 2)).toNat
def State.respNs (s : State) (p : Nat) : Nat := (s.tables.timing.get 0 (8 * p + 3)).toNat
def State.segNs (s : State) (p : Nat) : Nat := (s.tables.timing.get 0 (8 * p + 4)).toNat

/-- OBSERVE or ACTUATE on a port (R168: ACTUATE permits what OBSERVE permits). -/
def State.mayObserve (s : State) (sag p : Nat) : Bool := bit (s.sag sag).observe p || bit (s.sag sag).actuate p
def State.mayActuate (s : State) (sag p : Nat) : Bool := bit (s.sag sag).actuate p

/-- The port holds a cause or awaits a STAGE: it is in its safe state (R401, R404). -/
def Port.safe (p : Port) : Bool := p.cSag || p.cOvr || p.cDwdg || p.cSup || p.pend

/-- The port holds a supervisor cause (Table 16.3). -/
def Port.supCause (p : Port) : Bool := p.cOvr || p.cDwdg || p.cSup

/-! ### Output pins -/

/-- The reset state of the pins holds: PORST_N, WARM_N, TEST_MODE, or bisque not complete (Table 20.4, R453, R457). -/
def State.pinsReset (s : State) : Bool := s.power.porst || s.power.warmPin || s.power.testMode || !s.dev.ready

/-- FAILSAFE_N is low exactly in these cases (R405). -/
def State.failsafeLow (s : State) : Bool :=
  s.pinsReset || s.dev.fsForce ||
    s.ports.any fun e => e.2.cDwdg || (e.2.cOvr && s.dev.fsOvr) || (e.2.cSup && s.dev.fsSup)

/-- MSP_IRQ_N is low while a masked-in category is pending (R407). -/
def State.mspIrqLow (s : State) : Bool := !s.pinsReset && s.dev.evtPend &&& s.dev.evtMask != 0

/-- SHP_IRQ_N is low while attention is needed (R448). -/
def State.shpIrqLow (s : State) : Bool :=
  s.shp.en && s.shp.active && (!s.shp.comps.isEmpty || !s.shp.events.isEmpty || s.shp.ctlDone)

/-- WMn drives TRIPn: guard mode, A_LINE and a set latch (R268). -/
def State.tripDriven (s : State) (n : Nat) : Bool :=
  let m := s.wm n
  decide (n < 8) && m.live.en && m.live.guard && m.live.aLine && m.latch

/-- The trip lines this SC900 drives; released while PORST_N or WARM_N is asserted (R270). -/
def State.tripLines (s : State) : BitVec 8 :=
  if s.power.porst || s.power.warmPin then 0
  else (List.range 8).foldl (fun v n => setBit v n (s.tripDriven n)) 0

end Sys2Proof.Machine
end

