-- ==== Sys2Proof/Machine/Queues.lean ====
section
/-! DEFINITION. Completion queues, submission entries and status words: the completion entry and its coalescing (R123, R131,
R136), signature and tagged completion (R125), admin completions (R139, R140), the end of a queue reset or delete (R150), and the
subchannel status word (R77). -/

namespace Sys2Proof.Machine

/-! ### Completion queues -/

/-- The 16 bytes of a completion entry (Table 5.6). -/
def Cqe.bytes (c : Cqe) (sqhd : Nat) (phase : Bool) (stime : DWord) : List Byte :=
  leBytes 2 c.cid ++ leBytes 2 c.sqid ++ leBytes 2 sqhd ++ leBytes 2 (c.status.code + 32768 * b2n phase) ++
    leBytes 4 c.kd.toNat ++ leBytes 4 stime.toNat

/-- The ring has no free slot (R113). -/
def ringFull (head tail n : Nat) : Bool := (tail + 1) % n == head

/-- Send a CQ's message and clear its pending count (R136). -/
def State.cqMessage (s : State) (n : Nat) : State :=
  let q := s.cq n
  (s.setCq n { q with pendCnt := 0 }).sendMsix q.fn q.vector

/-- SQHD of a completion: the head now; of a malformed entry, the place after it (R123, R130). -/
def State.sqhd (s : State) (c : Cqe) : Nat :=
  match c.qerr with
  | some i => (i + 1) % max 1 (s.sq c.sqid).n
  | none => (s.sq c.sqid).head

/-- What follows a completion: QUEUE_ERROR after that of a malformed entry (R130, R133). -/
def State.afterCqe (s : State) (fn : Nat) (c : Cqe) : State :=
  match c.qerr with
  | some i => s.raise fn 3 c.sqid c.status.code (w32 i)
  | none => s

/-- Write a completion into the next slot of CQ `n`, then coalesce (R118, R136). -/
def State.cqWrite (s : State) (n : Nat) (c : Cqe) : State :=
  let q := s.cq n
  let s := s.hostWrite q.fn (DWord.plus q.base (16 * q.tail)) (c.bytes (s.sqhd c) q.phase s.stime)
  let wrap := q.tail + 1 == q.n
  let q := { q with
    tail := if wrap then 0 else q.tail + 1
    phase := if wrap then !q.phase else q.phase
    pendSince := if q.pendCnt = 0 then s.clk else q.pendSince
    pendCnt := q.pendCnt + 1 }
  let s := s.setCq n q
  let s :=
    if q.vector = 0 then s
    else if c.irq || q.aggTime == 0 || decide (q.aggCnt + 1 ≤ q.pendCnt) then s.cqMessage n
    else s
  s.afterCqe q.fn c

/-- A completion is due: written, or held while the CQ is full (R131). A frame that runs has then seen one held. -/
def State.cqPut (s : State) (n : Nat) (c : Cqe) : State :=
  let q := s.cq n
  if q.held.isEmpty && !ringFull q.head q.tail q.n then s.cqWrite n c
  else
    let s1 := s.setCq n { q with held := q.held ++ [c], heldInFrame := q.heldInFrame || s.kiln.frameRuns }
    if q.held.isEmpty then s1.raise q.fn 4 n 0 (w32 (s.sq c.sqid).head) else s1

/-- Write held completions while there is room; `k` bounds the number. -/
def State.cqDrainCore (s : State) (n : Nat) : Nat → State
  | 0 => s
  | k + 1 =>
    let q := s.cq n
    match q.held with
    | [] => s
    | c :: rest =>
      if ringFull q.head q.tail q.n then s
      else State.cqDrainCore ((s.setCq n { q with held := rest }).cqWrite n c) n k

/-- No SQ that feeds a CQ with held completions is fetched from (R131). -/
def State.cqHolds (s : State) (n : Nat) : Bool := !(s.cq n).held.isEmpty

/-! ### Entries of a queue -/

/-- The order in which ends due at one instant are written: the lower-numbered SQ first (Table 5.12). -/
def QRef.order : QRef → Nat
  | .sq n => n
  | .shp => 256
  | .auto k => 257 + k

/-- The entries of a queue, in the order of their fetch. -/
def State.entries (s : State) : QRef → List Entry
  | .sq n => (s.sq n).entries
  | .shp => s.shp.entries
  | .auto k => ((s.autos.get none k).map Auto.starts).getD []

def State.setEntries (s : State) (q : QRef) (es : List Entry) : State :=
  match q with
  | .sq n => s.updSq n fun x => { x with entries := es }
  | .shp => s.updShp fun x => { x with entries := es }
  | .auto k => match s.autos.get none k with
    | some a => { s with autos := s.autos.set none k (some { a with starts := es }) }
    | none => s

def State.entry? (s : State) (q : QRef) (eid : Nat) : Option Entry := (s.entries q).find? fun e => e.eid == eid

def State.updEntry (s : State) (q : QRef) (eid : Nat) (f : Entry → Entry) : State :=
  s.setEntries q ((s.entries q).map fun e => if e.eid == eid then f e else e)

/-- The saggar that owns a queue. -/
def State.qSag (s : State) : QRef → Nat
  | .sq n => (s.sq n).fn
  | .shp => s.shp.sag
  | .auto k => ((s.autos.get none k).map Auto.sag).getD 0

/-- The service class of a queue. -/
def State.qCls (s : State) : QRef → Cls
  | .sq n => (s.sq n).cls
  | .shp => .w
  | .auto k => ((s.autos.get none k).map Auto.cls).getD .w

/-- The saggar a subchannel acts for: that of the queue that reserves it. -/
def State.schSag (s : State) (n : Nat) : Nat := ((s.sch n).owner.map s.qSag).getD 0

/-- The class of a subchannel. -/
def State.schCls (s : State) (n : Nat) : Cls := ((s.sch n).owner.map s.qCls).getD .w

/-- The subchannels that a queue reserves, in rising order. -/
def State.schsOf (s : State) (q : QRef) : List Nat := (s.schs.filter fun e => e.2.owner == some q).map (·.1)

/-- The lowest-numbered IDLE subchannel that the queue reserves (R81). -/
def State.idleSch (s : State) (q : QRef) : Option Nat := (s.schsOf q).find? fun n => (s.sch n).state == .idle

/-- The status of an entry whose work has ended. -/
def Entry.endStatus (e : Entry) : Option Status :=
  match e.phase with
  | .ended st => some st
  | _ => none

/-- The entries of an SQ fetched and not completed: those whose completion is held, then those not yet covered (R131, R153). -/
def State.uncompleted (s : State) (n : Nat) : List Entry :=
  (((s.cq (s.sq n).cq).held.filter fun c => c.sqid == n).flatMap Cqe.covers) ++ (s.sq n).entries

/-- A completion names, or will name, the entry: in tagged mode each; in signature mode not one that has ended OK without SIG, which
the next completion covers silently (R125). -/
def Entry.owes (e : Entry) (tagged : Bool) : Bool := tagged || e.sig || e.kind == .malformed || e.endStatus != some .ok

/-- Entries that stand against an SQ's depth (R498): fetched, and the completion that names them not written. A RESUME does not
count (R92); nor does one that ended OK and only waits to be covered, or a batch longer than the depth could never complete
(log entry 88). -/
def State.inflight (s : State) (n : Nat) : Nat :=
  ((s.uncompleted n).filter fun e => e.kind != .resume && e.owes (s.sq n).tagged).length

/-! ### Completing entries -/

/-- RESULT.SEALED: the number names a SEALED namespace (R124, R291). -/
def State.sealedBit (s : State) (nsid : Nat) : Word :=
  putB 25 (decide (nsid < 1024) && (s.ns nsid).exist && (s.ns nsid).type == .sealed)

/-- The RESULT of an entry's completion: SEALED stands in every one that names a SEALED namespace (R291). -/
def State.resultOf (s : State) (e : Entry) : Word :=
  if e.kind == .journal then e.result ||| s.sealedBit e.jrn.nsid else e.result

/-- The completion of an entry (Tables 5.6, 5.7). -/
def State.cqe (s : State) (e : Entry) (sqid : Nat) (qerr : Option Nat) : Cqe :=
  { cid := e.cid, sqid, status := e.endStatus.getD .ok, kd := s.resultOf e, irq := e.irq
    qerr := if e.kind == .malformed then qerr else none }

/-- In signature mode, the entries at the front whose work has ended, in groups: the last of a group gets a completion, which covers
the others; and the rest, the uncovered ones first (R125). `acc` holds the uncovered entries before. -/
def sigTake (acc : List Entry) : List Entry → List (List Entry) × List Entry
  | [] => ([], acc)
  | e :: rest =>
    if e.endStatus.isNone then ([], acc ++ e :: rest)
    else if e.owes false then
      let (a, b) := sigTake [] rest
      ((acc ++ [e]) :: a, b)
    else sigTake (acc ++ [e]) rest

/-- In tagged mode, the entries whose work has ended, and the rest. -/
def tagTake (es : List Entry) : List Entry × List Entry := es.partition fun e => e.endStatus.isSome

/-- A malformed entry waits until every earlier entry has completed (R130). -/
def splitMal (es : List Entry) : List Entry × List Entry := es.span fun e => e.kind != .malformed

/-- The entries of a tagged queue that complete now: those before a malformed entry as they end, it when it is first. -/
def tagReady (es : List Entry) : List Entry × List Entry :=
  let (before, mal) := splitMal es
  let (a, b) := tagTake before
  if b.isEmpty then
    match mal with
    | m :: rest => if m.endStatus.isSome then (a ++ [m], rest) else (a, mal)
    | [] => (a, [])
  else (a, b ++ mal)

/-- A reset or delete of the queue is under way (R150). -/
def Sq.ending (q : Sq) : Bool := q.state == .resetting || q.state == .deleting

/-- Under a reset or delete the entries complete in entry order, each with its own completion in tagged mode (R150). -/
def resetTake : List Entry → List Entry × List Entry
  | [] => ([], [])
  | e :: rest =>
    if e.endStatus.isSome then
      let (a, b) := resetTake rest
      (e :: a, b)
    else ([], e :: rest)

/-- The entries of a queue that complete now, each with those it covers before it, and the rest. -/
def Sq.due (q : Sq) : List (List Entry) × List Entry :=
  if !q.tagged then sigTake [] q.entries
  else
    let (a, b) := if q.ending then resetTake q.entries else tagReady q.entries
    (a.map fun e => [e], b)

/-- The completion of a group of entries is due: it names the last (R125). -/
def State.putGroup (s : State) (n : Nat) (g : List Entry) : State :=
  match g.getLast? with
  | some e => s.cqPut (s.sq n).cq { s.cqe e n (s.sq n).qerr with covers := g }
  | none => s

/-- Write the completions that an SQ owes by now, in its mode's order; ABORTED ones are counted during a reset. -/
def State.sqFlushCore (s : State) (n : Nat) : State :=
  let q := s.sq n
  let (due, rest) := q.due
  let cut := (due.filter fun g => (g.getLast?.bind Entry.endStatus) == some .aborted).length
  let s := s.setSq n { q with entries := rest, aborted := if q.ending then q.aborted + cut else q.aborted }
  due.foldl (fun s g => s.putGroup n g) s

/-! ### Admin completions (R139, R140, R159) -/

/-- Put a subchannel's reservation down (R150); its watchdog setting and its counts stay in its table entry. -/
def Sch.unreserved (c : Sch) : Sch := { ccwWdg := c.ccwWdg, trgOvr := c.trgOvr, ccwa := c.ccwa, lc0 := c.lc0, lc1 := c.lc1, lc2 := c.lc2, lc3 := c.lc3 }

/-- Unreserve every subchannel of a queue. -/
def State.unreserve (s : State) (q : QRef) : State :=
  (s.schsOf q).foldl (fun s n => s.updSch n Sch.unreserved) s

/-- Release what admission reserved for a queue (R43): figures, program locks, block mover channels, and by MAIL the demand at
remote targets (R360). -/
def State.releaseG (s : State) (q : QRef) : State :=
  let gone := s.admitted.filter fun a => a.q == q
  let mail := gone.flatMap fun a => (a.remote.map fun e => e.1 / 512).eraseDups.map fun d =>
    (d, MailMsg.release s.lnk.node (match q with | .sq n => n | .auto k => 0xFF00 + k | .shp => 0xFFFF))
  { s with
    admitted := s.admitted.filter fun a => a.q != q
    ls := { s.ls with locks := s.ls.locks.filter fun l => l.q != q }
    bms := s.bms.map fun e => (e.1, if e.2.gres == some q then { e.2 with gres := none } else e.2)
    lnk := { s.lnk with mailOut := s.lnk.mailOut ++ mail } }

/-- An autonomous queue that has been ended, and whose subchannels are IDLE, is released (R467). -/
def State.autoCheck (s : State) (q : QRef) : State :=
  match q with
  | .auto k => match s.autos.get none k with
    | some a =>
      if a.ending && (s.schsOf q).all fun n => (s.sch n).state == .idle then
        let s := (s.unreserve q).releaseG q
        { s with autos := s.autos.set none k none }
      else s
    | none => s
  | _ => s

/-- The context of an SQ is freed; its prefetch buffer is zeroed (R150, R176). -/
def State.freeSq (s : State) (n : Nat) : State :=
  let s := (s.unreserve (.sq n)).releaseG (.sq n)
  s.setSq n { fn := (s.sq n).fn, zeroing := true }

/-- The fields of the running admin entry. -/
def Fn.opc (f : Fn) : Option Nat := f.running.map fun bs => leAt bs 0 1
def Fn.arg (f : Fn) (off n : Nat) : Nat := leAt (f.running.getD []) off n

/-- The state of a physical page. -/
def State.pageState (s : State) (p : Nat) : PageState := s.ls.pages.get .free p
def State.setPage (s : State) (p : Nat) (x : PageState) : State := { s with ls := { s.ls with pages := s.ls.pages.set .free p x } }

/-- Physical pages promised to commands that wait for their zeroing. -/
def State.promised (s : State) : List Nat := s.fns.flatMap fun e => e.2.pagesWait.getD []

/-- Map physical pages behind consecutive view pages. -/
def State.mapPages (s : State) (sag first : Nat) (ps : List Nat) : State :=
  ps.zipIdx.foldl (fun (s : State) e =>
    let s := s.setPage e.1 (.mapped sag (first + e.2))
    { s with ls := { s.ls with view := s.ls.view.set none (4096 * sag + first + e.2) (some e.1) } }) s

/-- The admin completion has been written: of a create, the queue takes doorbells (R159); of a reset or delete, it is over (R150); of
an ALLOC_PAGES, its pages are mapped (R154); of a RESET_EVQ, the events lost while it ran are reported (R145). -/
def State.afterAdmin (s : State) (fn : Nat) (f : Fn) (st : Status) : State :=
  let n := f.arg 4 2
  if st != .ok then s
  else if f.opc = some 0x83 then s.updSq n fun q => { q with opened := true }
  else if f.opc = some 0x84 then s.freeSq n
  else if f.opc = some 0x85 then s.updSq n fun q => { q with state := .active, aborted := 0 }
  else if f.opc = some 0x88 then s.evqOverflow fn
  else if f.opc = some 0x8A then
    (s.mapPages fn (f.arg 4 4) (f.pagesWait.getD [])).updFn fn fun f => { f with pagesWait := none }
  else s

/-- Write an admin completion at the admin CQ's tail and send vector 0 (R136, R139, R140). When EN has fallen, RDY clears (R138);
where EN has been set again meanwhile, the rings are fresh, the completion goes to their first slot and RDY stays (log entry 88). -/
def State.admWrite (s : State) (fn : Nat) (c : Cqe) : State :=
  let f := s.fn fn
  let s := s.hostWrite fn (DWord.plus f.cqb (16 * f.cqTail)) (c.bytes f.sqHead f.cqPhase s.stime)
  let wrap := f.cqTail + 1 == f.cqn
  let s := s.setFn fn { f with
    cqTail := if wrap then 0 else f.cqTail + 1, cqPhase := if wrap then !f.cqPhase else f.cqPhase
    running := none, queryFrame := none, replies := [], heldAdmin := none
    rdy := f.rdy && !(f.draining && !f.en), draining := false, applying := false }
  (s.sendMsix fn 0).afterAdmin fn f c.status

/-- The running admin command ends: its completion is written, or held while the admin CQ is full, which CQ_STALL reports (R139,
R131). The admin CQ has no CQID, and the event's OBJECT is the 0xFFFF of its SQID (log entry 88). -/
def State.admDone (s : State) (fn : Nat) (st : Status) (info : Word) : State :=
  let f := s.fn fn
  if f.running.isNone || f.heldAdmin.isSome then s
  else
    let c : Cqe := { cid := f.arg 2 2, sqid := 0xFFFF, status := st, kd := info }
    if ringFull f.cqHead f.cqTail f.cqn then
      (s.setFn fn { f with heldAdmin := some c, applying := false }).raise fn 4 0xFFFF 0 (w32 f.sqHead)
    else s.admWrite fn c

/-! ### The end of a reset or delete (R150) -/

/-- The last entry of a list completes with ABORTED. -/
def abortLast (es : List Entry) : List Entry :=
  es.dropLast ++ (es.getLast?.map fun e => { e with phase := .ended .aborted }).toList

/-- Entries that ended OK in signature mode and that no ABORTED completion covers are not yet completed at the end of a reset: the
last of them completes with ABORTED and covers the others (R150 step 4, log entry 88). -/
def State.coverRest (s : State) (n : Nat) : State :=
  let q := s.sq n
  if q.entries.isEmpty || q.entries.any fun e => e.endStatus.isNone then s
  else (s.setSq n { q with entries := [], aborted := q.aborted + 1 }).putGroup n (abortLast q.entries)

/-- When every entry up to T_r has completed and every subchannel is IDLE, the reset or delete is over and its admin completion
is due (R150 steps 4 to 6). -/
def State.resetCheck (s : State) (n : Nat) : State :=
  let q := s.sq n
  if !q.ending || q.head != q.tr then s
  else
    let s := s.coverRest n
    let q := s.sq n
    let idle := (s.schsOf (.sq n)).all fun k => (s.sch k).state == .idle
    let written := !((s.cq q.cq).held.any fun c => c.sqid == n)
    if q.entries.isEmpty && idle && written then
      (s.setSq n { q with qerr := none }).admDone q.fn .ok (w32 (q.aborted % 65536))
    else s

/-- Write the completions that an SQ owes by now; a reset that this finishes ends. -/
def State.sqFlush (s : State) (n : Nat) : State := (s.sqFlushCore n).resetCheck n

/-- Write held completions while there is room; resets that waited for it end. -/
def State.cqDrain (s : State) (n k : Nat) : State :=
  let s := s.cqDrainCore n k
  (s.sqs.filter fun e => e.2.cq == n && e.2.ending).foldl (fun s e => s.resetCheck e.1) s

/-- The completion of an entry of the slim host port (R449). -/
def State.shpComp (s : State) (e : Entry) : List Byte :=
  leBytes 2 e.cid ++ leBytes 2 0xFFFE ++ leBytes 2 0 ++ leBytes 2 ((e.endStatus.getD .ok).code + 32768) ++
    leBytes 4 (s.resultOf e).toNat ++ leBytes 4 s.stime.toNat

/-- Move ended entries of the slim host port to its completion FIFO (R449). During a QRESET only journal commands that end with their
own status complete; every other entry waits for its step 3 (R450). -/
def State.shpFlush (s : State) : State :=
  let own (e : Entry) : Bool := e.kind == .journal && (match e.endStatus with | some st => st != .aborted | none => false)
  let (due, rest) := if s.shp.qresetting then s.shp.entries.partition own else tagReady s.shp.entries
  s.updShp fun p => { p with entries := rest, comps := p.comps ++ due.map s.shpComp }

/-- An entry that ends while its queue is reset or deleted completes with ABORTED, but for a malformed one (R150 step 4). -/
def State.resetStatus (s : State) (q : QRef) (eid : Nat) (st : Status) : Status :=
  match q with
  | .sq n => if (s.sq n).ending && ((s.entry? q eid).map Entry.kind) != some .malformed then .aborted else st
  | _ => st

/-- An entry's work has ended: its completion follows in its queue's mode. -/
def State.endEntry (s : State) (q : QRef) (eid : Nat) (st : Status) : State :=
  let st := s.resetStatus q eid st
  let s := s.updEntry q eid fun e => { e with phase := .ended st }
  match q with
  | .sq n => s.sqFlush n
  | .shp => s.shpFlush
  | .auto _ => s.setEntries q ((s.entries q).filter fun e => e.eid != eid)

/-! ### The subchannel status word (R77, Table 3.9) -/

/-- CCWA: bits 31:4 of the address, bit 0 for local store; an inline slot has its own codes (R83). Chaining from the second inline slot
to PROG = 0 ends the program with PROGRAM_CHECK at a place with no address: it shows the second slot's code (DESIGN CHOICE, log
entry 89). -/
def Pc.ccwa : Pc → Word
  | .inline 0 => 0xFFFFFFE0
  | .inline _ => 0xFFFFFFF0
  | .at a => (a.setWidth 32 &&& 0xFFFFFFF0) ||| putB 0 (isLs a)

/-- The 16 bytes of a status word. -/
def State.statusWord (s : State) (n : Nat) (st : Status) (stateNum : Nat) (final : Bool) (user : Option Nat) : List Byte :=
  let c := s.sch n
  leBytes 2 st.code ++ leBytes 1 stateNum ++ leBytes 1 (b2n final + 2 * b2n user.isSome + 4 * b2n c.lmr) ++
    leBytes 4 c.residual.toNat ++ leBytes 4 c.curPc.ccwa.toNat ++ leBytes 2 (user.getD c.dstat.toNat) ++
    leBytes 2 s.kiln.frame.toNat

/-- Write a status word to an address, unless the address is not the saggar's to write. -/
def State.putStatus (s : State) (sag : Nat) (a : DWord) (bs : List Byte) : State :=
  if (s.checkWrite sag a 16).isSome then s else s.memWrite sag a bs

/-- The retained status of a program (R87). -/
def Sch.retained (c : Sch) : Status := if c.lmr then .lengthMismatch else .ok

/-- Post a status word to STATA; a STATA of zero writes nothing (R93, R120). -/
def State.post (s : State) (n : Nat) (st : Status) (stateNum : Nat) (final : Bool) : State :=
  let c := s.sch n
  if c.stata = 0 then s else s.putStatus (s.schSag n) c.stata (s.statusWord n st stateNum final none)

end Sys2Proof.Machine
end

