-- ==== Sys2Proof/Machine/Fetch.lean ====
section
/-! DEFINITION. The fetch rules of the queue front end (R302, R447, R496, R498, R500), and what every command ends with: the end of
a fetch round that has nothing left to fetch, and the levels of the output pins. -/

namespace Sys2Proof.Machine

/-- A journal opcode (the single queue of the slim host port carries both kinds, R305). -/
def isJrnOp (bs : List Byte) : Bool := decide (0x40 ≤ leAt bs 0 1 ∧ leAt bs 0 1 ≤ 0x47)

/-! ### Fetch rules -/

/-- The saggar's queues are not fetched from: its heartbeat is lost with HALT (R174), or it may not act. -/
def State.fetchStopped (s : State) (sag : Nat) : Bool := !(s.sag sag).en || ((s.sag sag).hbDown && (s.sag sag).hbHalt)

/-- An SQ has an entry it may fetch now (R115, R130, R131, R159, R496, R498). -/
def State.canFetchSq (s : State) (n : Nat) : Bool :=
  let q := s.sq n
  q.state == .active && q.opened && !s.cqHolds q.cq && q.head != q.tail && !s.fetchStopped q.fn &&
    (if q.cls == .g then decide ((q.entries.filter fun e => e.prefetched).length < q.depth) else decide (s.inflight n < q.depth))

/-- The journal commands of the slim host port in flight. -/
def State.shpJrn (s : State) : Nat := (s.shp.entries.filter fun e => e.kind == .journal && e.endStatus.isNone).length

/-- The slim host port has an entry it may fetch now: in SUBMIT order, journal commands up to JDEPTH (R447). -/
def State.canFetchShp (s : State) : Bool :=
  s.shp.en && s.shp.active && !s.shp.error && !s.shp.qresetting && !s.fetchStopped s.shp.sag &&
    match s.shp.waiting with
    | [] => false
    | bs :: _ => !isJrnOp bs || s.shp.jdepth == 0 || decide (s.shpJrn < s.shp.jdepth)

/-- The place of the slim host port in the rounds: after SQ255 (R447). -/
def shpTurn : Nat := 256

/-- The W queues with a fetchable entry, in rising order, with the slim host port last (R498, R447). -/
def State.fetchableW (s : State) : List Nat :=
  ((s.sqs.filter fun e => e.2.cls == .w && s.canFetchSq e.1).map (·.1)) ++ (if s.canFetchShp then [shpTurn] else [])

def State.wWeight (s : State) (k : Nat) : Nat := if k = shpTurn then 16 else (s.sq k).weight
def State.wBurst (s : State) (k : Nat) : Nat := if k = shpTurn then 4 else (s.sq k).burst

/-- SQ_ARB values take effect at a new round (R156). -/
def State.newRound (s : State) : State :=
  { s with
    sqs := s.sqs.map fun e => (e.1, match e.2.arbNext with
      | some (w, b) => { e.2 with weight := w, burst := b, arbNext := none }
      | none => e.2)
    fetch := {} }

/-- The next turn at the current step or the one after; none = the round is over. -/
def State.turnInRound (s : State) (ws : List Nat) : Option (Nat × Nat) :=
  let r := s.fetch
  let after (k : Nat) : Bool := match r.last with | some l => decide (l < k) | none => true
  match ws.find? fun k => after k && decide (r.step ≤ s.wWeight k) with
  | some k => some (r.step, k)
  | none => (ws.find? fun k => decide (r.step + 1 ≤ s.wWeight k)).map fun k => (r.step + 1, k)

/-- The W queue whose turn it is, with the round brought there (R498). -/
def State.fetchTurn (s : State) : Option Nat × State :=
  let ws := s.fetchableW
  let inTurn := match s.fetch.turn with
    | some (k, left) => if left ≠ 0 && ws.contains k then some k else none
    | none => none
  match inTurn with
  | some k => (some k, s)
  | none =>
    let start (s : State) (step k : Nat) : Option Nat × State :=
      (some k, { s with fetch := { step, last := some k, turn := some (k, s.wBurst k) } })
    match s.turnInRound ws with
    | some (step, k) => if step ≤ 255 then start s step k else (none, s.newRound)
    | none =>
      let s := s.newRound
      match ws with
      | k :: _ => start s 1 k
      | [] => (none, s)

/-- A round ends early when no W queue has a fetchable entry, whatever command brought that about (R498). -/
def State.roundEnd (s : State) : State := if s.fetchableW.isEmpty then s.newRound else s

/-- One entry of a turn is used. -/
def State.useTurn (s : State) : State :=
  { s with fetch := { s.fetch with turn := match s.fetch.turn with
      | some (k, left) => if left ≤ 1 then none else some (k, left - 1)
      | none => none } }

/-- The slim host port's next entry is a journal command. -/
def State.shpHeadJrn (s : State) : Bool := match s.shp.waiting with | bs :: _ => isJrnOp bs | [] => false

/-- A B queue may be fetched from: no W queue on its processor has a fetchable entry or an entry waiting to start (R500); a B
journal queue only while no W journal queue has a fetchable entry (R302). -/
def State.bOpen (s : State) (n : Nat) : Bool :=
  let q := s.sq n
  if q.journal then
    !(s.sqs.any fun e => e.2.cls == .w && e.2.journal && s.canFetchSq e.1) && !(s.canFetchShp && s.shpHeadJrn)
  else
    let waits (e : Entry) : Bool := (e.kind == .start || e.kind == .trg) && e.phase == .waiting
    !(s.sqs.any fun e => e.2.cls == .w && !e.2.journal && e.2.cp == q.cp && (s.canFetchSq e.1 || e.2.entries.any waits)) &&
      !(s.shp.cp == q.cp && ((s.canFetchShp && !s.shpHeadJrn) || s.shp.entries.any waits))

/-! ### The end of a command -/

/-- Form the levels of the output pins that follow from the state. -/
def settle (s : State) : State :=
  { s with pins := { s.pins with
      failsafeN := !s.failsafeLow
      mspIrqN := !s.mspIrqLow
      shpIrqN := !s.shpIrqLow
      trip := s.tripLines
      tickOut := s.pins.tickOut && s.kiln.tickOutEn && !s.pinsReset
      lkInsert := s.pins.lkInsert && s.lnk.en && !s.power.porst && !s.power.warmPin
      peClkreqN := s.power.brownOut || (s.pins.peClkreqN && s.power.porst)
      boundary := s.power.jtagIr == 0b000000 || s.power.jtagIr == 0b000010 || s.power.jtagIr == 0b000011 } }

/-- The state after a command: its effect on everything but the queue, then the fetch round and the pins. -/
def finish (s t : State) : State := { settle t.roundEnd with pending := s.pending }

/-- A command: one that names a resource outside Table 1.4 names nothing (R11); while PORST_N is asserted, or the brown-out
detector holds that state, nothing acts (R454, R456); otherwise its effect, then the pins. -/
def act (i : Instr) (s : State) (f : State → State) : Out :=
  if !i.wf then .fault .noSuchResource
  else if s.power.porst then .next s
  else .next (finish s (f s))

/-- A command that acts in reset too. -/
def always (s : State) (f : State → State) : Out := .next (finish s (f s))

end Sys2Proof.Machine
end

