-- ==== Sys2Proof/Machine/Claims.lean ====
section
/-! DEFINITION. The spine arbiter: requests, grants and the counters of a claim slot (R246 to R253). -/

namespace Sys2Proof.Machine

/-- The enabled claim group that names a port (R242). -/
def State.groupOf (s : State) (p : Nat) : Option Nat :=
  (List.range 16).find? fun g => (s.claim g).en && (s.claim g).port == p

/-- The slot of a group that binds a subchannel. -/
def ClaimGroup.slotOf (g : ClaimGroup) (n : Nat) : Option Nat :=
  (List.range 16).find? fun k => let x := g.slots.get {} k; x.bound && x.sch == n

/-- The group and slot of a subchannel on a port. -/
def State.slotOn (s : State) (p n : Nat) : Option (Nat × Nat) :=
  match s.groupOf p with
  | some g => ((s.claim g).slotOf n).map fun k => (g, k)
  | none => none

/-- The subchannel holds the grant of the port. -/
def State.holds (s : State) (p n : Nat) : Bool :=
  match s.slotOn p n with
  | some (g, k) => (s.claim g).holder == some k
  | none => false

def ClaimGroup.slot (g : ClaimGroup) (k : Nat) : ClaimSlot := g.slots.get {} k
def ClaimGroup.setSlot (g : ClaimGroup) (k : Nat) (x : ClaimSlot) : ClaimGroup := { g with slots := g.slots.set {} k x }

/-- The slots that request now, in rising order. -/
def ClaimGroup.requesters (g : ClaimGroup) : List Nat := (List.range 16).filter fun k => (g.slot k).reqSince.isSome

/-- A slot raises its request (R246). -/
def State.raiseReq (s : State) (g k : Nat) : State :=
  let x := s.claim g
  s.setClaim g (x.setSlot k { x.slot k with reqSince := some s.clk, counted := false })

/-- A request that has not been granted 10 ns after it was raised is counted in WAITS, once (R253). -/
def ClaimSlot.countWait (x : ClaimSlot) (now : Nat) : ClaimSlot :=
  match x.reqSince with
  | some t => if !x.counted && decide (t + 10 < now) then { x with waits := sat32 x.waits, counted := true } else x
  | none => x

/-- The claim watchdog's period in ns; CWDG 0 = 1,000,000 µs (Table 10.1). -/
def ClaimGroup.cwdgNs (g : ClaimGroup) : Nat := if g.cwdg = 0 then 1000000000 else 1000 * g.cwdg

/-- The slots whose request may be granted at `now`: a grant at the instant the wait timer expires is late (R252); `grace` 1 admits
that instant, for the grant that follows a bite of the hold timer in the same cycle (Table 10.6). -/
def ClaimGroup.grantable (g : ClaimGroup) (now grace : Nat) : List Nat :=
  g.requesters.filter fun k => match (g.slot k).reqSince with | some t => decide (now < t + g.cwdgNs + grace) | none => false

/-- A request ends, by grant or otherwise: its wait is counted (R253). -/
def ClaimGroup.endReq (g : ClaimGroup) (k now : Nat) (granted : Bool) : ClaimGroup :=
  let x := (g.slot k).countWait now
  match x.reqSince with
  | none => g
  | some t =>
    let w := now - t
    g.setSlot k { x with
      reqSince := none, counted := false
      waits := if !granted && !x.counted then sat32 x.waits else x.waits
      longest := min 4294967295 (max x.longest w)
      total := satAdd (2 ^ 64 - 1) x.total w }

/-- The grant goes to a slot (R246, R252, R253). -/
def ClaimGroup.grant (g : ClaimGroup) (k now : Nat) : ClaimGroup :=
  let g := g.endReq k now true
  let g := g.setSlot k { g.slot k with grants := sat32 (g.slot k).grants }
  { g with holder := some k, holdSince := now, sampled := [] }

/-- A subchannel's requests end without a grant: a halt, a bite, FLR (R246). -/
def State.endReqs (s : State) (n : Nat) : State :=
  { s with claims := s.claims.foldl (fun m e =>
      match e.2.slotOf n with
      | some k => m.set {} e.1 (e.2.endReq k s.clk false)
      | none => m) s.claims }

/-- A subchannel gives up every grant it holds (R74, R84). -/
def State.dropGrants (s : State) (n : Nat) : State :=
  { s with claims := s.claims.foldl (fun m e =>
      match e.2.holder with
      | some k => if (e.2.slot k).bound && (e.2.slot k).sch == n then m.set {} e.1 { e.2 with holder := none, sampled := [] } else m
      | none => m) s.claims }

/-- The arbitration instant of the holder's CCW: the requests present are sampled (R248). -/
def State.sampleReqs (s : State) (p n : Nat) : State :=
  match s.slotOn p n with
  | some (g, k) =>
    let x := s.claim g
    if x.holder == some k then s.setClaim g { x with sampled := x.requesters } else s
  | none => s

/-- The arbitration instant `t` of a CCW that only transmits lies before its end: requests raised after it are not sampled
(R248). -/
def State.sampleReqsAt (s : State) (p n t : Nat) : State :=
  match s.slotOn p n with
  | some (g, k) =>
    let x := s.claim g
    if x.holder == some k then
      s.setClaim g { x with sampled := x.requesters.filter fun j => match (x.slot j).reqSince with | some r => decide (r ≤ t) | none => false }
    else s
  | none => s

/-- The end of a data phase that is a break point: the grant passes to the highest slot that was sampled, is higher than the
holder and still requests; with no other slot requesting the hold timer restarts (R247 to R249, R252). Answers whether the
grant passed. -/
def State.breakPoint (s : State) (p n : Nat) : Bool × State :=
  match s.slotOn p n with
  | none => (false, s)
  | some (g, k) =>
    let x := s.claim g
    if x.holder != some k then (false, s)
    else
      let cands := (x.grantable s.clk 0).filter fun j => decide (k < j) && x.sampled.contains j
      match cands.getLast? with
      | some j => (true, s.setClaim g (x.grant j s.clk))
      | none =>
        let restart := (x.requesters.filter fun j => j != k).isEmpty
        (false, s.setClaim g { x with sampled := [], holdSince := if restart then s.clk else x.holdSince })

/-- A port with no holder grants its highest requesting slot (R250). Answers the port and the subchannel granted. -/
def State.grantFree (s : State) (grace : Nat) : Option (Nat × Nat × State) :=
  match (List.range 16).find? fun g =>
      let x := s.claim g
      x.en && x.holder.isNone && !(x.grantable s.clk grace).isEmpty with
  | none => none
  | some g =>
    let x := s.claim g
    match (x.grantable s.clk grace).getLast? with
    | some k => some (x.port, (x.slot k).sch, s.setClaim g (x.grant k s.clk))
    | none => none

/-- How many requests wait, over all groups: the bound of an arbitration loop. -/
def State.requestCount (s : State) : Nat := s.claims.foldl (fun n e => n + e.2.requesters.length) 0

end Sys2Proof.Machine
end

