-- ==== Sys2Proof/Machine/Program.lean ====
section
/-! DEFINITION. Running a program: which CCW a subchannel has reached, the choice of a processor among its contexts (R501),
starting (R81), the end of a CCW (R49, R90, R93, R96) and the end of a program (R84). -/

namespace Sys2Proof.Machine

/-! ### Sorting and choosing -/

/-- Put an element into a list kept in rising order of a key; equal keys keep their order. -/
def insertBy {α : Type} (key : α → Nat) (x : α) : List α → List α
  | [] => [x]
  | y :: ys => if key x < key y then x :: y :: ys else y :: insertBy key x ys

/-- A list in rising order of a key. -/
def sortBy {α : Type} (key : α → Nat) (xs : List α) : List α := xs.foldl (fun acc x => insertBy key x acc) []

/-! ### The CCW a subchannel has reached -/

/-- What reading a CCW gives. -/
inductive CcwRead where
  /-- a host read is still under way -/
  | wait
  | bad (st : Status)
  | ok (c : Ccw)
deriving DecidableEq, Repr

/-- The CCW at the subchannel's place: an inline slot, local store, or the one a host read returned (R83, R46, R52). A
program that chains past its inline CCWs to a PROG of zero has no CCW there (R83). -/
def State.ccwAt (s : State) (n : Nat) : CcwRead :=
  let c := s.sch n
  match c.pc with
  | .inline 0 => match c.inl0 with | some w => .ok w | none => .bad .programCheck
  | .inline 1 => match c.inl1 with | some w => .ok w | none => .bad .programCheck
  | .inline _ => .bad .programCheck
  | .at a =>
    if isLs a then
      if lsResv a then .bad .programCheck
      else if !s.lsMapped (s.schSag n) (lsOff a) 16 then .bad .addressCheck
      else if s.lsPoisoned (s.schSag n) (lsOff a) 16 then .bad .dataIntegrity
      else .ok (Ccw.ofBytes (s.lsRead (s.schSag n) (lsOff a) 16))
    else if s.shpBound (s.schSag n) then .bad .addressCheck
    else if c.fetchFail then .bad .dataIntegrity
    else match c.fetched with | some w => .ok w | none => .wait

/-- The subchannel is runnable: ACTIVE, HALTING on its way to a break point, or PARKED with a nudge's re-read under way (R104);
waiting for nothing, its CCW at hand. -/
def State.runnable (s : State) (n : Nat) : Bool :=
  let c := s.sch n
  (c.state == .active || c.state == .halting || (c.state == .parked && c.reread)) && c.wait == .none && c.op.isNone && s.ccwAt n != .wait

/-- The rank of a context in the choice of R501: class, then how long it has waited, then its number. -/
def State.rankOf (s : State) (n : Nat) : Nat :=
  ((s.schCls n).num * 2 ^ 64 + (s.sch n).readySince) * 256 + n

/-- Subchannel `n` is the one its processor chooses (R501). -/
def State.chosen (s : State) (n : Nat) : Bool :=
  s.runnable n && (List.range 8).all fun i =>
    let m := n / 8 * 8 + i
    m == n || !s.runnable m || decide (s.rankOf n < s.rankOf m)

/-- Bring a subchannel to a place in its program; a CCW in host memory is read from there (R109). -/
def State.goto (s : State) (n : Nat) (pc : Pc) : State :=
  let s := s.updSch n fun c => { c with pc, fetched := none, fetchFail := false, readySince := s.clk }
  match pc with
  | .at a =>
    if isLs a || s.shpBound (s.schSag n) then s
    else if (s.fn (s.schSag n)).busMaster then s.hostRead (s.schSag n) a 16 (.ccw n)
    else s.updSch n fun c => { c with fetchFail := true }
  | .inline _ => s

/-- The place after the inline CCWs: PROG, or nowhere when PROG is zero (R83). -/
def Sch.afterInline (c : Sch) : Pc := if c.progAddr = 0 then .inline 2 else .at c.progAddr

/-- The next CCW: 16 bytes higher; after an inline slot, the other slot when present, then PROG (R49, R83). -/
def Sch.nextPc (c : Sch) : Pc → Pc
  | .inline 0 => if c.inl1.isSome then .inline 1 else c.afterInline
  | .inline 1 => c.afterInline
  | .inline k => .inline k
  | .at a => .at (DWord.plus a 16)

/-! ### The Commit slice -/

/-- The Commit slice of the frame in progress has begun: COMMIT_SLICE has told so, or its instant has come (R18, R33). -/
def State.inCommit (s : State) : Bool :=
  s.kiln.frameRuns && (s.kiln.slice == 15 || decide (s.kiln.tickAt + 15 * (s.kiln.frameLen / 16) ≤ s.clk))

/-- The Commit slice begins: the staging image is frozen (R14), and G work that still runs is an overrun (R44). -/
def State.commitBegin (s : State) : State :=
  let s := { s with kiln := { s.kiln with slice := 15 }, frozen := s.stage, stage := {} }
  let busy := s.schs.filter fun e => s.schCls e.1 == .g && e.2.state != .idle && e.2.state != .armed && decide (e.1 < 256)
  busy.foldl (fun s e => s.setCpAcct (e.1 / 8) { s.cpAcct (e.1 / 8) with overran := true }) s

/-! ### Starting -/

/-- The Exchange work units of the frame in progress (R499). -/
def State.exchangeWu (s : State) : Nat := 15 * (s.kiln.frameLen / 16) / 10

/-- R_G: the reservation of the G queues on a processor, Σ d·C (Table 17.11). -/
def State.reservedG (s : State) (cp : Nat) : Nat :=
  s.admitted.foldl (fun n a => if a.cp == cp then n + a.depth * a.c else n) 0

/-- The work condition for a start of class W or B; no budget applies while no frame runs (R499, R36). -/
def State.wbOpen (s : State) (cp : Nat) : Bool :=
  !s.kiln.frameRuns || decide ((s.cpAcct cp).curWbExchange < s.exchangeWu - s.reservedG cp)

/-- The program of a subchannel begins: counters zero, status OK, latches clear (R81). The device status and the residual of the
latest port CCW stay (R76). -/
def State.launch (s : State) (n : Nat) : State :=
  let s := s.updSch n fun c => { c with
    state := .active, lc0 := 0, lc1 := 0, lc2 := 0, lc3 := 0, lmr := false
    resumeL := false, nudgeL := false, haltWhy := none, restart := false, fired := false, holdRun := false
    span := none, spanSkip := false, afterJump := false, reread := false, applyFrame := 0xFFFF, stageTicks := 0, wait := .none, op := none, cur := none
    curPc := c.startPc }
  s.goto n (s.sch n).startPc

/-- The subchannel takes the fields of an entry: where it starts and where its status words go (R82, R83). -/
def Sch.load (c : Sch) (e : Entry) : Sch :=
  { c with
    eid := some e.eid, stata := e.stata, inl0 := e.inl0, inl1 := e.inl1, progAddr := e.prog
    startPc := if e.inl0.isSome then .inline 0 else .at e.prog
    trigger := if e.kind == .trg then some e.trigger else none
    startL := false }

/-- Count a start with nonzero DEFER (Tables 2.9, 17.10). -/
def State.countDefer (s : State) (q : QRef) (cp d : Nat) : State :=
  if d = 0 then s
  else
    let s := s.setCpAcct cp { s.cpAcct cp with defer := sat32 (s.cpAcct cp).defer }
    match q with
    | .sq n => s.updSq n fun x => { x with defers := sat32 x.defers }
    | _ => s

/-- DEFER: the frames from an entry's fetch to now (R34), as the ticks have counted them (log entry 54). -/
def Entry.deferOf (e : Entry) : Nat := min 65535 e.defer

/-- The frame a program's completion reports for its last STAGE (R15): the one whose tick applied it, or, while that tick is to
come, the number it will open by what is known now (log entry 84). -/
def State.stagedFrame (s : State) (c : Sch) : BitVec 16 :=
  if c.stageTicks = 0 then c.applyFrame
  else ((s.kiln.frameNext.getD (s.kiln.frame + 1)) + (if c.stageTicks = 1 then 0 else 1)).setWidth 16

/-- An entry's kind-dependent bytes: DEFER, and the frame of the last staged outputs (R15, Table 5.7). -/
def deferResult (d : Nat) (apply : BitVec 16) : Word := w32 (d % 65536) ||| put 16 apply.toNat

/-- Start a START entry on a subchannel. -/
def State.startOn (s : State) (q : QRef) (e : Entry) (n : Nat) : State :=
  let d := match q with | .auto _ => 0 | _ => e.deferOf
  let s := s.countDefer q (n / 8) d
  let s := s.updEntry q e.eid fun x => { x with phase := .begun, defer := d, sch := n, prefetched := false }
  (s.updSch n fun c => c.load e).launch n

/-- Arm a subchannel with a TRG entry (R98, R102). -/
def State.armOn (s : State) (q : QRef) (e : Entry) (n : Nat) : State :=
  let d := e.deferOf
  let s := s.updEntry q e.eid fun x => { x with phase := .begun, defer := d, sch := n, prefetched := false }
  s.updSch n fun c => { c.load e with state := .armed, fired := false, applyFrame := 0xFFFF, stageTicks := 0, haltWhy := none }

/-- May the queue start entries: an SQ that is ACTIVE, or in ERROR with entries fetched before. -/
def State.mayStart (s : State) : QRef → Bool
  | .sq n => (s.sq n).state == .active || (s.sq n).state == .error
  | .shp => !s.shp.qresetting && !s.health.failedCps.contains s.shp.cp
  | .auto _ => true

/-- The processor of a queue. -/
def State.qCp (s : State) : QRef → Nat
  | .sq n => (s.sq n).cp
  | .shp => s.shp.cp
  | .auto k => ((s.autos.get none k).map Auto.cp).getD 0

/-- Start a waiting W or B entry if a subchannel of its queue is IDLE and the work condition holds (R499, R500, R36). -/
def State.tryStart (s : State) (q : QRef) (eid : Nat) : State :=
  match s.entry? q eid with
  | none => s
  | some e =>
    if e.kind == .start && e.phase == .waiting && s.qCls q != .g && s.mayStart q && s.wbOpen (s.qCp q) then
      match s.idleSch q with
      | some n => s.startOn q e n
      | none => s
    else s

/-- The START entries of class W and B that wait, oldest fetch first (R499). -/
def State.waitingStarts (s : State) : List (QRef × Entry) :=
  let sqs := s.sqs.flatMap fun e =>
    if e.2.cls == .g then [] else (e.2.entries.filter fun x => x.kind == .start && x.phase == .waiting).map fun x => (QRef.sq e.1, x)
  let shp := (s.shp.entries.filter fun x => x.kind == .start && x.phase == .waiting).map fun x => (QRef.shp, x)
  let autos := if !s.kiln.frameRuns then [] else s.autos.flatMap fun e => match e.2 with
    | some a => if a.cls == .g then [] else (a.starts.filter fun x => x.phase == .waiting).map fun x => (QRef.auto e.1, x)
    | none => []
  sortBy (fun e => e.2.fetchSeq) (sqs ++ shp ++ autos)

/-- The armed W and B subchannels whose trigger has fired and that wait for the work condition (R100). -/
def State.firedArmed (s : State) : List Nat :=
  (s.schs.filter fun e => e.2.state == .armed && e.2.fired && s.schCls e.1 != .g).map (·.1)

/-- Start the fired armings whose work condition holds. -/
def State.startFired (s : State) : State :=
  s.firedArmed.foldl (fun s n => if s.wbOpen (n / 8) then s.launch n else s) s

/-- Start what waits: entries, oldest fetch first, then fired armings. -/
def State.startWaiting (s : State) : State :=
  (s.waitingStarts.foldl (fun s e => s.tryStart e.1 e.2.eid) s).startFired

/-! ### The end of a program (R84) -/

/-- Complete the HALT entries that wait for subchannel `n` to be IDLE (R95). -/
def State.endHalts (s : State) (q : QRef) (n : Nat) : State :=
  ((s.entries q).filter fun e => e.kind == .halt && e.phase == .begun && e.sch == n).foldl
    (fun s e => s.endEntry q e.eid .ok) s

/-- The bit ONESHOT of a TRIGGER word (Table 4.3). -/
def oneshot (t : Word) : Bool := bit t 14

/-- The entry of a halt by reset, delete or QRESET completes with ABORTED; otherwise with the program's status (R96). -/
def entryStatus (why : Option HaltWhy) (st : Status) : Status :=
  match why with
  | some .reset => .aborted
  | some .qreset => .aborted
  | _ => st

/-- An open span runs on port `p` of this node. -/
def Sch.spanOn (x : Sch) (p : Nat) : Bool := match x.span with | some (_, tgt) => fld tgt 0 9 == p | none => false

/-- A program that ends inside a span ends its transfer: the port's line is free again; characters of a WRITE already in the transmit
FIFO still leave, and the line is free after them (R85). -/
def State.endSpan (s : State) (n : Nat) : State :=
  match (s.sch n).span with
  | some (op, tgt) =>
    let p := fld tgt 0 9
    if fld tgt 9 7 == s.lnk.node && (s.port p).lineBusy == some n && !(portKind p == 1 && op == 0x01) then
      s.updPort p fun x => { x with lineBusy := none, sent := [], frameRx := [], csLow := false }
    else s
  | none => s

/-- A program ends: its grants go, its FINAL word is posted, its entry completes; an arming that goes on returns to ARMED
(R84, R102). What the free grants and the free subchannel then start is `work`'s. -/
def State.progEndCore (s : State) (n : Nat) (st : Status) : State :=
  let c := s.sch n
  let why := c.haltWhy
  let keep := match c.trigger with
    | some t => why == some .restart || (!oneshot t && why == none)
    | none => false
  let s := ((s.endReqs n).dropGrants n).endSpan n
  let s := s.post n st (if keep then SchState.armed.num else SchState.idle.num) true
  let again := keep && (why == some .restart || c.startL)
  let s := s.setSch n { c with
    state := if keep then .armed else .idle
    fired := again, startL := false, wait := .none, op := none, cur := none, haltWhy := none, restart := false
    resumeL := false, nudgeL := false, holdRun := false, span := none, spanSkip := false, afterJump := false, reread := false
    fetched := none, fetchFail := false
    eid := if keep then c.eid else none
    trigger := if keep then c.trigger else none }
  let s := { s with reads := s.reads.filter fun r => !(r.who == .ccw n || r.who == .element n || r.who == .data n || r.who == .fence n) }
  match c.owner with
  | none => s
  | some q =>
    if keep then s
    else
      let s := match c.eid with
        | none => s
        | some eid =>
          let d := ((s.entry? q eid).map Entry.defer).getD 0
          let s := s.updEntry q eid fun e => { e with result := deferResult d (s.stagedFrame c) }
          s.endEntry q eid (entryStatus why st)
      (s.endHalts q n).autoCheck q

/-! ### The end of a CCW -/

/-- The flags of a CCW (Table 3.2). -/
def Ccw.cont (c : Ccw) : Bool := bit c.flags 0
def Ccw.span (c : Ccw) : Bool := bit c.flags 1
def Ccw.list (c : Ccw) : Bool := bit c.flags 2
def Ccw.drop (c : Ccw) : Bool := bit c.flags 3
def Ccw.lenok (c : Ccw) : Bool := bit c.flags 4
def Ccw.rpt (c : Ccw) : Bool := bit c.flags 5
def Ccw.pause (c : Ccw) : Bool := bit c.flags 6
def Ccw.hold (c : Ccw) : Bool := bit c.flags 7

/-- A CCW of subchannel `n` has completed with status `st`; the program goes on at `next`, suspends, or ends (R49, R84, R87,
R90, R93, R96). A HALTING program whose CCW fails on its own ends with HALTED, as its halt ends it (R84 case 5; log entry 79). -/
def State.ccwDoneCore (s : State) (n : Nat) (c : Ccw) (st : Status) (next : Pc) : State :=
  let lm := st == .lengthMismatch && c.lenok
  let st := if lm then .ok else st
  let s := s.updSch n fun x => { x with
    wait := .none, op := none, cur := none, fetched := none, fetchFail := false, lmr := x.lmr || lm
    afterJump := c.op == 0x10, reread := false
    span := if c.span && st == .ok then some (c.op, c.tgt) else none, spanCount := c.count }
  let x := s.sch n
  if x.state == .halting then
    if st == .ccwWatchdog || st == .claimWatchdog || st == .migratedAbort || st == .repairExhausted then s.progEndCore n st
    else if st == .ok && (c.span || (c.hold && c.cont)) then
      let s := if c.rpt then s.post n x.retained SchState.halting.num false else s
      (s.updSch n fun x => { x with holdRun := true }).goto n next
    else s.progEndCore n .halted
  else if st != .ok then s.progEndCore n st
  else if !(c.cont || c.span || c.op == 0x10) then s.progEndCore n x.retained
  else
    let s := s.updSch n fun x => { x with holdRun := c.hold || c.span }
    if c.pause then
      let s := s.post n x.retained SchState.suspended.num false
      if x.resumeL then (s.updSch n fun x => { x with state := .active, resumeL := false }).goto n next
      else s.updSch n fun x => { x with state := .suspended, pc := next }
    else
      let s := s.updSch n fun x => { x with state := .active }
      let s := if c.rpt then s.post n x.retained SchState.active.num false else s
      s.goto n next

/-! ### Dispatch -/

/-- Charge work units to a context's processor (R20, Table 2.9); work while no frame runs is counted nowhere (R36). -/
def State.charge (s : State) (n wu : Nat) : State :=
  if !s.kiln.frameRuns then s
  else
    let a := s.cpAcct (n / 8)
    if s.schCls n == .g then s.setCpAcct (n / 8) { a with curG := a.curG + wu }
    else s.setCpAcct (n / 8) { a with
      curWb := a.curWb + wu
      curWbExchange := if s.inCommit then a.curWbExchange else a.curWbExchange + wu }

/-- A CCW is dispatched: the watchdog starts (R107) and CCWA names it. A parked subchannel whose re-read found it is ACTIVE
(Table 4.2). -/
def State.beginCcw (s : State) (n : Nat) (c : Ccw) : State :=
  s.updSch n fun x => { x with
    state := if x.state == .parked then .active else x.state
    cur := some c, curPc := x.pc, ccwa := x.pc.ccwa, dispatchedAt := s.clk, wdgInForce := x.ccwWdg, waitSeq := s.serial }

/-- The opcodes of Table 3.4. -/
def definedOp (op : Byte) : Bool :=
  ([0x01, 0x02, 0x03, 0x04, 0x05, 0x08, 0x09, 0x0A, 0x0B, 0x0F, 0x10, 0x11, 0x12, 0x13, 0x14, 0x15, 0x16, 0x18, 0x19, 0x1C,
    0x1D, 0x20, 0x7F] : List Byte).contains op

/-- The flags an opcode permits (Table 3.3), as a mask. -/
def flagsOf (op : Byte) : Byte :=
  if op == 0x01 then 0b11110111
  else if op == 0x02 then 0xFF
  else if op == 0x03 then 0b11110101
  else if op == 0x04 || op == 0x05 then 0b11111101
  else if op == 0x10 then 0
  else if op == 0x7F then 0b01000000
  else 0b01100001

/-- The reserved fields of a CCW are zero (Table 3.4, R5, R51). -/
def Ccw.reservedOk (c : Ccw) : Bool :=
  let t0 := c.tgt == 0
  let c0 := c.count == 0
  let a0 := c.addr == 0
  if c.op == 0x08 then t0
  else if c.op == 0x09 then (c.count == 0 && a0) || (c.count == 1 && t0)
  else if c.op == 0x0F then t0 && c0 && a0
  else if c.op == 0x10 then t0 && c0
  else if c.op == 0x11 then t0 && a0 && fld c.count 17 15 == 0
  else if c.op == 0x12 then t0 && a0
  else if c.op == 0x13 then t0 && fld c.count 17 15 == 0 && fld c.addr 32 32 == 0
  else if c.op == 0x14 then t0 && fld c.addr 1 63 == 0
  else if c.op == 0x15 then t0 && fld c.count 2 30 == 0
  else if c.op == 0x16 then t0 && fld c.addr 2 62 == 0
  else if c.op == 0x18 then t0 && fld c.count 16 16 == 0
  else if c.op == 0x19 then t0 && a0 && (if fld c.count 30 2 = 0 then fld c.count 16 14 == 0 else fld c.count 8 22 == 0)
  else if c.op == 0x1C || c.op == 0x1D then c0 && a0
  else if c.op == 0x20 then t0
  else if c.op == 0x7F then t0 && c0
  else true

/-- Step 1 of R54: opcode defined, reserved fields zero, flags permitted, CONT and SPAN, PAUSE and SPAN apart. -/
def Ccw.step1 (c : Ccw) : Bool :=
  definedOp c.op && c.reservedOk && (c.flags &&& ~~~ flagsOf c.op) == 0 && !(c.cont && c.span) && !(c.pause && c.span)

/-- In a span: same OP and TGT as its first CCW (R85). -/
def Sch.spanOk (x : Sch) (c : Ccw) : Bool :=
  match x.span with
  | some (op, tgt) => op == c.op && tgt == c.tgt
  | none => true

end Sys2Proof.Machine
end

