-- ==== Sys2Proof/Machine/LinkOps.lean ====
section
/-! DEFINITION. Messages on the ring: their cells (R343, R357), the lane a node sends on (R356), and the queue a message waits
in by rank (R347). -/

namespace Sys2Proof.Machine

/-- Cut bytes into payloads of 64; `k` bounds the number of cells. -/
def chunks64 : Nat → List Byte → List (List Byte)
  | 0, _ => []
  | k + 1, bs => if bs.isEmpty then [] else padTo 64 bs :: chunks64 k (bs.drop 64)

/-- The cells of a message: its first payload, then its data; the last is marked (R343, R357). -/
def msgCells (type : Nat) (gcls : Bool) (src dst tag : Nat) (first data : List Byte) : List Cell :=
  let ps := padTo 64 first :: chunks64 (data.length / 64 + 1) data
  (ps.zipIdx).map fun (p, i) =>
    { type, gcls, last := i + 1 == ps.length, src, dst, tag, index := i, payload := p }

/-- The ring is in use: state UP or WRAPPED (R359, Table 14.8). -/
def State.ringUp (s : State) : Bool := s.lnk.state == 3 || s.lnk.state == 4

/-- The lane to a node: fewer hops, lane A when equal; in a wrapped ring the lane whose path does not cross the cut (R356). -/
def State.laneTo (s : State) (d : Nat) : Lane :=
  let p := s.peer d
  if s.lnk.wrapped then
    let cutA := if s.lnk.wrapEast = s.lnk.node then 0 else (s.peer s.lnk.wrapEast).hopsA
    if p.hopsA ≤ cutA then .a else .b
  else if p.hopsA ≤ p.hopsB then .a else .b

/-- Queue a message for slots, by rank, on its lane. -/
def State.sendMsg (s : State) (rank : Nat) (lane : Lane) (cells : List Cell) : State :=
  if !s.lnk.en then s
  else match lane with
  | .a => s.updLnk fun l => { l with outA := l.outA ++ [{ rank, cells := cells.map fun c => { c with lane := .a } }] }
  | .b => s.updLnk fun l => { l with outB := l.outB ++ [{ rank, cells := cells.map fun c => { c with lane := .b } }] }

/-- QEFF of a pair: the smaller of its two quotas (R345). -/
def LnkPeer.qeff (p : LnkPeer) : Nat := min p.quotaIn p.remoteQuota

/-- The rank of a class (R347): G, then images, then W, then B. -/
def rankOfCls (cls : Nat) : Nat := if cls = 0 then 0 else if cls = 1 then 2 else 3

/-- Send the RPORT_RSP of a remote CCW (R357 step 3). -/
def State.sendRsp (s : State) (src tag cls : Nat) (st : Status) (dstat : BitVec 16) (residual : Word) (frame : Word)
    (data : List Byte) : State :=
  let first := leBytes 2 st.code ++ leBytes 2 dstat.toNat ++ leBytes 4 residual.toNat ++ leBytes 8 s.stime.toNat ++
    leBytes 4 frame.toNat
  s.sendMsg (rankOfCls cls) (s.laneTo src) (msgCells 5 (cls == 0) s.lnk.node src tag first data)

/-- The remote operation that an operation number of 256 and above stands for. -/
def State.remoteOf (s : State) (n : Nat) : Option RemoteOp := s.lnk.remotes.find? fun r => r.sch == n

/-- The port logic begins a remote operation at the target: this is its frame of execution (R357 step 3). -/
def State.remoteBegins (s : State) (n : Nat) : State :=
  if n < 256 then s
  else s.updLnk fun l => { l with remotes := l.remotes.map fun r => if r.sch = n then { r with frame := s.kiln.frame } else r }

/-- The saggar an operation acts for: its subchannel's, or the local saggar a remote CCW is mapped to (R357). -/
def State.opSag (s : State) (n : Nat) : Nat :=
  if n < 256 then s.schSag n else ((s.remoteOf n).map RemoteOp.sag).getD 0

/-- The operation is of class G. -/
def State.opIsG (s : State) (n : Nat) : Bool :=
  if n < 256 then s.schCls n == .g else ((s.remoteOf n).map fun r => r.cls == 0).getD false

/-- A remote operation ends at the target: its answer goes out (R357). -/
def State.endRemote (s : State) (n : Nat) (st : Status) (dstat : BitVec 16) (residual : Word) (data : List Byte) : State :=
  match s.remoteOf n with
  | none => s
  | some r =>
    let s := s.sendRsp r.src r.tag r.cls st dstat residual r.frame data
    let s := s.updLnk fun l => { l with remotes := l.remotes.filter fun x => x.sch != n }
    s.setSch n {}

end Sys2Proof.Machine
end

