-- ==== Sys2Proof/Machine/Flags.lean ====
section
/-! DEFINITION. The status flags of a port: DSTAT and ESTAT with the status each bit ends a CCW with (R221), the SENSE blocks
of every kind (R220), and the condition codes of TEST and WAITC (R76). -/

namespace Sys2Proof.Machine

/-! ### Serial line figures -/

/-- The serial mode in force (Table 9.5). -/
def State.serialMode (s : State) (p : Nat) : Nat := fld (s.liveWord p 0) 4 4
def State.liveMb (s : State) (p : Nat) : Bool := bit (s.liveWord p 0) 8
def State.bitNs (s : State) (p : Nat) : Nat := fld (s.liveWord p 1) 0 23

/-- The character time C in ns (R223). -/
def State.charNs (s : State) (p : Nat) : Nat :=
  let w := s.liveWord p 2
  (1 + (if bit w 0 then 7 else 8) + (if fld w 1 2 = 0 then 0 else 1) + (if bit w 3 then 2 else 1)) * s.bitNs p

/-- The idle time that ends a received frame: T_sil with MB, GAP characters without; none when GAP is 0 (R224). -/
def State.frameGap (s : State) (p : Nat) : Option Nat :=
  let w := s.liveWord p 2
  if s.liveMb p then some (if fld w 16 16 = 0 then ceilDiv (7 * s.charNs p) 2 else 1000 * fld w 16 16)
  else if fld w 8 8 = 0 then none
  else some (fld w 8 8 * s.charNs p)

/-- UART or RS-485: the modes with characters. -/
def State.charMode (s : State) (p : Nat) : Bool := s.serialMode p == 1 || s.serialMode p == 2

/-- Characters that have not left the transmit FIFO yet: their start bit lies ahead (R71). -/
def State.txLevel (s : State) (p : Nat) : Nat :=
  let x := s.port p
  let c := s.charNs p
  if x.lineBusy.isNone || x.txOwner != x.lineBusy || !s.charMode p || c = 0 then x.tx.length
  else min x.tx.length (if s.clk < x.txStart then x.tx.length else ceilDiv (x.txEnd - s.clk) c - 1)

/-! ### Encoder inputs (R239) -/

/-- The place of a quadrature state in its cycle 00, 01, 11, 10 of A and B. -/
def quadPhase (a b : Bool) : Nat := match a, b with
  | false, false => 0 | true, false => 1 | true, true => 2 | false, true => 3

/-- The change of a count by a transition (R239). -/
def encDelta (mode : Nat) (a0 b0 a1 b1 : Bool) : Word :=
  if mode = 1 then
    let d := (quadPhase a1 b1 + 4 - quadPhase a0 b0) % 4
    if d = 1 then (if Config.aLeadsUp then 1 else -1) else if d = 3 then (if Config.aLeadsUp then -1 else 1) else 0
  else if mode = 2 then (if !a0 && a1 then (if b1 then 1 else -1) else 0)
  else if mode = 3 then (if !a0 && a1 then 1 else 0) - (if !b0 && b1 then 1 else 0)
  else 0

/-- FILTER of an encoder input, the minimum state time in ns (R239). -/
def State.encFilter (s : State) (i : Nat) : Nat := fld (s.liveWord (0x80 + i) 1) 0 8

/-- The input at present: levels that have stood for FILTER ns count, by the mode (R239). -/
def State.encNow (s : State) (i : Nat) : Enc :=
  let e := s.enc i
  let w := s.liveWord (0x80 + i) 0
  let mode := fld w 4 4
  if (e.rawA == e.a && e.rawB == e.b) || s.clk < e.rawAt + s.encFilter i then e
  else if !bit w 0 then { e with a := e.rawA, b := e.rawB }
  else if mode = 1 && e.a != e.rawA && e.b != e.rawB then { e with a := e.rawA, b := e.rawB, qerr := true }
  else { e with a := e.rawA, b := e.rawB, count := e.count + encDelta mode e.a e.b e.rawA e.rawB }

/-! ### DSTAT -/

/-- A flag at a DSTAT bit. -/
def dbit (i : Nat) (b : Bool) : BitVec 16 := if b then BitVec.ofNat 16 (1 <<< i) else 0

/-- The DSTAT bits that stand on a port whatever the CCW: conditions since the previous CCW, error states, SAFE and OFF
(Table 9.4, R274, R282). -/
def State.standing (s : State) (n p : Nat) : BitVec 16 :=
  let x := s.port p
  let k := portKind p
  let common := dbit 14 x.safe ||| dbit 15 (decide (1 ≤ k ∧ k ≤ 7) && !bit (s.liveWord p 0) 0)
  if k = 1 then common
  else if k = 2 then
    common ||| dbit 0 (x.canState == 2) ||| dbit 1 (x.canState == 1) ||| dbit 2 (decide (96 ≤ x.tec) || decide (96 ≤ x.recErr)) |||
      dbit 4 (x.abandon.contains n) ||| dbit 5 x.rxOvr
  else if k = 3 then common ||| dbit 1 (x.abandon.contains n) ||| dbit 2 x.rxDrop
  else if k = 4 then common ||| dbit 0 s.gpio.capOvr ||| dbit 1 s.gpio.snapOvr
  else if k = 6 then let e := s.encNow (p - 0x80); common ||| dbit 0 e.qerr ||| dbit 1 e.capOvr
  else if k = 8 then let m := s.wm (p - 0xA0); dbit 0 m.latch ||| dbit 1 (!m.valid)
  else if k = 9 then dbit 0 s.adc.dropSeen ||| dbit 1 s.adc.clipSeen ||| dbit 2 s.adc.cfgErr
  else common

/-- The conditions "since the previous CCW" start afresh at a completion (Table 9.4). -/
def State.clearSince (s : State) (n p : Nat) : State :=
  let k := portKind p
  if k = 2 then s.updPort p fun x => { x with rxOvr := false, abandon := x.abandon.filter (· != n) }
  else if k = 3 then s.updPort p fun x => { x with rxDrop := false, abandon := x.abandon.filter (· != n) }
  else if k = 4 then { s with gpio := { s.gpio with capOvr := false, snapOvr := false } }
  else if k = 6 then s.setEnc (p - 0x80) { s.enc (p - 0x80) with qerr := false, capOvr := false }
  else if k = 9 then { s with adc := { s.adc with dropSeen := false, clipSeen := false } }
  else s

/-- The status that DSTAT gives a CCW (the last column of Table 9.4): none = the bits only inform. -/
def dstatStatus (p : Nat) (op : Byte) (d : BitVec 16) : Option Status :=
  let k := portKind p
  if bit d 15 && op != 0x04 then some .portError
  else if k = 1 then
    if bit d 8 then some .portTimeout
    else if d &&& 0b0000111011011111 != 0 then some .portError else none
  else if k = 2 then
    if (bit d 0 && op == 0x01) || bit d 3 || bit d 8 || (bit d 4 && op == 0x09) then some .portError else none
  else if k = 3 then
    if bit d 0 || bit d 4 || (bit d 1 && op == 0x09) then some .portError else none
  else none

/-- Accumulate the sticky bits of ESTAT (R220). -/
def State.addEstat (s : State) (p : Nat) (d : BitVec 16) : State :=
  let d := d &&& 0x3FFF
  let k := portKind p
  if d = 0 then s
  else if k = 8 then s.updWm (p - 0xA0) fun m => { m with estat := m.estat ||| d }
  else if k = 9 then { s with adc := { s.adc with estat := s.adc.estat ||| d } }
  else s.updPort p fun x => { x with estat := x.estat ||| d }

/-- ESTAT as SENSE reads it: bits 14 and 15 show the port's state now (R220). -/
def State.estatNow (s : State) (p : Nat) : BitVec 16 :=
  let k := portKind p
  if k = 8 then (s.wm (p - 0xA0)).estat
  else if k = 9 then s.adc.estat
  else (s.port p).estat ||| dbit 14 (s.port p).safe ||| dbit 15 (!bit (s.liveWord p 0) 0)

/-- Count a dropped byte, frame, record or snapshot (Table 9.2 DROPS). -/
def State.drops (s : State) (p : Nat) : State := s.updPort p fun x => { x with drops := sat16 x.drops }

/-! ### SENSE blocks -/

/-- Bytes waiting in a list of transmit records. -/
def ethBytes (rs : List EthTx) : Nat := rs.foldl (fun n r => n + r.record.length) 0

/-- The map of message buffers with a property. -/
def mbMap (mbs : Store CanMb) (f : CanMb → Bool) : Nat := mbs.foldl (fun n e => if f e.2 then n + 2 ^ e.1 else n) 0

/-- SLOT: the slot of the next converter record, W mod NREC (Table 11.4). -/
def Adc.slot (a : Adc) : Nat :=
  match a.due with
  | some d => d.slot
  | none => if a.live.nrec = 0 then 0 else a.w % a.live.nrec

/-- Bytes 4 to 31 of the SENSE block of each kind (chapters 9 and 11). -/
def State.senseTail (s : State) (p : Nat) : List Byte :=
  let x := s.port p
  let k := portKind p
  if k = 1 then
    leBytes 2 x.rx.length ++ leBytes 2 (s.txLevel p) ++ leBytes 8 x.rxStime.toNat ++ leBytes 4 x.rxTotal.toNat ++ zeros 12
  else if k = 2 then
    leBytes 1 x.tec ++ leBytes 1 x.recErr ++ leBytes 1 x.canState ++
      leBytes 1 ((x.mbs.filter fun e => e.2.kind == 1 && e.2.full).length) ++ leBytes 8 x.lastTxStime.toNat ++
      leBytes 8 (mbMap x.mbs fun m => m.kind == 2 && m.full) ++ leBytes 8 (mbMap x.mbs fun m => m.kind == 1 && m.full)
  else if k = 3 then
    leBytes 2 x.ethRx.length ++ leBytes 2 (ethBytes x.ethTx) ++ leBytes 8 x.lastTxStime.toNat ++ leBytes 2 x.txTag.toNat ++
      leBytes 2 x.mdioData.toNat ++ leBytes 1 (b2n x.mdioValid) ++ zeros 3 ++ leBytes 4 x.dropped.toNat ++
      leBytes 4 x.fcsErrs.toNat
  else if k = 4 then
    leBytes 2 s.gpio.capture.length ++ leBytes 2 s.gpio.snaps.length ++ leBytes 8 s.gpio.level.toNat ++
      leBytes 8 s.gpio.edgeFlags.toNat ++ leBytes 8 s.gpio.out.toNat
  else if k = 5 then
    leBytes 4 (fld (s.liveWord p 1) 0 24) ++ leBytes 4 (s.pwm (p - 0x70)).duty ++ leBytes 4 (s.pwm (p - 0x70)).staged ++ zeros 16
  else if k = 6 then
    let e := s.encNow (p - 0x80)
    leBytes 4 e.count.toNat ++ leBytes 4 e.latched.toNat ++ leBytes 4 e.indexCount.toNat ++ leBytes 8 e.indexStime.toNat ++
      leBytes 2 e.capture.length ++ zeros 6
  else if k = 7 then leBytes 2 (s.dac (p - 0x88)).code ++ leBytes 2 (s.dac (p - 0x88)).staged ++ zeros 24
  else if k = 8 then
    let m := s.wm (p - 0xA0)
    leBytes 2 m.cfg.upper ++ leBytes 2 m.cfg.lower ++
      leBytes 1 (b2n m.latch + 2 * b2n m.above + 4 * b2n m.below + 8 * b2n m.valid + 16 * b2n (s.tripDriven (p - 0xA0))) ++
      leBytes 1 m.cfg.hyst ++ leBytes 2 m.sets ++ leBytes 8 m.last.toNat ++ zeros 12
  else if k = 9 then
    leBytes 2 s.adc.slot ++ leBytes 2 s.adc.cfg.nrec ++
      leBytes 4 s.adc.lastFrame.toNat ++ leBytes 4 s.adc.written.toNat ++ leBytes 4 s.adc.notWritten.toNat ++ zeros 12
  else zeros 28

/-- The node-service block (R74). Of a remote CCW it names the issuing subchannel, whose number is the low byte of the message's tag;
the issuer puts its own loop counters into the block (log entry 85). -/
def State.nodeBlock (s : State) (n : Nat) : List Byte :=
  let c := s.sch n
  leBytes 8 s.stime.toNat ++ leBytes 4 s.kiln.frame.toNat ++ leBytes 2 (n % 256) ++ leBytes 1 (s.opSag n) ++ leBytes 1 s.lnk.node ++
    leBytes 4 c.lc0.toNat ++ leBytes 4 c.lc1.toNat ++ leBytes 4 c.lc2.toNat ++ leBytes 4 c.lc3.toNat

/-- The 32 bytes of a port's SENSE block (R220). -/
def State.senseBlock (s : State) (n p : Nat) : List Byte :=
  if p = 0x1FF then s.nodeBlock n
  else
    leBytes 2 (s.estatNow p).toNat ++ leBytes 1 (portKind p) ++
      leBytes 1 (if portKind p ≤ 7 then fld (s.liveWord p 0) 4 4 else 0) ++ s.senseTail p

/-! ### Condition codes (R76) -/

/-- The right a condition needs: a port to observe; none for classes without one. -/
def condPort (code : Nat) : Option Nat :=
  let i := code % 256
  match code / 256 with
  | 0 => some (0xA0 + i)
  | 1 => some (0xA0 + i)
  | 2 => none
  | 3 => some 0x60
  | 4 => some 0x60
  | _ => none

/-- The class is defined and the index within its range (Table 3.8). -/
def condValid (code : Nat) : Bool :=
  let i := code % 256
  match code / 256 with
  | 0 => decide (i < 32)
  | 1 => decide (i < 32)
  | 2 => decide (i < 8)
  | 3 => decide (i < 64)
  | 4 => decide (i < 64)
  | 5 => decide (i < 16)
  | 6 => decide (i < 4)
  | 7 => decide (i < 128)
  | _ => false

/-- A node is present on the ring; off the ring only node 0 is (Table 3.8). -/
def State.present (s : State) (i : Nat) : Bool := if s.lnk.en then bit s.lnk.pres i else i == 0

/-- The loop counter by number. -/
def Sch.lc (c : Sch) (i : Nat) : Word :=
  if i = 0 then c.lc0 else if i = 1 then c.lc1 else if i = 2 then c.lc2 else c.lc3

/-- Load a loop counter. -/
def Sch.setLc (c : Sch) (i : Nat) (v : Word) : Sch :=
  if i = 0 then { c with lc0 := v } else if i = 1 then { c with lc1 := v } else if i = 2 then { c with lc2 := v }
  else { c with lc3 := v }

/-- Does the condition hold for subchannel `n` now (Table 3.8)? A monitor in no valid state is not inside its window. -/
def State.cond (s : State) (n code : Nat) : Bool :=
  let i := code % 256
  match code / 256 with
  | 0 => (s.wm i).latch
  | 1 => (s.wm i).valid && !(s.wm i).above && !(s.wm i).below
  | 2 => s.tripDriven i
  | 3 => bit s.gpio.level i
  | 4 => bit s.gpio.edgeFlags i
  | 5 => bit (s.sch n).dstat i
  | 6 => (s.sch n).lc i == 0
  | 7 => s.present i
  | _ => false

end Sys2Proof.Machine
end

