-- ==== Sys2Proof/Machine/Buffers.lean ====
section
/-! DEFINITION. The data of a port CCW: its counts (R58, R86, R227), the pieces of memory that a buffer or a buffer list gives it
(R52, R53, R89), and the reading of list elements and transmit data when the transfer reaches them. -/

namespace Sys2Proof.Machine

/-! ### Targets and counts -/

def Ccw.node (c : Ccw) : Nat := fld c.tgt 9 7
def Ccw.port (c : Ccw) : Nat := fld c.tgt 0 9

/-- TGT names another node (R51). -/
def State.isRemote (s : State) (c : Ccw) : Bool := c.node != s.lnk.node

/-- Bytes a CCW transmits. -/
def Ccw.txLen (c : Ccw) : Nat :=
  if c.op == 0x05 then fld c.count 0 16 else if c.op == 0x01 || c.op == 0x03 || c.op == 0x0A then c.count.toNat else 0

/-- Bytes a CCW may receive; an I²C READ uses COUNT[23:0] (R227). -/
def Ccw.rxLen (c : Ccw) (i2c : Bool) : Nat :=
  if c.op == 0x05 then fld c.count 16 16
  else if c.op == 0x02 then (if i2c then fld c.count 0 24 else c.count.toNat)
  else if c.op == 0x04 || c.op == 0x0B then c.count.toNat
  else 0

/-- The byte count a CCW's RESIDUAL counts down from (R58, R86). -/
def Ccw.expect (c : Ccw) (i2c : Bool) : Nat := if c.op == 0x05 || c.op == 0x02 || c.op == 0x04 then c.rxLen i2c else c.count.toNat

/-- The CCW stores what it receives: a READ, SENSE, EXCHANGE or SNAP without DROP (R58, R89). -/
def Ccw.stores (c : Ccw) : Bool := !c.drop && (c.op == 0x02 || c.op == 0x04 || c.op == 0x05 || c.op == 0x0B)

/-- The bytes of data that a CCW's buffer covers: all of them, or with DROP only the transmitted part. -/
def Ccw.bufLen (c : Ccw) (i2c : Bool) : Nat := c.txLen + (if c.drop then 0 else c.rxLen i2c)

/-- Does the CCW use ADDR at all (R89)? -/
def Ccw.usesAddr (c : Ccw) : Bool := !(c.drop && (c.op == 0x02 || c.op == 0x04))

/-- A CCW's COUNT is that of an I²C READ: on this node by the port's mode. The MODE of another node's port is not known here; a READ
of its serial port that carries an address in COUNT[30:24] is one (log entry 85). -/
def State.ccwI2c (s : State) (c : Ccw) : Bool :=
  portKind c.port == 1 &&
    (if s.isRemote c then c.op == 0x02 && !bit c.count 31 && fld c.count 24 7 != 0 else s.portMode c.port == 4)

/-! ### The operation of a subchannel -/

/-- Set the operation of a subchannel. -/
def State.updOp (s : State) (n : Nat) (f : PortOp → PortOp) : State := s.updSch n fun c => { c with op := c.op.map f }

/-- The operation's list stops being good after `k` bytes of data, with the status this gives (R54). -/
def PortOp.stopAt (o : PortOp) (k : Nat) (st : Status) : PortOp := { o with listNext := none, limit := some (k, st) }

/-- Bytes that the pieces of an operation cover. -/
def PortOp.covered (o : PortOp) : Nat := o.pieces.foldl (fun n e => n + e.2) 0

/-- The piece and the place in it where byte `k` of the data lies. -/
def pieceAt : List (DWord × Nat) → Nat → Option (DWord × Nat)
  | [], _ => none
  | (a, n) :: rest, k => if k < n then some (DWord.plus a k, n - k) else pieceAt rest (k - n)

/-- The bytes of data that an operation needs covered by pieces. -/
def State.opNeed (s : State) (o : PortOp) : Nat := if o.ccw.usesAddr then o.ccw.bufLen (s.ccwI2c o.ccw) else 0

/-! ### Storing -/

/-- Store bytes along pieces, after skipping `skip` bytes of them. -/
def State.storePieces (s : State) (sag : Nat) : List (DWord × Nat) → Nat → List Byte → State
  | [], _, _ => s
  | (a, len) :: rest, skip, bs =>
    if bs.isEmpty then s
    else if len ≤ skip then State.storePieces s sag rest (skip - len) bs
    else
      let room := len - skip
      let s := s.memWrite sag (DWord.plus a skip) (bs.take room)
      State.storePieces s sag rest 0 (bs.drop room)

/-! ### Buffer lists (R53) -/

/-- One element of a buffer list: its piece, or the status a bad one gives (R53, R52, R39). The bytes from `skip` on are written to
memory. -/
def State.element (s : State) (sag : Nat) (b : List Byte) (skip : Nat) : Except Status (DWord × Nat) :=
  let a : DWord := BitVec.ofNat 64 (leAt b 0 8)
  let n := leAt b 8 4
  if n = 0 || decide (2 ^ 24 < n) || leAt b 12 4 ≠ 0 then .error .programCheck
  else match s.checkRange sag a n with
    | some st => .error st
    | none => if isLs a && s.lsLocked sag (lsOff a + skip) (n - skip) then .error .protectionCheck else .ok (a, n)

/-- Add a list element that was read. -/
def State.addElement (s : State) (n : Nat) (o : PortOp) (b : List Byte) : PortOp :=
  let covered := o.covered
  let skip := if o.ccw.stores then o.ccw.txLen - covered else 2 ^ 24
  let o := { o with elems := o.elems + 1, elemBusy := false }
  match s.element (s.schSag n) b skip with
  | .error st => o.stopAt covered st
  | .ok piece =>
    let have' := covered + piece.2
    let more := decide (have' < s.opNeed o)
    { o with
      pieces := o.pieces ++ [piece]
      limit := if more && o.elems = 256 then some (have', .programCheck) else none
      listNext := if more && decide (o.elems < 256) then o.listNext.map fun a => DWord.plus a 16 else none }

/-- The list element at `a` is read: from local store at once, for one work unit (Table 2.6); from host memory by a request. -/
def State.readElement (s : State) (n : Nat) (o : PortOp) (a : DWord) : State :=
  let sag := s.schSag n
  let set (s : State) (o : PortOp) : State := s.updSch n fun x => { x with op := some o }
  if isLs a then
    match s.checkRange sag a 16 with
    | some st => set s (o.stopAt o.covered st)
    | none =>
      if s.lsPoisoned sag (lsOff a) 16 then set s (o.stopAt o.covered .dataIntegrity)
      else set (s.charge n 1) (s.addElement n o (s.lsRead sag (lsOff a) 16))
  else if (s.fn sag).busMaster then (set s { o with elemBusy := true }).hostRead sag a 16 (.element n)
  else set s (o.stopAt o.covered .dataIntegrity)

/-- The transfer has reached byte `k` of its data: the elements up to it are read. The first argument bounds their number. -/
def State.cover (n k : Nat) : Nat → State → State
  | 0, s => s
  | f + 1, s =>
    match (s.sch n).op with
    | none => s
    | some o =>
      match o.listNext with
      | none => s
      | some a => if k ≤ o.covered || o.elemBusy then s else State.cover n k f (s.readElement n o a)

/-- The number of elements one CCW may consume, and one (R53). -/
def coverFuel : Nat := 257

/-- The transfer's data up to byte `k` have their place, or none will come. -/
def PortOp.coversTo (o : PortOp) (k : Nat) : Bool := o.listNext.isNone || decide (k ≤ o.covered)

/-! ### Transmit data -/

/-- Where the transmit data of an operation end: at COUNT, or where its list or a read stopped being good. -/
def PortOp.txStop (o : PortOp) : Nat := match o.limit with | some (m, _) => min m o.ccw.txLen | none => o.ccw.txLen

/-- Read the transmit data of a port CCW piece by piece, with the list elements they need; host memory is read by requests that
HOST_READ_RETURN answers. The last argument bounds the pieces read at once. -/
def State.prepTx (n : Nat) : Nat → State → State
  | 0, s => s
  | f + 1, s =>
    let s := match (s.sch n).op with
      | some o => if o.txStop ≤ o.tx.length then s else State.cover n (o.tx.length + 1) coverFuel s
      | none => s
    match (s.sch n).op with
    | none => s
    | some o =>
      let got := o.tx.length
      if o.txStop ≤ got then s
      else match pieceAt o.pieces got with
        | none => s
        | some (a, room) =>
          let sag := s.schSag n
          let len := min room (o.txStop - got)
          let set (o : PortOp) : State := s.updSch n fun x => { x with op := some o }
          if isLs a then
            if !s.lsMapped sag (lsOff a) len then State.prepTx n f (set (o.stopAt got .addressCheck))
            else if s.lsPoisoned sag (lsOff a) len then State.prepTx n f (set (o.stopAt got .dataIntegrity))
            else State.prepTx n f (set { o with tx := o.tx ++ s.lsRead sag (lsOff a) len })
          else if (s.fn sag).busMaster then s.hostRead sag a len (.data n)
          else State.prepTx n f (set (o.stopAt got .dataIntegrity))

/-- The bound of `prepTx`: 256 pieces, each read and perhaps cut once. -/
def prepFuel : Nat := 520

/-- The transmit data are at hand, as far as they go. A remote CCW at its target brings them along. -/
def State.txReady (s : State) (n : Nat) : Bool :=
  decide (256 ≤ n) || (match (s.sch n).op with | some o => decide (o.txStop ≤ o.tx.length) | none => false)

end Sys2Proof.Machine
end

