-- ==== Sys2Proof/Machine/Line.lean ====
section
/-! DEFINITION. The port logic: the service order of a port's operations (R214), their beginning, their bytes, and their end
(R58, R86, R215, R221), with the safe-state rules of R403 and R404, the FIFO zeroing of R176 and the handover of R248. -/

namespace Sys2Proof.Machine

/-! ### Serial line figures -/

/-- Is the port in I²C mode? -/
def State.isI2c (s : State) (p : Nat) : Bool := portKind p == 1 && s.serialMode p == 4

/-! ### The transmission on a line (R223, R226) -/

/-- The transmit bytes of a frame with Modbus assist: the last two are the CRC-16 of the others (R225). -/
def modbusFrame (bs : List Byte) : List Byte :=
  let body := bs.take (bs.length - 2)
  body ++ leBytes 2 (crc16 body).toNat

/-- The minimum setup of a line operation: 200 ns, and DE_LEAD in RS-485 or CS_LEAD in SPI (R223, R226). -/
def State.minSetup (s : State) (p : Nat) : Nat :=
  200 + (if s.serialMode p = 2 || s.serialMode p = 3 then fld (s.liveWord p 3) 0 16 else 0)

/-- The instant at which the port logic accepts an operation now: not while a segment still runs or MONO_NS holds (R214, R228). -/
def State.acceptAt (s : State) (p : Nat) : Nat := max s.clk (s.port p).lineAt

/-- What the transmit FIFO holds now, and who wrote it. -/
def State.txNow (s : State) (p : Nat) : List Byte := (s.port p).tx.drop ((s.port p).tx.length - s.txLevel p)
def State.txByNow (s : State) (p : Nat) : List Nat := (s.port p).txBy.drop ((s.port p).txBy.length - s.txLevel p)

/-- `k` characters follow what the line still sends, or, where it sends nothing, begin `setup` ns after the port logic accepts
them; `more`: the transmission goes on. -/
def State.sendChars (s : State) (p k setup : Nat) (more : Bool) : State :=
  let c := s.charNs p
  s.updPort p fun x =>
    if more then { x with txEnd := max x.txEnd s.clk + k * c }
    else { x with txStart := s.acceptAt p + setup, txEnd := s.acceptAt p + setup + k * c }

/-! ### A push and a pop in one cycle (R218) -/

/-- The overrun flag of a FIFO: of a serial port, OVR in the DSTAT of its receiving CCWs (Table 9.4). -/
def State.overrun (s : State) (p fifo : Nat) : Bool :=
  if fifo = 1 then s.gpio.capOvr else if fifo = 2 then s.gpio.snapOvr else if fifo = 3 then (s.enc (p - 0x80)).capOvr
  else s.schs.any fun e => match e.2.op with | some o => o.port == p && o.phase != .remote && bit o.dstat 2 | none => false

/-- Set the overrun flag of a FIFO. -/
def State.setOverrun (s : State) (p fifo : Nat) (b : Bool) : State :=
  if fifo = 1 then { s with gpio := { s.gpio with capOvr := b } }
  else if fifo = 2 then { s with gpio := { s.gpio with snapOvr := b } }
  else if fifo = 3 then s.setEnc (p - 0x80) { s.enc (p - 0x80) with capOvr := b }
  else s.schs.foldl (fun s e => match e.2.op with
    | some o =>
      if o.port == p && o.phase != .remote && (o.ccw.op == 0x02 || o.ccw.op == 0x05) then
        s.updOp e.1 fun o => { o with dstat := setBit o.dstat 2 b }
      else s
    | none => s) s

/-- The bit of ESTAT that an overrun of a FIFO sets (Table 9.4). -/
def overrunBit (fifo : Nat) : Nat := if fifo = 0 then 2 else if fifo = 1 then 0 else 1

/-- A push into a full FIFO is dropped, counted and flagged; what it changed is kept for a pop in the same cycle. -/
def State.dropFull (s : State) (p fifo : Nat) (rx : Option RxByte) (r : List Byte) : State :=
  let x := s.port p
  let l : LateDrop := { fifo, at_ := s.clk, rx, record := r, drops := x.drops, estat := x.estat, flag := s.overrun p fifo }
  (((s.setOverrun p fifo true).drops p).addEstat p (dbit (overrunBit fifo) true)).updPort p fun x => { x with late := some l }

/-- A pop has made room: an entry dropped in this very cycle takes the freed place, and no overflow is flagged. -/
def State.popLate (s : State) (p fifo : Nat) : State :=
  match (s.port p).late with
  | none => s
  | some l =>
    if l.at_ ≠ s.clk || l.fifo ≠ fifo then s
    else
      let s := (s.setOverrun p l.fifo l.flag).updPort p fun x => { x with drops := l.drops, estat := l.estat, late := none }
      if l.fifo = 1 then { s with gpio := { s.gpio with capture := s.gpio.capture ++ [l.record] } }
      else if l.fifo = 2 then { s with gpio := { s.gpio with snaps := s.gpio.snaps ++ [l.record] } }
      else if l.fifo = 3 then s.setEnc (p - 0x80) { s.enc (p - 0x80) with capture := (s.enc (p - 0x80)).capture ++ [l.record] }
      else s.updPort p fun x => { x with rx := x.rx ++ l.rx.toList }

/-! ### The safe state (R403, R404) -/

/-- Every saggar but 0 that holds ACTUATE on one of the ports. -/
def State.actuators (s : State) (ports : List Nat) : List Nat :=
  (List.range 63).filterMap fun i =>
    if ports.any fun p => bit (s.sag (i + 1)).actuate p then some (i + 1) else none

/-- SAFE_APPLIED and SAFE_RELEASED: once to saggar 0, once to each saggar that holds ACTUATE on an affected port (R406). -/
def State.safeEvent (s : State) (code cause : Nat) (ports : List Nat) (except : Option Nat) : State :=
  if ports.isEmpty then s
  else
    let s := s.raiseF 0 code cause ports.length
    (s.actuators ports).foldl (fun s g =>
      if except == some g then s
      else s.raiseF g code cause ((ports.filter fun p => bit (s.sag g).actuate p).length)) s

/-- A CCW of this operation qualifies to end a safe state: ACTUATE, HB_DOWN = 0, no supervisor cause held (R404). -/
def State.qualifies (s : State) (n p : Nat) : Bool :=
  bit (s.sag (s.opSag n)).actuate p && !(s.sag (s.opSag n)).hbDown && !(s.port p).supCause

/-! ### Beginning and ending an operation -/

/-- The line operation that bytes of the block mover form (section 9.5); it has no subchannel. -/
def moverOp : Nat := opLimit

/-- Bytes of the block mover that waited for the port logic form a line operation of their own (R223). -/
def State.sendWaiting (s : State) (p : Nat) : State :=
  let x := s.port p
  if x.waitTx.isEmpty then s
  else
    let n := x.waitTx.length
    (s.setPort p { x with
      tx := x.waitTx, txBy := x.waitBy, waitTx := [], waitBy := [], lineBusy := some moverOp, txOwner := some moverOp, brkPt := false
      de := x.de || s.serialMode p == 2, txTurn := if s.serialMode p = 2 then s.turnNs p else 0 }).sendChars p n (s.minSetup p) false

/-- Release the line of a port: chip select rises CS_LAG later (R226), and a WRITE whose line a G CCW took goes on (R214). -/
def State.freeLine (s : State) (p : Nat) : State :=
  let x := s.port p
  let lag := if s.serialMode p = 3 && x.csLow then s.clk + fld (s.liveWord p 3) 16 16 else x.csRise
  let s := s.setPort p { x with lineBusy := none, sent := [], frameRx := [], csLow := false, csRise := lag, spanMb := none }
  match x.segment with
  | none => s.sendWaiting p
  | some g =>
    (s.updPort p fun x => { x with
      segment := none, tx := g.tx, txBy := g.by_, lineBusy := some g.owner, txOwner := some g.owner, brkPt := g.brkPt }).sendChars p
        g.tx.length (s.minSetup p) false

/-- The older CCWs of a port are done: an accepted configuration write comes into force (R212). -/
def State.liveCheck (s : State) (p : Nat) : State :=
  let x := s.port p
  match x.live with
  | none => s
  | some ws =>
    let seqs := s.schs.filterMap fun e => match e.2.op with | some o => if o.port == p && o.phase != .remote then some o.seq else none | none => none
    match ((ws, x.liveSeq) :: x.later).dropWhile fun e => !seqs.any fun q => decide (q < e.2) with
    | [] => s.setPort p { x with live := none, liveSeq := 0, later := [] }
    | (ws, q) :: r => s.setPort p { x with live := some ws, liveSeq := q, later := r }

/-- The bytes of an operation that were moved. -/
def PortOp.moved (o : PortOp) : Nat := if o.ccw.op == 0x01 || o.ccw.op == 0x03 then o.txCount else o.rxCount

/-- The transfer of operation `n` is over: the received bytes are stored, DSTAT and RESIDUAL are formed, and the CCW completes
with its status (R58, R86, R87, R221). `forced` is a status that other rules give it. Answers the CCW's status. -/
def State.closeOp (s : State) (n : Nat) (o : PortOp) (forced : Option Status) : Status × State :=
  let c := o.ccw
  let i2c := s.isI2c o.port
  let expect := c.expect i2c
  let cut := match o.limit with
    | some (k, st) =>
      if k < c.txLen then some (o.moved, st)
      else if k - c.txLen < o.moved && c.stores then some (k - c.txLen, st)
      else none
    | none => none
  let room := if c.list && c.stores && decide (n < 256) then o.covered - c.txLen else o.moved
  let moved := match cut with | some (k, _) => k | none => min o.moved room
  let dstat := o.dstat ||| s.standing n o.port
  let st := match forced, cut, dstatStatus o.port c.op dstat with
    | some st, _, _ => st
    | none, some (_, st), _ => st
    | none, none, some st => st
    | none, none, none => if moved ≠ expect || o.frameLong then .lengthMismatch else .ok
  let rx := o.rx.take moved
  let s := if n < 256 && c.stores && !rx.isEmpty then s.storePieces (s.opSag n) o.pieces (if c.op == 0x05 then c.txLen else 0) rx else s
  let s := s.addEstat o.port dstat
  let s := if (st == .portError || st == .portTimeout) && decide (portKind o.port ≤ 7) then
      s.updPort o.port fun x => { x with errs := sat16 x.errs } else s
  let s := s.clearSince n o.port
  let res := w32 (expect - moved)
  if n < 256 then (st, s.updSch n fun x => { x with residual := res, dstat })
  else (st, s.endRemote n st dstat res rx)

/-- The receiving CCW of a serial port is complete: a break no longer waits to be reported (R223). -/
def State.clearBreak (s : State) (p : Nat) : State := s.updPort p fun x => { x with brk := false }

/-- The CCW of an operation completes; a read span that ended short is read forward (R88). -/
def State.opDone (s : State) (n : Nat) (o : PortOp) (st : Status) : State :=
  if n < 256 then
    let x := s.sch n
    let s := s.ccwDoneCore n o.ccw st (x.nextPc x.curPc)
    if o.ccw.span && st == .lengthMismatch && ((s.sch n).state == .active || (s.sch n).state == .halting) then
      s.updSch n fun x => { x with span := some (o.ccw.op, o.ccw.tgt), spanSkip := true }
    else s
  else s

/-- A WRITE has put its record into a buffer of a CAN FD or Ethernet port: its data phase ends when the frame has been sent. -/
def PortOp.recordSent (o : PortOp) : Bool := o.ccw.op == 0x01 && portKind o.port != 1 && o.txCount != 0

/-- A break point of the holder after its port CCW, unless HOLD or SPAN is set; that of a record on its way comes later (R247,
R248). -/
def State.opBreak (s : State) (n : Nat) (o : PortOp) : State :=
  if o.ccw.hold || o.ccw.span || !s.portShared o.port || o.recordSent then s else (s.breakPoint o.port n).2

/-- End an operation that leaves the line free: a receive, a SENSE, a CONTROL, an error. The requests for a SHARED port are sampled
here, where no instant t5 has sampled them before (R248). On a SHARED port the line stays with a WRITE of a record until its frame
has been sent. -/
def State.endOp (s : State) (n : Nat) (o : PortOp) (forced : Option Status) : State :=
  let s := if o.phase == .ended && o.ccw.op != 0x03 then s else s.sampleReqs o.port n
  let (st, s) := s.closeOp n o forced
  let s := if portKind o.port = 1 && (o.ccw.op == 0x02 || o.ccw.op == 0x05) then s.clearBreak o.port else s
  let s := s.updSch n fun x => { x with op := none }
  let s := if (s.port o.port).lineBusy == some n && !(o.ccw.span && st == .ok) && !(o.recordSent && s.portShared o.port) then s.freeLine o.port else s
  let s := s.liveCheck o.port
  let s := s.opBreak n o
  s.opDone n o st

/-- Bytes whose values nothing here gives. -/
def State.drawBytes : Nat → State → List Byte × State
  | 0, s => ([], s)
  | k + 1, s =>
    let (v, s) := s.draw
    let (bs, s) := State.drawBytes k s
    (v.setWidth 8 :: bs, s)

/-- What a transfer has moved when it is stopped at the next byte boundary (R108, R211, R403): of a WRITE the characters that have
left the line; of SPI and I²C the bytes clocked since t1, whose received values are free. A character receive counts its own. -/
def State.cutOp (s : State) (n : Nat) (o : PortOp) : PortOp × State :=
  let p := o.port
  let x := s.port p
  if portKind p ≠ 1 || o.phase != .line || x.lineBusy != some n then (o, s)
  else if s.charMode p then
    let left := if s.clk < x.txStart then (x.txEnd - x.txStart) / s.charNs p else (x.txEnd - s.clk) / s.charNs p
    ((if o.ccw.op == 0x01 then { o with txCount := o.tx.length - left } else o), s)
  else
    let per := (if s.serialMode p = 4 then 9 else 8) * s.bitNs p
    let k := if s.serialMode p = 5 then 0 else ceilDiv (s.clk - o.t1) per
    let tx := min k o.tx.length
    let rx := if o.ccw.op == 0x02 then min k (o.ccw.rxLen (s.isI2c p))
      else if o.ccw.op == 0x05 then min (ceilDiv (s.clk - (o.t1 + o.tx.length * per + o.turnNs)) per) (o.ccw.rxLen false)
      else 0
    let (bs, s) := s.drawBytes rx
    ({ o with txCount := tx, rx := bs, rxCount := rx }, s)

/-- A read span that ended short has been read forward to its last CCW: there the port's transfer is over, and with no HOLD the
break point of the span (R85, R88, R247). -/
def State.spanBreak (s : State) (n p : Nat) (hold : Bool) : State :=
  let s := if (s.port p).lineBusy == some n then s.freeLine p else s
  if hold || !s.portShared p then s else (s.breakPoint p n).2

/-- Zero the FIFOs of a port whose previous CCW came from another saggar (R176); data waiting for transmission stays. -/
def State.zeroOnChange (s : State) (p sag : Nat) : State :=
  let x := s.port p
  if x.prevSag == some sag then s
  else
    let fresh := x.prevSag.isNone
    let s := s.setPort p { x with prevSag := some sag }
    if fresh then s
    else
      let k := portKind p
      if k = 1 then s.updPort p fun x => { x with rx := [] }
      else if k = 2 then s.updPort p fun x => { x with mbs := x.mbs.map fun e => if e.2.kind == 1 then (e.1, { e.2 with full := false, record := [], stime := 0 }) else e }
      else if k = 3 then s.updPort p fun x => { x with ethRx := [] }
      else if k = 4 then { s with gpio := { s.gpio with capture := [], snaps := [] } }
      else if k = 6 then s.setEnc (p - 0x80) { s.enc (p - 0x80) with capture := [] }
      else s

/-- The lowest-numbered free TX message buffer (R232). -/
def Port.freeTx (x : Port) : Option Nat := (List.range 64).find? fun i => let m := x.mbs.get {} i; m.kind == 2 && !m.full

/-- The oldest full RX message buffer, by start-of-frame time (R232). -/
def Port.oldestRx (x : Port) : Option Nat :=
  ((sortBy (fun e => e.2.stime.toNat) (x.mbs.filter fun e => e.2.kind == 1 && e.2.full)).head?).map (·.1)

/-- The permitted LEN values of a CAN record (R230). -/
def canLenOk (n : Nat) : Bool := decide (n ≤ 8) || ([12, 16, 20, 24, 32, 48, 64] : List Nat).contains n

/-- A CAN transmit record is invalid (R231). -/
def State.canBad (s : State) (p : Nat) (r : List Byte) : Bool :=
  let w0 := s.liveWord p 0
  let id := leAt r 0 4
  let len := leAt r 4 1
  let f := leAt r 5 1
  !canLenOk len || decide (r.length ≠ 16 + len) || (decide (8 < len) && f % 2 == 0) || (id / 2 ^ 30 % 2 == 1 && f % 2 == 1) ||
    (f % 2 == 1 && !bit w0 8) || (f / 2 % 2 == 1 && !bit w0 9) || id / 2 ^ 31 != 0 || f / 4 != 0 ||
    leAt r 6 2 != 0 || leAt r 8 8 != 0

/-- An Ethernet transmit record is invalid (R234). -/
def ethBad (r : List Byte) : Bool :=
  let len := leAt r 0 2
  decide (len < 14) || decide (1518 < len) || decide (r.length ≠ 16 + len) || leAt r 2 1 / 2 != 0 || leAt r 3 1 != 0 ||
    leAt r 6 2 != 0 || leAt r 8 8 != 0

/-- The port logic takes the transmit bytes of a WRITE on CAN FD or Ethernet: one record into a free place (R231, R234).
Answers the DSTAT bits of a refusal, and whether it was taken. -/
def State.putRecord (s : State) (n p : Nat) (r : List Byte) (brk : Bool) : BitVec 16 × Bool × State :=
  let x := s.port p
  if portKind p = 2 then
    if x.canState == 2 || bit (s.liveWord p 0) 10 then (dbit 0 true, false, s)
    else if s.canBad p r then (dbit 8 true, false, s)
    else match x.freeTx with
      | none => (dbit 3 true, false, s)
      | some i =>
        (0, true, s.setPort p { x with mbs := x.mbs.set {} i { x.mbs.get {} i with full := true, record := r, queuedAt := s.clk, sch := n, brkPt := brk } })
  else
    if ethBad r then (dbit 4 true, false, s)
    else if 8192 < ethBytes x.ethTx + r.length then (dbit 0 true, false, s)
    else (0, true, s.setPort p { x with ethTx := x.ethTx ++ [{ record := r, queuedAt := s.clk, sch := n, brkPt := brk }] })

/-- Begin a WRITE on a serial port: its bytes enter the transmit FIFO (R58, R111); with Modbus assist the last CCW of the span
carries the CRC in place of the frame's last two bytes (R225). A character WRITE that finds room for its bytes is complete. -/
def State.beginWrite (s : State) (n p : Nat) (o : PortOp) : State :=
  let x := s.port p
  let more := (s.sch n).span.isSome
  let mb := s.liveMb p && s.charMode p && !o.ccw.span
  let frame := x.sent ++ o.tx
  let frame' := if mb then modbusFrame frame else frame
  let held := s.txNow p
  let fifo := held ++ frame'.drop (frame'.length - o.tx.length)
  let setup := s.minSetup p
  let s := s.setPort p { x with
    tx := fifo, sent := frame', lineBusy := some n, txOwner := some n
    txBy := s.txByNow p ++ List.replicate o.tx.length n
    de := x.de || (s.serialMode p == 2 && !o.tx.isEmpty)
    txTurn := if s.serialMode p = 2 then o.turnNs else 0
    brkPt := !o.ccw.hold && !o.ccw.span
    csLow := x.csLow || s.serialMode p == 3 }
  if s.charMode p then
    let s := s.sendChars p o.tx.length setup more
    if fifo.length ≤ 256 then
      let (st, s) := s.closeOp n { o with txCount := o.tx.length } none
      let s := s.updSch n fun x => { x with op := none }
      (s.liveCheck p).opDone n o st
    else s.updOp n fun o => { o with phase := .line, t1 := (s.port p).txStart }
  else s.updOp n fun o => { o with phase := .line, t1 := s.acceptAt p + setup }

/-- Received characters already in the FIFO go to a READ (R58, R215). -/
def State.takeRx (s : State) (n p : Nat) : State :=
  match (s.sch n).op with
  | none => s
  | some o =>
    let x := s.port p
    let want := o.ccw.rxLen false - o.rxCount
    let got := x.rx.take want
    let s := s.setPort p { x with
      rx := x.rx.drop want
      frameRx := x.frameRx ++ got.map RxByte.b
      rxStime := match got with | b :: _ => if o.rxCount = 0 then b.stime else x.rxStime | [] => x.rxStime }
    let s := s.updOp n fun o => { o with
      rx := o.rx ++ got.map RxByte.b
      rxCount := o.rxCount + got.length
      dstat := o.dstat ||| dbit 0 (got.any RxByte.fe) ||| dbit 1 (got.any RxByte.pe) }
    if got.isEmpty then s else s.popLate p 0

/-- With Modbus assist, the CRC of all bytes received is checked at the end of the receive (R225). -/
def State.crcBit (s : State) (p : Nat) : BitVec 16 :=
  let bs := (s.port p).frameRx
  if s.liveMb p && s.charMode p && !bs.isEmpty then
    let body := bs.take (bs.length - 2)
    dbit 4 (decide (bs.length < 3) || leNat (bs.drop (bs.length - 2)) != (crc16 body).toNat)
  else 0

/-- The receive of operation `n` has ended (t5 of Table 3.6): the requests for a SHARED port are sampled (R248). -/
def State.receiveEnds (s : State) (n p : Nat) (extra : BitVec 16) : State :=
  let s := s.updOp n fun o => { o with phase := .ended, dstat := o.dstat ||| extra ||| s.crcBit p ||| dbit 3 (s.port p).brk }
  s.sampleReqs p n

/-- The received bytes of operation `n` have reached the list elements that hold them (R53). -/
def State.coverRx (s : State) (n : Nat) : State :=
  match (s.sch n).op with
  | some o => if o.ccw.stores then State.cover n (o.ccw.txLen + o.rxCount) coverFuel s else s
  | none => s

/-- The bytes received so far have their place, or are known to have none. -/
def PortOp.rxPlaced (o : PortOp) : Bool := !o.ccw.stores || o.coversTo (o.ccw.txLen + o.rxCount)

/-- All that operation `n` receives is at hand: it ends, or it waits for a list element in host memory, whose return ends it. -/
def State.rxDone (s : State) (n : Nat) (o : PortOp) : State :=
  let s := (s.updOp n fun _ => o).coverRx n
  match (s.sch n).op with
  | some o' => if o'.rxPlaced then s.endOp n o' none else s.updOp n fun o => { o with phase := .ended, t3 := s.clk }
  | none => s.endOp n o none

/-- COUNT is reached: within a span the CCW completes and the receive goes on in the next one (R85); otherwise the receive
ends, and what follows up to the end of the frame is discarded (R224). -/
def State.countReached (s : State) (n p : Nat) (o : PortOp) : State :=
  if o.ccw.span then s.rxDone n { o with dstat := o.dstat ||| dbit 3 (s.port p).brk }
  else
    let s := if s.charMode p && (s.frameGap p).isSome then s.updPort p fun x => { x with discard := true } else s
    s.receiveEnds n p 0

/-- A received byte lies where the list has no good element: the transfer stops there (R54). -/
def PortOp.listBroke (o : PortOp) : Bool :=
  o.ccw.stores && (match o.limit with | some (k, _) => decide (k < o.ccw.txLen + o.rxCount) | none => false)

/-- What follows when bytes have been stored for operation `n`: a bad list element stops the transfer, COUNT ends it. -/
def State.rxStored (s : State) (n p : Nat) : State :=
  let s := s.coverRx n
  match (s.sch n).op with
  | none => s
  | some o =>
    if o.listBroke then s.receiveEnds n p 0
    else if o.rxCount = o.ccw.rxLen false then s.countReached n p o
    else s

/-- Begin a READ: on a character line it takes what the FIFO holds, then waits for more (R215). Chained after its own WRITE on a
half-duplex line it waits for the turnaround (R111, Table 4.6). -/
def State.beginRead (s : State) (n p : Nat) : State :=
  let x := s.port p
  let more := (s.sch n).span.isSome
  let t := s.acceptAt p
  let chained := x.de && s.serialMode p == 2 && x.txOwner == some n
  let s := s.setPort p { x with lineBusy := some n, txOwner := none, csLow := x.csLow || s.serialMode p == 3 }
  if !s.charMode p then s.updOp n fun o => { o with phase := .line, t1 := t + s.minSetup p }
  else if chained then s.updOp n fun o => { o with phase := .line, t1 := t }
  else
    let s := s.updOp n fun o => { o with phase := .receive, t1 := t, lastByte := if more then x.lastRx else t }
    (s.takeRx n p).rxStored n p

/-- Begin an EXCHANGE: the receive FIFO is emptied, the transmit part leaves (R58, R59, R216). Its first bit comes OVH_NS − 20 ns
after the port logic has accepted it, or later at the end of the port's own setup. -/
def State.beginExchange (s : State) (n p : Nat) (o : PortOp) : State :=
  if o.tx.length ≠ o.ccw.txLen then s.endOp n o none
  else
    let s := s.popLate p 0
    let x := s.port p
    let mb := s.liveMb p && s.charMode p && decide (3 ≤ o.tx.length)
    let tx := if mb then modbusFrame o.tx else o.tx
    let setup := max (o.ovhNs - 20) (s.minSetup p)
    let t1 := s.acceptAt p + setup
    let s := s.setPort p { x with
      rx := [], tx, sent := tx, frameRx := [], lineBusy := some n, txOwner := some n, txBy := []
      de := s.serialMode p == 2 && !o.tx.isEmpty, csLow := s.serialMode p == 3 }
    let s := if s.charMode p then s.sendChars p o.tx.length setup false else s
    let per := if s.charMode p then s.charNs p else (if s.serialMode p = 4 then 9 else 8) * s.bitNs p
    s.updOp n fun o => { o with
      phase := .line, t1, t2 := t1 + o.tx.length * per, txCount := o.tx.length
      dstat := o.dstat ||| dbit 0 (x.rx.any RxByte.fe) ||| dbit 1 (x.rx.any RxByte.pe) }

/-- The record that a READ takes next: the one its span is reading, or the oldest received; with the CAN FD buffer that holds it. -/
def State.nextRecord (s : State) (n p : Nat) : Option (Nat × List Byte × List Byte) :=
  let x := s.port p
  let inSpan := (s.sch n).span.isSome && x.lineBusy == some n
  if portKind p = 2 then
    (if inSpan && x.spanMb.isSome then x.spanMb else x.oldestRx).map fun i =>
      let r := (x.mbs.get {} i).record
      (i, r, if inSpan then x.frameRx else r)
  else match x.ethRx with
    | [] => none
    | r :: _ => some (0, r, if inSpan then x.frameRx else r)

/-- A READ on CAN FD or Ethernet takes one whole record, or ends short with NOFRAME (R215, R221). Within a span each CCW takes
the record's next bytes (R85); the record leaves the FIFO when its last byte is read (R217). -/
def State.readRecord (s : State) (n p : Nat) (o : PortOp) : State :=
  match s.nextRecord n p with
  | none => s.endOp n { o with dstat := o.dstat ||| dbit (if portKind p = 2 then 6 else 3) true } none
  | some (i, whole, r) =>
    let want := o.ccw.rxLen false
    let more := o.ccw.span && decide (want < r.length)
    let s := s.updPort p fun x =>
      if more then { x with frameRx := r.drop want, lineBusy := some n, spanMb := some i }
      else if portKind p = 2 then { x with mbs := x.mbs.set {} i { x.mbs.get {} i with full := false, record := [], stime := 0 } }
      else { x with ethRx := x.ethRx.drop 1 }
    s.rxDone n { o with
      rx := r.take want, rxCount := min want r.length, frameLong := !o.ccw.span && decide (want < r.length)
      dstat := o.dstat ||| dbit 7 (portKind p = 2 && leAt whole 5 1 % 2 == 1) }

/-- The transmit data of a WRITE or EXCHANGE are at hand: it goes onto the line. -/
def State.beginLine (s : State) (n : Nat) (o : PortOp) : State :=
  let p := o.port
  let c := o.ccw
  if portKind p = 1 then if c.op == 0x01 then s.beginWrite n p o else s.beginExchange n p o
  else if o.tx.length ≠ c.txLen then s.endOp n o none
  else if c.span then
    (s.updPort p fun x => { x with sent := x.sent ++ o.tx, lineBusy := some n }).endOp n { o with txCount := o.tx.length } none
  else
    let (d, taken, s) := s.putRecord n p ((s.port p).sent ++ o.tx) (!c.hold)
    s.endOp n { o with dstat := o.dstat ||| d, txCount := if taken then o.tx.length else 0 } none

/-- Levels of an encoder input that have stood for FILTER ns take effect (R239). -/
def State.encSettle (s : State) (i : Nat) : State :=
  let e := s.encNow i
  let q := e.qerr && !(s.enc i).qerr
  let s := s.setEnc i e
  if q then s.addEstat (0x80 + i) (dbit 0 true) else s

/-- The port logic begins the operation of `n` (R211, R214, R403, R404). -/
def State.beginOp (s : State) (n : Nat) (o : PortOp) : State :=
  let p := o.port
  let k := portKind p
  let c := o.ccw
  let s := s.remoteBegins n
  let s := if k = 6 then s.encSettle (p - 0x80) else s
  let s := if p = 0x1FF || k = 8 || k = 9 then s else s.zeroOnChange p (s.opSag n)
  if (s.port p).failed then s.endOp n o (some .repairExhausted)
  else if c.op == 0x04 then
    let b := s.senseBlock n p
    let want := c.count.toNat
    s.rxDone n { o with rx := b.take want, rxCount := min want 32 }
  else if decide (1 ≤ k ∧ k ≤ 7) && !bit (s.liveWord p 0) 0 then s.endOp n o (some .portError)
  else if c.op == 0x03 then
    (s.updPort p fun x => if k = 3 then x else { x with lineBusy := some n }).updOp n fun o => { o with phase := .line, t1 := s.acceptAt p }
  else
    let blocked := (s.port p).safe && (k == 1 || c.op == 0x01)
    let q := s.qualifies n p
    if blocked && !q then s.endOp n o (some .portError)
    else
      let released := blocked && (s.port p).cSag
      let s := if released then s.updPort p fun x => { x with cSag := false } else s
      let s := if released then s.safeEvent 0x0106 0 [p] none else s
      if c.op == 0x02 then if k = 1 then s.beginRead n p else s.readRecord n p o
      else
        let s := (s.updPort p fun x => { x with lineBusy := some n }).updOp n fun _ => { o with phase := .prep }
        let s := if n < 256 then State.prepTx n prepFuel s else s
        match (s.sch n).op with
        | some o => if s.txReady n then s.beginLine n o else s
        | none => s

/-- The operations queued on a port, with the subchannel of each. -/
def State.queued (s : State) (p : Nat) : List (Nat × PortOp) :=
  s.schs.filterMap fun e => match e.2.op with
    | some o => if o.port == p && o.phase == .queued then some (e.1, o) else none
    | none => none

/-- The operation the port logic serves next: G first on a port that is not SHARED, then in dispatch order; while an accepted
configuration waits, only CCWs older than it (R212, R214). -/
def State.nextOp (s : State) (p : Nat) : Option (Nat × PortOp) :=
  let x := s.port p
  let ok := (s.queued p).filter fun e => x.live.isNone || decide (e.2.seq < x.liveSeq)
  (sortBy (fun e => (if s.opIsG e.1 || s.portShared p then 0 else 2 ^ 64) + e.2.seq) ok).head?

/-- The end of the segment in progress of a non-G UART WRITE without Modbus assist, at most SEG_NS long (R214); none where the
transmission of `m` is not split. -/
def State.segmentEnd (s : State) (p m : Nat) : Option Nat :=
  let x := s.port p
  let c := s.charNs p
  let len := max 1 (s.segNs p / c) * c
  let writes := match (s.sch m).op with | some o => o.port != p || o.phase == .queued || (o.phase == .line && o.ccw.op == 0x01) | none => true
  if portKind p ≠ 1 || s.serialMode p ≠ 1 || s.liveMb p || s.portShared p || s.opIsG m || opLimit ≤ m || x.segment.isSome ||
      x.txOwner != some m || !writes || c = 0 then none
  else
    let t := if s.clk < x.txStart then x.txStart else x.txStart + ceilDiv (s.clk - x.txStart) len * len
    if t < x.txEnd then some t else none

/-- A waiting G CCW takes the line at the end of a segment; the characters that follow it wait (R214). -/
def State.takeSegment (s : State) (p m t : Nat) : State :=
  let x := s.port p
  let k := (x.txEnd - t) / s.charNs p
  s.setPort p { x with
    segment := some { owner := m, tx := x.tx.drop (x.tx.length - k), by_ := x.txBy.drop (x.txBy.length - k), brkPt := x.brkPt }
    lineBusy := none, lineAt := t }

/-- Serve a port: begin the next operation while the line is free; `k` bounds the number. A CCW chained to the span of the
subchannel that has the line is served with it (R85); a G CCW takes the line between the segments of another's WRITE (R214). -/
def State.serve (s : State) (p : Nat) : Nat → State
  | 0 => s
  | k + 1 =>
    match (s.port p).lineBusy with
    | none =>
      match s.nextOp p with
      | some (n, o) => State.serve (s.beginOp n o) p k
      | none => s
    | some n =>
      let chained := match (s.sch n).op with
        | some o => if o.port == p && o.phase == .queued && (s.sch n).span.isSome then some o else none
        | none => none
      match chained with
      | some o => State.serve (s.beginOp n o) p k
      | none =>
        match s.nextOp p, s.segmentEnd p n with
        | some (g, o), some t => if s.opIsG g then State.serve ((s.takeSegment p n t).beginOp g o) p k else s
        | _, _ => s

/-- The ports with operations queued. -/
def State.busyPorts (s : State) : List Nat :=
  (s.schs.filterMap fun e => match e.2.op with
    | some o => if o.phase == .queued then some o.port else none
    | none => none).eraseDups

/-! ### What follows at once -/

/-- A grant reaches subchannel `n` on port `p`: its CLAIM completes, or its port CCW proceeds (R248). -/
def State.granted (s : State) (p n : Nat) : State :=
  let x := s.sch n
  match x.op with
  | some o => if o.phase == .claim && o.port == p then s.updOp n fun o => { o with phase := .queued } else s
  | none =>
    if x.wait == .claim p then
      match x.cur with
      | some c => s.ccwDoneCore n c .ok (x.nextPc x.curPc)
      | none => s
    else s

/-- Operations that wait for a grant their subchannel now holds go on (after a handover at a break point). -/
def State.wakeHolders (s : State) : State :=
  (s.schs.filter fun e => match e.2.op with
    | some o => o.phase == .claim && s.holds o.port e.1
    | none => match e.2.wait with | .claim p => s.holds p e.1 | _ => false).foldl
      (fun s e => match e.2.op, e.2.wait with
        | some o, _ => s.granted o.port e.1
        | none, .claim p => s.granted p e.1
        | none, _ => s) s

/-- Free ports grant their requests; `k` bounds the number of grants. -/
def State.grantAll (s : State) : Nat → State
  | 0 => s
  | k + 1 =>
    match s.grantFree 0 with
    | some (p, n, s) => State.grantAll (s.granted p n) k
    | none => s

/-- A holder whose next port CCW was dispatched before the handover raises its request at the handover (R251); under a halt no grant
is awaited (R96). -/
def State.reRequest (s : State) : State :=
  (s.schs.filter fun e => match e.2.op with
    | some o => o.phase == .queued && decide (portKind o.port ≤ 3) && s.portShared o.port && !s.holds o.port e.1 && decide (e.1 < 256)
    | none => false).foldl
      (fun s e => match e.2.op with
        | some o => match s.slotOn o.port e.1 with
          | some (g, k) =>
            if (s.sch e.1).state == .halting then s.progEndCore e.1 .halted
            else (s.raiseReq g k).updOp e.1 fun o => { o with phase := .claim }
          | none => s
        | none => s) s

/-- One round of what follows at once: handovers, grants of free ports, service of idle lines. -/
def State.workRound (s : State) : State :=
  let s := s.reRequest.wakeHolders
  let s := s.grantAll (s.requestCount + 1)
  s.busyPorts.foldl (fun s p => s.serve p 8) s

/-- Something still follows at once: a free port has a request that it can grant, or an idle line an operation to serve. -/
def State.workLeft (s : State) : Bool :=
  (s.grantFree 0).isSome || s.busyPorts.any fun p => (s.port p).lineBusy.isNone && (s.nextOp p).isSome

/-- Rounds until nothing follows; the number bounds them: each ends at least one CCW or grants one request. -/
def State.workRounds : Nat → State → State
  | 0, s => s
  | k + 1, s => let s := s.workRound; if s.workLeft then State.workRounds k s else s

/-- What follows at once when a CCW or a program has ended: grants, line service, the armings whose trigger has fired, and while
no frame runs the start of waiting entries (R250, R214, R100, R36). -/
def State.work (s : State) : State :=
  let s := State.workRounds 1024 s
  if s.kiln.frameRuns then s.startFired else s.startWaiting

/-- A program ends, with all that follows at once. -/
def State.progEnd (s : State) (n : Nat) (st : Status) : State := (s.progEndCore n st).work

/-- A CCW completes; when its program ended, what follows at once. -/
def State.ccwDone (s : State) (n : Nat) (c : Ccw) (st : Status) (next : Pc) : State :=
  let s := s.ccwDoneCore n c st next
  if (s.sch n).state == .active || (s.sch n).state == .halting || (s.sch n).state == .suspended then s else s.work

/-- A CCW ends its program with an error (R54, R84). -/
def State.ccwFail (s : State) (n : Nat) (c : Ccw) (st : Status) : State := s.ccwDone n c st (s.sch n).curPc

end Sys2Proof.Machine
end

