-- ==== Sys2Proof/Machine/Safe.lean ====
section
/-! DEFINITION. Safe states (R401 to R404), output pins of the GPIO bank, and the application of the staging image at a tick
(R14). -/

namespace Sys2Proof.Machine

/-- Word `w` of a port's SAFE entry (R402). -/
def State.safeWord (s : State) (p w : Nat) : Word := s.tables.safe.get 0 (8 * p + w)

/-- The ports of the SAFE table (R402): those from 0x000 to 0x08F that exist. -/
def safePorts : List Nat := (List.range 0x90).filter fun p => portKind p != 0

/-- The four causes, by their bit in SAFE word 7 (Table 16.4). -/
def Port.cause (x : Port) (c : Nat) : Bool :=
  if c = 0 then x.cSag else if c = 1 then x.cOvr else if c = 2 then x.cDwdg else x.cSup
def Port.setCause (x : Port) (c : Nat) (b : Bool) : Port :=
  if c = 0 then { x with cSag := b } else if c = 1 then { x with cOvr := b } else if c = 2 then { x with cDwdg := b }
  else { x with cSup := b }
def Port.anyCause (x : Port) : Bool := x.cSag || x.cOvr || x.cDwdg || x.cSup

/-! ### GPIO pins -/

/-- DIR of a GPIO pin (R236): 0 input, 1 push-pull, 2 open-drain. -/
def State.gpDir (s : State) (i : Nat) : Nat := fld (s.liveWord 0x60 (1 + i / 16)) (2 * (i % 16)) 2

/-- The pin is the chip select of an enabled SPI port (R226). -/
def State.isCs (s : State) (i : Nat) : Bool :=
  (List.range 48).any fun p => s.portEn p && s.portMode p == 3 && fld (s.portWord p 2) 16 8 == i

/-- The pin is an output of the bank. -/
def State.gpOut (s : State) (i : Nat) : Bool := bit (s.liveWord 0x60 0) 0 && (s.gpDir i == 1 || s.gpDir i == 2) && !s.isCs i

/-- Drive GPIO output pins: values under a mask; the level is read back from the pin (R236). -/
def State.driveGpio (s : State) (mask vals : DWord) : State :=
  (List.range 64).foldl (fun s i =>
    if bit mask i && s.gpOut i then
      let v := bit vals i
      let lvl := if s.gpDir i = 2 then v && bit s.gpio.level i else v
      { s with gpio := { s.gpio with
          out := setBit s.gpio.out i v, driven := setBit s.gpio.driven i true, hiz := setBit s.gpio.hiz i false
          level := setBit s.gpio.level i lvl } }
    else s) s

/-! ### Entering a safe state -/

/-- Stop what a serial port has on its line at the next byte boundary (R108, R403): FIFO emptied, DE low, chip select high.
Answers the operation that was in progress, for its end. -/
def State.stopLine (s : State) (p : Nat) : State :=
  s.updPort p fun x => { x with
    tx := [], txBy := [], sent := [], frameRx := [], de := false, csLow := false, txEnd := s.clk, txTurn := 0, txOwner := none
    segment := none, waitTx := [], waitBy := [] }

/-- End the line operation in progress on a serial port with a status (R403, R211). -/
def State.abortLine (s : State) (p : Nat) (st : Status) : State :=
  match (s.port p).lineBusy with
  | none => s.stopLine p
  | some n =>
    match (s.sch n).op with
    | some o =>
      if o.port == p && o.phase != .queued && o.phase != .claim then
        let (o, s) := s.cutOp n o
        (s.stopLine p).endOp n o (some st)
      else (s.stopLine p).freeLine p
    | none => (s.stopLine p).freeLine p

/-- Withdraw pending transmit frames of a CAN FD controller; their subchannels get ABANDON (R232). -/
def Port.withdrawAll (x : Port) : Port :=
  let pend := x.mbs.filter fun e => e.2.kind == 2 && e.2.full
  { x with
    abandon := x.abandon ++ pend.map fun e => e.2.sch
    mbs := x.mbs.map fun e => if e.2.kind == 2 then (e.1, { e.2 with full := false, record := [], queuedAt := 0, sch := 0 }) else e }

/-- PERIOD of a PWM output, in units of 2 ns (R238). -/
def State.pwmPeriod (s : State) (i : Nat) : Nat := fld (s.liveWord (0x70 + i) 1) 0 24

/-- The period counter now: it advances every 2 ns and wraps at PERIOD (R238). -/
def State.pwmCounter (s : State) (i : Nat) : Nat :=
  let w := s.pwm i
  if s.pwmPeriod i = 0 then 0 else (w.ctr + (s.clk - w.ctrAt) / 2) % s.pwmPeriod i

/-- The period counter restarts at a value. -/
def State.pwmRestart (s : State) (i v : Nat) : State := s.setPwm i { s.pwm i with ctr := v, ctrAt := s.clk }

/-- The duty a PWM output drives: HIGH counts of its period (R238). -/
def State.pwmHigh (s : State) (i duty : Nat) : Nat := duty * s.pwmPeriod i / 65536

/-- The action of Table 9.7 on a port, with the options of its SAFE entry. -/
def State.safeAction (s : State) (p : Nat) : State :=
  let k := portKind p
  let opt := fld (s.safeWord p 0) 0 2
  let fixed := fld (s.safeWord p 1) 0 17
  let s := s.updPort p fun x => { x with safeOpt := opt, safeW0 := s.safeWord p 0 }
  if k = 1 then s.abortLine p .portError
  else if k = 2 then s.updPort p Port.withdrawAll
  else if k = 3 then s.updPort p fun x => { x with ethTx := [] }
  else if k = 4 then
    (List.range 64).foldl (fun s i =>
      let o := fld (s.safeWord p (2 + i / 16)) (2 * (i % 16)) 2
      if !s.gpOut i || o = 0 then s
      else if o = 3 then { s with gpio := { s.gpio with hiz := setBit s.gpio.hiz i true } }
      else s.driveGpio (BitVec.ofNat 64 (1 <<< i)) (if o = 2 then BitVec.ofNat 64 (1 <<< i) else 0)) s
  else if k = 5 then
    let w := s.pwm (p - 0x70)
    if opt = 1 then s.setPwm (p - 0x70) { w with inactive := true }
    else if opt = 2 then s.setPwm (p - 0x70) { w with duty := fixed, high := s.pwmHigh (p - 0x70) fixed }
    else s
  else if k = 7 then
    let d := s.dac (p - 0x88)
    if opt = 1 then s.setDac (p - 0x88) { d with code := 0 }
    else if opt = 2 then s.setDac (p - 0x88) { d with code := fixed % 65536 }
    else s
  else s

/-- Drop what was staged for a port before it became safe. -/
def StageImage.dropPort (i : StageImage) (p : Nat) : StageImage :=
  let k := portKind p
  { i with
    gpioMask := if k = 4 then 0 else i.gpioMask
    gpioVal := if k = 4 then 0 else i.gpioVal
    duty := if k = 5 then i.duty.set none (p - 0x70) none else i.duty
    dac := if k = 7 then i.dac.set none (p - 0x88) none else i.dac
    qualified := i.qualified.filter (· != p) }

/-- A port gains a cause; its first cause begins the safe action (R403). -/
def State.gainCause (s : State) (c p : Nat) : State :=
  let x := s.port p
  let first := !x.anyCause
  let s := s.setPort p (x.setCause c true)
  if first then
    let s := s.updPort p fun x => { x with applies := sat16 x.applies }
    let s := s.updDev fun d => { d with safeApplies := sat16 d.safeApplies }
    let s := { s with stage := s.stage.dropPort p, frozen := s.frozen.dropPort p }
    s.safeAction p
  else s

/-- Set a cause on the ports of a list that do not hold it, and report it once per receiver (R403, R406). -/
def State.safeApply (s : State) (c : Nat) (ports : List Nat) (except : Option Nat) : State :=
  let gain := ports.filter fun p => !(s.port p).cause c
  let s := gain.foldl (fun s p => s.gainCause c p) s
  (s.safeEvent 0x0105 c gain except).work

/-- The ports whose SAFE entry asks for a supervisor cause: bit 8 ON_OVR, 9 ON_DWDG, 10 ON_SUP (Table 16.4). A port in its safe
state keeps the entry it entered with (R402). -/
def State.onPorts (s : State) (b : Nat) : List Nat :=
  safePorts.filter fun p => bit (if (s.port p).safe then (s.port p).safeW0 else s.safeWord p 0) b

/-! ### Releasing -/

/-- A pulse-width output leaves its inactive level. -/
def State.leavePin (s : State) (p : Nat) : State :=
  if portKind p = 5 then s.setPwm (p - 0x70) { s.pwm (p - 0x70) with inactive := false } else s

/-- Release a supervisor cause on every port that holds it. When the last one goes, a serial, CAN FD, Ethernet or encoder port
without SAG leaves the safe state at once; a GPIO, PWM or DAC port waits for a qualifying STAGE (R404). -/
def State.safeRelease (s : State) (c : Nat) : State :=
  let held := safePorts.filter fun p => (s.port p).cause c
  let s := held.foldl (fun s p =>
    let x := (s.port p).setCause c false
    let k := portKind p
    let x := if x.supCause then x
      else if k == 4 || k == 5 || k == 7 then { x with pend := true, lastCause := c }
      else x
    s.setPort p x) s
  let left := held.filter fun p => !(s.port p).safe
  (s.safeEvent 0x0106 c left none).work

/-! ### The tick (R14, R403, R404) -/

/-- Apply a staged PWM duty (R238). -/
def State.applyDuty (s : State) (i : Nat) (img : StageImage) : State :=
  match img.duty.get none i with
  | some d => if s.portEn (0x70 + i) then s.setPwm i { s.pwm i with duty := d, high := s.pwmHigh i d, inactive := false } else s
  | none => s

/-- Apply a staged DAC code (R240). -/
def State.applyCode (s : State) (i : Nat) (img : StageImage) : State :=
  match img.dac.get none i with
  | some v => if s.portEn (0x88 + i) then s.setDac i { s.dac i with code := v } else s
  | none => s

/-- A port in its safe state at a tick that applies a qualifying STAGE to it: SAG and PEND clear unless a supervisor cause
holds the port, which keeps it safe and clears SAG (R404, Table 16.9). -/
def State.leaveAtTick (s : State) (img : StageImage) (p : Nat) : State :=
  let x := s.port p
  if !x.safe || !img.qualified.contains p then s
  else
    let c := if x.pend then x.lastCause else 0
    let x' := { x with cSag := false, pend := if x.supCause then x.pend else false }
    let s := s.setPort p x'
    if x'.safe then s else (s.leavePin p).safeEvent 0x0106 c [p] none

/-- The tick applies the frozen image together to every port that is not held (R14). -/
def State.applyFrozen (s : State) : State :=
  let img := s.frozen
  let s := ([0x60] ++ (List.range 16).map (0x70 + ·) ++ (List.range 8).map (0x88 + ·)).foldl (fun (s : State) p => s.leaveAtTick img p) s
  let s := if (s.port 0x60).safe then s else s.driveGpio img.gpioMask img.gpioVal
  let s := (List.range 16).foldl (fun s i => if (s.port (0x70 + i)).safe then s else s.applyDuty i img) s
  let s := (List.range 8).foldl (fun s i => if (s.port (0x88 + i)).safe then s else s.applyCode i img) s
  { s with frozen := {} }

end Sys2Proof.Machine
end

