-- ==== Sys2Proof/Machine/Trigger.lean ====
section
/-! DEFINITION. Halts (R95 to R97), triggers (R98 to R102) and nudges (R104). -/

namespace Sys2Proof.Machine

/-- Which halt wins when one meets another: a reset over a halt or a RESTART. -/
def HaltWhy.rank : HaltWhy → Nat
  | .restart => 0 | .halt => 1 | .heartbeat => 1 | .reset => 2 | .qreset => 2

/-- The wait of a subchannel ends at once under a halt: WAITT, WAITC, WAITF, CLAIM, or a port CCW that waits for a grant
(R96). -/
def Sch.waitEnds (c : Sch) : Bool :=
  match c.op with
  | some o => o.phase == .claim
  | none =>
    match c.wait with
    | .time _ => true
    | .cond _ _ _ => true
    | .ticks _ => true
    | .frame _ => true
    | .claim _ => true
    | _ => false

/-- Nothing of the program is in progress: the last completion was a break point, unless it carried HOLD (R96). -/
def Sch.between (c : Sch) : Bool := c.op.isNone && c.wait == .none && c.cur.isNone && !c.holdRun

/-- An arming ends (R95, R102): no status word; the TRG entry completes. -/
def State.endArming (s : State) (n : Nat) (why : HaltWhy) : State :=
  let c := s.sch n
  let s := s.setSch n { c with
    state := .idle, eid := none, trigger := none, fired := false, startL := false, resumeL := false, nudgeL := false, haltWhy := none }
  match c.owner with
  | none => s
  | some q =>
    let s := match c.eid with
      | none => s
      | some eid =>
        let d := ((s.entry? q eid).map Entry.defer).getD 0
        let s := s.updEntry q eid fun e => { e with result := deferResult d (s.stagedFrame c) }
        s.endEntry q eid (entryStatus (some why) .halted)
    ((s.endHalts q n).autoCheck q).work

/-- Halt a subchannel (R95, R96, R97). One that is HALTING goes on to its break point: a HALT has no effect on it, and a reset or
delete of its queue takes it over (R150). -/
def State.haltSch (s : State) (n : Nat) (why : HaltWhy) : State :=
  let c := s.sch n
  let latches (c : Sch) : Sch := { c with resumeL := false, nudgeL := false, startL := false }
  match c.state with
  | .idle => s
  | .armed => if why == .restart then s else s.endArming n why
  | .halting =>
    if (c.haltWhy.map HaltWhy.rank).getD 0 < why.rank && decide (2 ≤ why.rank) then s.setSch n (latches { c with haltWhy := some why })
    else s
  | .suspended => (s.setSch n { latches c with haltWhy := some why }).progEnd n .halted
  | .parked => (s.setSch n { latches c with haltWhy := some why }).progEnd n .halted
  | _ =>
    let s := s.setSch n { latches c with state := .halting, haltWhy := some why }
    if c.waitEnds || c.between then s.progEnd n .halted else s

/-- The fields of a TRIGGER word (Table 4.3). -/
def trgIndex (t : Word) : Nat := fld t 0 8
def trgSource (t : Word) : Nat := fld t 8 4
def trgPolicy (t : Word) : Nat := fld t 12 2

/-- A trigger fires on a subchannel (R99 to R101). -/
def State.fire (s : State) (n : Nat) : State :=
  let c := s.sch n
  match c.trigger with
  | none => s
  | some t =>
    match c.state with
    | .idle => s
    | .armed =>
      if c.fired then s
      else if s.schCls n == .g || !s.wbOpen (n / 8) then s.setSch n { c with fired := true, firedAt := s.clk }
      else s.launch n
    | st =>
      if st == .halting && c.haltWhy != none then s
      else if trgPolicy t = 1 then s
      else if trgPolicy t = 2 then s.haltSch n .restart
      else if c.startL then
        let k := sat16 c.trgOvr
        (s.setSch n { c with trgOvr := k }).raise (s.schSag n) 2 n 0 (w32 k)
      else s.setSch n { c with startL := true }

/-- A source fires every arming that names it (R98, R99): 1 TRIP, 2 GUARD, 3 EDGE, 4 TICK. -/
def State.fireSource (s : State) (src idx : Nat) : State :=
  (s.schs.filter fun e => match e.2.trigger with
    | some t => trgSource t == src && trgIndex t == idx
    | none => false).foldl (fun s e => s.fire e.1) s

/-- Nudge a subchannel (R104): a parked one re-reads its park address, and stays PARKED until the read finds another CCW than an
open COLOPHON (Table 4.2); one that runs, or that re-reads already, latches the nudge. -/
def State.nudgeSch (s : State) (n : Nat) : State :=
  let c := s.sch n
  match c.state with
  | .parked => if c.reread then s.setSch n { c with nudgeL := true } else (s.setSch n { c with reread := true }).goto n c.pc
  | .idle => s
  | .armed => s
  | _ => s.setSch n { c with nudgeL := true }

/-- Resume a subchannel (R92). -/
def State.resumeSch (s : State) (n : Nat) : State :=
  let c := s.sch n
  match c.state with
  | .suspended => (s.setSch n { c with state := .active }).goto n c.pc
  | .active => s.setSch n { c with resumeL := true }
  | .waiting => s.setSch n { c with resumeL := true }
  | .parked => s.nudgeSch n
  | _ => s

end Sys2Proof.Machine
end

