-- ==== Sys2Proof/Machine/Ccw.lean ====
section
/-! DEFINITION. The dispatch of a CCW with the four checks of R54, and the flow, wait and service words of chapter 3. A
command ccw… names a subchannel and an opcode: it acts when the processor's choice (R501) falls on that subchannel and the CCW
reached has that opcode; a CCW that cannot be read, or has no defined opcode, ends its program whichever opcode is named. -/

namespace Sys2Proof.Machine

/-! ### Dispatch -/

/-- The work units of a CCW form, buffer-list elements apart (Table 2.6). -/
def wuOf (op : Byte) : Nat :=
  if op == 0x01 || op == 0x02 || op == 0x03 || op == 0x04 || op == 0x05 || op == 0x08 then 3
  else if op == 0x18 || op == 0x20 then 4
  else if op == 0x14 then 0
  else 2

/-- Within a span that ended short, a CCW is read forward without executing (R88). A HALTING program goes on past the last CCW of the
span only where that CCW has HOLD (R85, R96). -/
def State.readForward (s : State) (n : Nat) (c : Ccw) : State :=
  let x := s.sch n
  let next := x.nextPc x.curPc
  let s := s.updSch n fun x => { x with
    cur := none, spanSkip := c.span, span := if c.span then x.span else none, holdRun := c.hold || c.span }
  if c.span then s.goto n next
  else
    let last := match x.span with | some (_, tgt) => (s.spanBreak n (fld tgt 0 9) c.hold) | none => s
    if x.state == .halting && !(c.hold && c.cont) then last.progEnd n .halted
    else if c.cont then (last.goto n next).work
    else last.progEnd n x.retained

/-- The status word of RPT or PAUSE must have a valid place (R172). -/
def State.statCheck (s : State) (n : Nat) (c : Ccw) : Option Status :=
  let x := s.sch n
  if (c.rpt || c.pause) && x.stata != 0 then s.checkWrite (s.schSag n) x.stata 16 else none

/-- Dispatch the CCW that subchannel `n` has reached if it is of opcode `op` (R54, R109): step 1, then `step2` (operands and
port kind, PROGRAM_CHECK), `step3` (addresses), `step4` (rights), then its effect.
A JUMP reached by a JUMP ends the program at its own dispatch, so CCWA names the second of the two: which one is
reported, R64 does not say (DESIGN CHOICE, log entry 89). -/
def State.dispatch (s : State) (n : Nat) (op : Byte) (step2 : State → Ccw → Bool) (step3 step4 : State → Ccw → Option Status)
    (effect : State → Ccw → State) : State :=
  if !s.chosen n then s
  else match s.ccwAt n with
    | .wait => s
    | .bad st =>
      let c : Ccw := { op := 0, flags := 0, tgt := 0, count := 0, addr := 0 }
      (s.beginCcw n c).ccwFail n c st
    | .ok c =>
      if !definedOp c.op then (s.beginCcw n c).ccwFail n c .programCheck
      else if c.op != op then s
      else
        let x := s.sch n
        let s := (s.beginCcw n c).charge n (wuOf c.op)
        if !c.step1 then s.ccwFail n c .programCheck
        else if x.afterJump && c.op == 0x10 then s.ccwFail n c .programCheck
        else if x.spanSkip then s.readForward n c
        else if !x.spanOk c || !step2 s c then s.ccwFail n c .programCheck
        else match step3 s c with
          | some st => s.ccwFail n c st
          | none =>
            match s.statCheck n c with
            | some st => s.ccwFail n c st
            | none =>
              match step4 s c with
              | some st => s.ccwFail n c st
              | none => effect s c

/-- A step that checks nothing. -/
def noCheck (_ : State) (_ : Ccw) : Option Status := none
def always2 (_ : State) (_ : Ccw) : Bool := true

/-- The CCW completes OK and the program goes on at the next CCW (R49). -/
def State.ccwOk (s : State) (n : Nat) (c : Ccw) : State := s.ccwDone n c .ok ((s.sch n).nextPc (s.sch n).curPc)

/-- The CCW completes OK and the next CCW is skipped (R64, R68). -/
def State.ccwSkip (s : State) (n : Nat) (c : Ccw) : State :=
  let x := s.sch n
  s.ccwDone n c .ok (x.nextPc (x.nextPc x.curPc))

/-- The subchannel waits (Table 4.2). Under a halt a WAITT, WAITC, WAITF or CLAIM ends at once, and the program with it (R96). -/
def State.await (s : State) (n : Nat) (w : Wait) : State :=
  let s := s.updSch n fun x => { x with wait := w, state := if x.state == .halting then .halting else .waiting }
  if (s.sch n).state == .halting && (s.sch n).waitEnds then s.progEnd n .halted else s

/-! ### Flow words (R64 to R66) -/

/-- NOP does nothing beyond what its flags ask (R64). -/
def execCcwNop (sch : Nat) (s : State) : Out :=
  act (.ccwNop sch) s fun s => s.dispatch sch 0x0F always2 noCheck noCheck fun s c => s.ccwOk sch c

/-- A CCW address: 16-byte aligned, and in a valid place of its space (R46, R52). -/
def State.ccwAddr (s : State) (sag : Nat) (a : DWord) : Option Status :=
  if isLs a && lsResv a then some .programCheck
  else if fld a 0 4 ≠ 0 then some .addressCheck
  else s.checkRange sag a 16

/-- JUMP: the CCW at ADDR is the next; a JUMP that lands on a JUMP ends with PROGRAM_CHECK (R64). -/
def execCcwJump (sch : Nat) (s : State) : Out :=
  act (.ccwJump sch) s fun s =>
    s.dispatch sch 0x10 always2 (fun s c => s.ccwAddr (s.schSag sch) c.addr) noCheck fun s c =>
      s.ccwDone sch c .ok (.at c.addr)

/-- A condition word: its code, and whether it is inverted (R64, R76). -/
def Ccw.condCode (c : Ccw) : Nat := fld c.count 0 16

/-- The value of a CCW's condition for a subchannel, COUNT[16] inverting it (R64, R68). -/
def State.ccwCond (s : State) (n : Nat) (c : Ccw) : Bool := s.cond n c.condCode != bit c.count 16

/-- The right that a condition needs (R76). -/
def State.condRight (s : State) (n : Nat) (c : Ccw) : Option Status :=
  match condPort c.condCode with
  | some p => if s.mayObserve (s.schSag n) p then none else some .protectionCheck
  | none => none

/-- TEST: false skips the next CCW, which is not read (R64). -/
def execCcwTest (sch : Nat) (s : State) : Out :=
  act (.ccwTest sch) s fun s =>
    s.dispatch sch 0x11 (fun _ c => condValid c.condCode) noCheck (fun s c => s.condRight sch c) fun s c =>
      if s.ccwCond sch c then s.ccwOk sch c else s.ccwSkip sch c

/-- LOOP: a counter that is still nonzero after its decrement continues at ADDR (R65); inline it has no body (R83). -/
def execCcwLoop (sch : Nat) (s : State) : Out :=
  act (.ccwLoop sch) s fun s =>
    s.dispatch sch 0x15 (fun s _ => match (s.sch sch).curPc with | .at _ => true | .inline _ => false)
      (fun s c => match (s.sch sch).curPc with
        | .at a =>
          if isLs c.addr && lsResv c.addr then some .programCheck
          else if isLs a != isLs c.addr then some .addressCheck
          else s.ccwAddr (s.schSag sch) c.addr
        | .inline _ => none)
      noCheck fun s c =>
        let i := fld c.count 0 2
        let v := (s.sch sch).lc i
        if v = 0 then s.ccwOk sch c
        else
          let s := s.updSch sch fun x => x.setLc i (v - 1)
          if v - 1 = 0 then s.ccwOk sch c else s.ccwDone sch c .ok (.at c.addr)

/-- SETC loads a loop counter (R65). -/
def execCcwSetc (sch : Nat) (s : State) : Out :=
  act (.ccwSetc sch) s fun s =>
    s.dispatch sch 0x16 always2 noCheck noCheck fun s c =>
      (s.updSch sch fun x => x.setLc (fld c.addr 0 2) c.count).ccwOk sch c

/-- The open end: 7F 40 in bytes 0 and 1, zeros to byte 7 (R66). Step 1 has the rest. -/
def Ccw.isOpenEnd (c : Ccw) : Bool := c.op == 0x7F && c.pause

/-- Park at an open COLOPHON (R103); a nudge latched meanwhile re-reads at once. -/
def State.park (s : State) (n : Nat) : State :=
  let x := s.sch n
  let s := s.setSch n { x with state := .parked, cur := none, reread := false, afterJump := false, fetched := none }
  let s := if x.reread then s else s.post n x.retained SchState.parked.num false
  if x.nudgeL then (s.updSch n fun x => { x with nudgeL := false }).nudgeSch n else s

/-- COLOPHON ends the program with the retained status, or parks (R66, R84, R103); an inline open COLOPHON ends with
PROGRAM_CHECK (R83). -/
def execCcwColophon (sch : Nat) (s : State) : Out :=
  act (.ccwColophon sch) s fun s =>
    s.dispatch sch 0x7F
      (fun s c => !c.pause || (match (s.sch sch).curPc with | .at _ => true | .inline _ => false)) noCheck noCheck fun s c =>
        let x := s.sch sch
        if x.state == .halting then s.progEnd sch .halted
        else if c.pause then s.park sch
        else s.progEnd sch x.retained

/-! ### Wait words (R67 to R69) -/

/-- WAITT waits COUNT microseconds from the dispatch (R67). -/
def execCcwWaitt (sch : Nat) (s : State) : Out :=
  act (.ccwWaitt sch) s fun s =>
    s.dispatch sch 0x12 (fun _ c => c.count != 0) noCheck noCheck fun s c =>
      s.await sch (.time (s.clk + 1000 * c.count.toNat))

/-- WAITC waits for a condition, with a timeout in microseconds; 0 = none (R68). -/
def execCcwWaitc (sch : Nat) (s : State) : Out :=
  act (.ccwWaitc sch) s fun s =>
    s.dispatch sch 0x13 (fun _ c => condValid c.condCode) noCheck (fun s c => s.condRight sch c) fun s c =>
      if s.ccwCond sch c then s.ccwOk sch c
      else
        let t := fld c.addr 0 32
        s.await sch (.cond (BitVec.ofNat 16 c.condCode) (bit c.count 16) (if t = 0 then none else some (s.clk + 1000 * t)))

/-- WAITF waits for COUNT ticks, or for the tick that opens frame COUNT; a frame that is not in the future does not wait
(R69, R32). -/
def execCcwWaitf (sch : Nat) (s : State) : Out :=
  act (.ccwWaitf sch) s fun s =>
    s.dispatch sch 0x14 (fun _ c => bit c.addr 0 || c.count != 0) noCheck noCheck fun s c =>
      if bit c.addr 0 then
        if c.count = s.kiln.frame || inPast c.count s.kiln.frame then s.ccwOk sch c else s.await sch (.frame c.count)
      else s.await sch (.ticks c.count.toNat)

/-! ### Service words -/

/-- FENCE on a port: serial, CAN FD and Ethernet (Table 3.5). -/
def fencePort (c : Ccw) : Nat := fld c.tgt 0 9

/-- FENCE waits for a port's transmit FIFO to drain, for local-store writes, or for host writes (R71). -/
def execCcwFence (sch : Nat) (s : State) : Out :=
  act (.ccwFence sch) s fun s =>
    s.dispatch sch 0x09
      (fun s c =>
        if c.count = 0 then
          fld c.tgt 9 7 == s.lnk.node && decide (1 ≤ portKind (fencePort c) ∧ portKind (fencePort c) ≤ 3) &&
            !(portKind (fencePort c) == 1 && (s.portMode (fencePort c) == 0 || s.portMode (fencePort c) == 5))
        else !(isLs c.addr && lsResv c.addr))
      (fun s c =>
        if c.count = 0 then none
        else if isLs c.addr then s.checkRange (s.schSag sch) c.addr 1
        else if fld c.addr 0 3 ≠ 0 then some .addressCheck
        else s.checkRange (s.schSag sch) c.addr 8)
      (fun s c => if c.count = 0 && !s.mayObserve (s.schSag sch) (fencePort c) then some .protectionCheck else none)
      fun s c =>
        if c.count = 0 then s.await sch (.fencePort (fencePort c))
        else if isLs c.addr then s.await sch .fenceLs
        else if (s.fn (s.schSag sch)).busMaster then (s.await sch .fenceHost).hostRead (s.schSag sch) c.addr 8 (.fence sch)
        else s.ccwFail sch c .dataIntegrity

/-- POST writes the status word with a user code, to STATA or to its own address (R72). -/
def execCcwPost (sch : Nat) (s : State) : Out :=
  act (.ccwPost sch) s fun s =>
    s.dispatch sch 0x18 (fun _ c => !(isLs c.addr && lsResv c.addr))
      (fun s c =>
        let a := if c.addr = 0 then (s.sch sch).stata else c.addr
        if a = 0 then none
        else if fld a 0 4 ≠ 0 then some .addressCheck
        else match s.checkWrite (s.schSag sch) a 16 with
          | some .protectionCheck => none
          | r => r)
      (fun s c =>
        let a := if c.addr = 0 then (s.sch sch).stata else c.addr
        if a = 0 then none else s.checkWrite (s.schSag sch) a 16)
      fun s c =>
        let x := s.sch sch
        let a := if c.addr = 0 then x.stata else c.addr
        let s := if a = 0 then s
          else s.memWrite (s.schSag sch) a (s.statusWord sch x.retained x.state.num false (some (fld c.count 0 16)))
        s.ccwOk sch c

/-- SIGNAL: an event, a trigger or a nudge, on subchannels of the issuing saggar only (R73). -/
def execCcwSignal (sch : Nat) (s : State) : Out :=
  act (.ccwSignal sch) s fun s =>
    s.dispatch sch 0x19 (fun _ c => fld c.count 30 2 != 3) noCheck
      (fun s c =>
        let t := fld c.count 0 8
        if fld c.count 30 2 = 0 then none
        else match (s.sch t).owner with
          | some q => if s.qSag q = s.schSag sch then none else some .protectionCheck
          | none => some .protectionCheck)
      fun s c =>
        let t := fld c.count 0 8
        let s := if fld c.count 30 2 = 0 then s.raiseF (s.schSag sch) 1 sch (fld c.count 0 16)
          else if fld c.count 30 2 = 1 then s.fire t
          else s.nudgeSch t
        s.ccwOk sch c

/-- The port of TGT on this node is SHARED (R74, Table 3.5). -/
def State.sharedTgt (s : State) (c : Ccw) : Bool :=
  fld c.tgt 9 7 == s.lnk.node && decide (1 ≤ portKind (fld c.tgt 0 9) ∧ portKind (fld c.tgt 0 9) ≤ 3) && s.portShared (fld c.tgt 0 9)

/-- CLAIM waits for the grant of a SHARED port (R74, R246); a CLAIM by the holder completes at once. -/
def execCcwClaim (sch : Nat) (s : State) : Out :=
  act (.ccwClaim sch) s fun s =>
    s.dispatch sch 0x1C (fun s c => s.sharedTgt c) noCheck
      (fun s c => if (s.slotOn (fld c.tgt 0 9) sch).isSome then none else some .protectionCheck) fun s c =>
        let p := fld c.tgt 0 9
        if s.holds p sch then s.ccwOk sch c
        else match s.slotOn p sch with
          | some (g, k) => if (s.sch sch).state == .halting then s.await sch (.claim p) else ((s.await sch (.claim p)).raiseReq g k).work
          | none => s

/-- RELEASE gives the grant up; without the grant it has no effect (R74, R250). -/
def execCcwRelease (sch : Nat) (s : State) : Out :=
  act (.ccwRelease sch) s fun s =>
    s.dispatch sch 0x1D (fun s c => s.sharedTgt c) noCheck noCheck fun s c =>
      let p := fld c.tgt 0 9
      match s.slotOn p sch with
      | some (g, k) =>
        if (s.claim g).holder == some k then
          ((s.setClaim g { s.claim g with holder := none, sampled := [] }).ccwOk sch c).work
        else s.ccwOk sch c
      | none => s.ccwOk sch c

end Sys2Proof.Machine
end

