-- ==== Sys2Proof/Machine/Operands.lean ====
section
/-! DEFINITION. The operands of the port words: targets (R51), buffers and buffer lists (R52, R53, R89), CONTROL blocks (R219),
charges (Table 2.6), and the step from a dispatched port CCW to the port logic or the ring. -/

namespace Sys2Proof.Machine

/-! ### The opcodes of the port kinds -/

/-- The opcodes a port kind accepts (Table 3.5). -/
def kindAccepts (p : Nat) (op : Byte) : Bool :=
  let k := portKind p
  if op == 0x01 || op == 0x02 then decide (1 ≤ k ∧ k ≤ 3)
  else if op == 0x03 then decide (1 ≤ k ∧ k ≤ 9)
  else if op == 0x04 then decide (1 ≤ k)
  else if op == 0x05 then k == 1
  else if op == 0x0A then k == 4 || k == 5 || k == 7
  else if op == 0x0B then k == 4 || k == 6 || k == 8 || k == 10
  else false

/-! ### CONTROL blocks (R219) -/

/-- The length of a CONTROL code's block; 0 = no such code. -/
def controlLen (code : Nat) : Nat :=
  if code = 0x0001 || code = 0x0002 || code = 0x0010 || code = 0x0051 || code = 0x0070 || code = 0x0080 then 4
  else if code = 0x0011 || code = 0x0030 || code = 0x0031 || code = 0x0040 || code = 0x0050 || code = 0x0060 || code = 0x0071 then 8
  else if code = 0x0020 then 16
  else 0

/-- The port's kind and mode accept the code (R219, R227, R228, R232, R235 to R239, R274, R282). -/
def State.controlKind (s : State) (p code : Nat) : Bool :=
  let k := portKind p
  let m := s.portMode p
  if code = 0x0001 then decide (1 ≤ k ∧ k ≤ 6)
  else if code = 0x0002 then decide (1 ≤ k ∧ k ≤ 9)
  else if code = 0x0010 then k == 1 && m == 4
  else if code = 0x0011 then k == 1 && (m == 1 || m == 2)
  else if code = 0x0020 then k == 2
  else if code = 0x0030 || code = 0x0031 then k == 3
  else if code = 0x0040 then k == 4
  else if code = 0x0050 || code = 0x0051 then k == 6
  else if code = 0x0060 then k == 5
  else if code = 0x0070 || code = 0x0071 then k == 8
  else if code = 0x0080 then k == 9
  else false

/-- The block is one the port accepts: code, length, parameters in range, reserved bytes zero (R219). -/
def State.controlOk (s : State) (p : Nat) (b : List Byte) : Bool :=
  let code := leAt b 0 2
  let b4 := leAt b 4 1
  let b5 := leAt b 5 1
  let z67 := leAt b 6 2 == 0
  let w := leAt b 4 4
  s.controlKind p code && b.length == controlLen code && leAt b 2 2 == 0 &&
    (if code = 0x0011 then decide (1 ≤ w ∧ w ≤ 65535)
     else if code = 0x0020 then decide (b4 < 64) && decide (b5 < 3) && z67 && leAt b 8 4 / 2 ^ 30 == 0
     else if code = 0x0030 then decide (b4 < 32) && decide (b5 < 32)
     else if code = 0x0031 then decide (b4 < 32) && decide (b5 < 32) && z67
     else if code = 0x0040 then decide (b4 < 64) && decide (b5 < 4) && z67
     else if code = 0x0060 then decide (w < fld (s.portWord p 1) 0 24)
     else if code = 0x0071 then
       let m := (s.wm (p - 0xA0)).cfg
       decide (leAt b 4 2 < 1024) && decide (leAt b 6 2 < 1024) &&
         !(m.uen && m.len && decide (leAt b 4 2 ≤ leAt b 6 2))
     else true)

/-- A CONTROL code that is a line operation of its port (R214). -/
def lineCode (code : Nat) : Bool := code == 0x0010 || code == 0x0011

/-! ### Charges (Table 2.6) -/

/-- The port time T_p that a CCW is charged on this node's port `p`, in ns. -/
def State.portCharge (s : State) (p : Nat) (c : Ccw) : Nat :=
  let i2c := s.ccwI2c c
  if c.op == 0x05 then
    s.ovhNs p + fld c.count 0 16 * s.byteNs p + s.turnNs p + s.respNs p + fld c.count 16 16 * s.byteNs p
  else if c.op == 0x02 then s.ovhNs p + c.rxLen i2c * s.byteNs p
  else if c.op == 0x01 || c.op == 0x03 || c.op == 0x04 then s.ovhNs p + c.count.toNat * s.byteNs p
  else 0

/-- The block of a CONTROL CCW, where it can be read at the dispatch: plain local store, mapped and intact. -/
def State.localBlock (s : State) (n : Nat) (c : Ccw) : Option (List Byte) :=
  let sag := s.schSag n
  let k := c.count.toNat
  if c.op == 0x03 && !c.list && isLs c.addr && !lsResv c.addr && decide (k ≤ 16) && s.lsMapped sag (lsOff c.addr) k &&
      !s.lsPoisoned sag (lsOff c.addr) k then some (s.lsRead sag (lsOff c.addr) k)
  else none

/-- Some admitted G queue addresses the port of this node (R214). -/
def State.gOnPort (s : State) (p : Nat) : Bool := s.admitted.any fun a => a.ports.any fun e => e.1 == p

/-! ### Step 2 of the port words -/

/-- The operand sizes and modes of a port CCW on this node, and of a CONTROL its block where that is in plain local store (R54 step 2, R58, R222, R225, R227, R228, R214). -/
def State.portStep2 (s : State) (n : Nat) (c : Ccw) : Bool :=
  let p := c.port
  let k := portKind p
  let m := s.portMode p
  let tx := fld c.count 0 16
  let rx := fld c.count 16 16
  let mb := s.portMb p && (m == 1 || m == 2)
  let x := s.sch n
  let frame := (if x.span.isSome then (s.port p).sent.length else 0) + c.count.toNat
  let serialOk :=
    if k ≠ 1 then true
    else if m = 0 then c.op == 0x03 || c.op == 0x04
    else if m = 5 then c.op == 0x03 || c.op == 0x04 || (c.op == 0x02 && c.count == 4)
    else if c.op == 0x05 then
      !(tx == 0 && rx == 0) && !(m == 4 && (tx == 0 || rx == 0)) && !(mb && (tx == 1 || tx == 2))
    else if c.op == 0x02 then
      m ≠ 4 || (!bit c.count 31 && fld c.count 0 24 ≠ 0 &&
        (x.span.isNone || fld c.count 24 7 == fld x.spanCount 24 7))
    else if c.op == 0x01 then c.span || !mb || decide (3 ≤ frame)
    else true
  let offOk := !((k == 2 || k == 3) && m == 0 && (c.op == 0x01 || c.op == 0x02))
  let line := decide (1 ≤ k ∧ k ≤ 3) && (c.op == 0x01 || c.op == 0x02 || c.op == 0x05)
  let segOk := !line || s.opIsG n || !s.gOnPort p || decide (s.portCharge p c ≤ s.segNs p)
  let blockOk := match s.localBlock n c with
    | some b => s.controlOk p b && !(lineCode (leAt b 0 2) && !s.opIsG n && s.gOnPort p && decide (s.segNs p < s.portCharge p c))
    | none => !(c.op == 0x03 && decide (16 < c.count.toNat))
  kindAccepts p c.op && (s.isRemote c || (serialOk && offOk && segOk && blockOk))

/-! ### Steps 3 and 4 -/

/-- Step 3 of a port CCW: the buffer, or the list's address and the page of its first element (R52, R53, R172). -/
def State.portStep3 (s : State) (n : Nat) (c : Ccw) : Option Status :=
  if !c.usesAddr then none
  else if c.list then
    if isLs c.addr && lsResv c.addr then some .programCheck
    else if fld c.addr 0 4 ≠ 0 then some .addressCheck
    else s.checkRange (s.schSag n) c.addr 16
  else s.checkRange (s.schSag n) c.addr (c.bufLen (s.ccwI2c c))

/-- The part of the buffer that a CCW writes to memory must not be program-locked (R39). -/
def State.bufLocked (s : State) (n : Nat) (c : Ccw) : Bool :=
  c.usesAddr && !c.list && !c.drop && isLs c.addr &&
    s.lsLocked (s.schSag n) (lsOff c.addr + c.txLen) (c.rxLen (s.ccwI2c c))

/-- Step 4 of a port CCW on this node: ACTUATE to write to a port, OBSERVE or ACTUATE to read (R55); locked pages (R39); a
SHARED port needs a slot (R242). A remote CCW's rights are the target's to check (R357). -/
def State.portRights (s : State) (n : Nat) (c : Ccw) : Option Status :=
  let p := c.port
  let sag := s.schSag n
  let right := s.isRemote c || p == 0x1FF ||
    (if c.op == 0x01 || c.op == 0x03 || c.op == 0x05 || c.op == 0x0A then s.mayActuate sag p else s.mayObserve sag p)
  let slot := s.isRemote c || !(decide (portKind p ≤ 3) && s.portShared p) || (s.slotOn p n).isSome
  if right && slot && !s.bufLocked n c then none else some .protectionCheck

/-- A CONTROL block that must first be read from host memory or along a list is judged when it is at hand, step 2 before step 4. -/
def State.blockLater (s : State) (n : Nat) (c : Ccw) : Bool := c.op == 0x03 && !s.isRemote c && (s.localBlock n c).isNone

def State.portStep4 (s : State) (n : Nat) (c : Ccw) : Option Status := if s.blockLater n c then none else s.portRights n c

/-! ### From dispatch to the port -/

/-- The remote timeout of a CCW in ns (R359): for G the Z of R360 plus the target's port time, else RTO. -/
def State.remoteTimeoutNs (s : State) (n : Nat) (c : Ccw) : Nat :=
  let peer := s.peer c.node
  let sn := s.kiln.perInForce * 1000 / 16
  let z := 2 * (sn + 1000 + peer.qeff * 640) + 2 * max peer.dlyA peer.dlyB + 1000
  if s.schCls n == .g then
    let q := (s.sch n).owner
    let t := (s.admitted.find? fun a => some a.q == q).bind fun a => a.remote.find? fun e => e.1 == c.tgt.toNat
    z + (t.map fun e => e.2.1).getD 0
  else if s.lnk.rto = 0 then 4 * s.kiln.perInForce * 1000
  else 10000 * s.lnk.rto

/-- Send a remote CCW (R357 step 1), or end it: with the status of a bad list element or read (R54, R56), or where the target cannot
be reached (R359). -/
def State.sendRemote (s : State) (n : Nat) (o : PortOp) : State :=
  let c := o.ccw
  if o.limit.isSome then s.ccwFail n c ((o.limit.map (·.2)).getD .programCheck)
  else if !s.ringUp || !bit s.lnk.pres c.node || (s.lnk.oversub && s.schCls n == .g) then s.ccwFail n c .linkUnreachable
  else
    let seq := (s.lnk.seqs.get 0 n + 1) % 256
    let s := s.updLnk fun l => { l with seqs := l.seqs.set 0 n seq }
    let cls := (s.schCls n).num
    let first := leBytes 1 c.op.toNat ++ [0] ++ leBytes 2 c.tgt.toNat ++ leBytes 4 c.count.toNat ++ zeros 8 ++
      leBytes 1 (s.schSag n) ++ leBytes 1 cls ++ zeros 2 ++ leBytes 4 s.kiln.frame.toNat
    let cells := msgCells 4 (cls == 0) s.lnk.node c.node (n + 256 * seq) first o.tx
    let s := s.sendMsg (rankOfCls cls) (s.laneTo c.node) cells
    s.updSch n fun x => { x with
      state := if x.state == .halting then .halting else .waiting
      op := some { o with phase := .remote, seq, deadline := x.dispatchedAt + s.remoteTimeoutNs n c } }

/-- A port CCW of this node has passed its checks: on a SHARED port the grant is awaited (R60, R246), under a halt it ends there
(R96); otherwise the port logic takes it in its turn (R214). -/
def State.enqueueOp (s : State) (n : Nat) (o : PortOp) : State :=
  let p := o.port
  if decide (portKind p ≤ 3) && s.portShared p && !s.holds p n then
    match s.slotOn p n with
    | some (g, k) =>
      if (s.sch n).state == .halting then s.progEnd n .halted
      else ((s.updSch n fun x => { x with op := some { o with phase := .claim } }).raiseReq g k).work
    | none => s.ccwFail n o.ccw .protectionCheck
  else (s.updSch n fun x => { x with op := some { o with phase := .queued } }).work

/-- The operands of a CONTROL or a remote CCW are at hand: a remote CCW leaves; a CONTROL block that was not judged at the dispatch is
judged now (R219, R214). -/
def State.submitOp (s : State) (n : Nat) (o : PortOp) : State :=
  let c := o.ccw
  let p := o.port
  let b := o.tx
  if s.isRemote c then s.sendRemote n o
  else if o.limit.isSome then s.ccwFail n c ((o.limit.map (·.2)).getD .programCheck)
  else if !s.controlOk p b || (lineCode (leAt b 0 2) && s.schCls n != .g && s.gOnPort p && decide (s.segNs p < s.portCharge p c)) then
    s.ccwFail n c .programCheck
  else match s.portRights n c with
    | some st => s.ccwFail n c st
    | none =>
      if leAt b 0 2 == 0x0071 && !(s.wm (p - 0xA0)).cfg.hostwin then s.ccwFail n c .protectionCheck else s.enqueueOp n o

/-- More of an operation's operands has come: when they are complete a CONTROL or a remote CCW is judged or sent, and a transfer
that has the line goes on. -/
def State.opReady (s : State) (n : Nat) : State :=
  match (s.sch n).op with
  | none => s
  | some o =>
    if o.phase != .prep || !s.txReady n then s
    else if o.ccw.op == 0x03 || s.isRemote o.ccw then s.submitOp n o
    else (s.beginLine n o).work

/-- A port CCW has passed its checks: the subchannel waits. A CONTROL and a remote CCW have their operands read first; the others
when the port logic takes them up (R53, R58). -/
def State.startPortCcw (s : State) (n : Nat) (c : Ccw) : State :=
  let i2c := s.ccwI2c c
  let s := s.tick1
  let p := c.port
  let o : PortOp := {
    seq := s.serial, respNs := s.respNs p, byteNs := s.byteNs p, turnNs := s.turnNs p, ovhNs := s.ovhNs p
    ccw := c, port := p, node := c.node, phase := .prep, t0 := s.clk
    pieces := if c.list || !c.usesAddr then [] else [(c.addr, c.bufLen i2c)]
    listNext := if c.list && c.usesAddr && c.bufLen i2c ≠ 0 then some c.addr else none }
  let s := s.updSch n fun x => { x with state := if x.state == .halting then .halting else .waiting, op := some o }
  if c.op == 0x03 || s.isRemote c then (State.prepTx n prepFuel s).opReady n else s.enqueueOp n o

/-- The response of a remote CCW has its place: the received data are written and the CCW completes with the target's status, or with
that of a bad list element (R357 step 4, R54). -/
def State.remoteEnd (s : State) (n : Nat) (o : PortOp) : State :=
  match o.remoteSt with
  | none => s
  | some (st, dstat, residual, frame) =>
    let c := o.ccw
    let room := match o.limit with | some (k, _) => k - c.txLen | none => o.rx.length
    let cut := c.stores && decide (room < o.rx.length)
    let s := if !c.stores || o.rx.isEmpty then s else s.storePieces (s.schSag n) o.pieces (if c.op == 0x05 then c.txLen else 0) (o.rx.take room)
    let st := if cut then ((o.limit.map (·.2)).getD st) else st
    let s := s.updSch n fun x => { x with
      residual := w32 (if cut then residual + (o.rx.length - room) else residual), dstat
      applyFrame := if c.op == 0x0A && st == .ok then BitVec.ofNat 16 (frame + 1) else x.applyFrame
      stageTicks := if c.op == 0x0A && st == .ok then 0 else x.stageTicks, op := none }
    (s.opDone n o st).work

/-! ### Host reads of a port CCW (R441) -/

/-- A list element of a port CCW has come, or its read has failed. The transfer goes on; a receive that has ended and whose bytes all
have their place completes. -/
def State.gotElement (s : State) (n : Nat) (d : Option (List Byte)) : State :=
  match (s.sch n).op with
  | none => s
  | some o =>
    let o' := match d with
      | some bs => s.addElement n o bs
      | none => { o with elemBusy := false }.stopAt o.covered .dataIntegrity
    let s := (s.charge n 1).updSch n fun x => { x with op := some o' }
    if o'.phase == .prep then (State.prepTx n prepFuel s).opReady n
    else
      let s := s.coverRx n
      match (s.sch n).op with
      | none => s
      | some o =>
        if o.phase == .ended then
          if o.rxPlaced then ((if portKind o.port = 1 && o.ccw.op != 0x04 then s else s.sampleReqs o.port n).endOp n o none).work else s
        else if o.phase == .remote then if o.rxPlaced then s.remoteEnd n o else s
        else if o.phase == .receive && o.listBroke then s.receiveEnds n o.port 0
        else s

/-- Transmit data of a port CCW have come. -/
def State.gotData (s : State) (n : Nat) (d : Option (List Byte)) : State :=
  match (s.sch n).op with
  | none => s
  | some o =>
    let o' := match d with
      | some bs => { o with tx := o.tx ++ bs }
      | none => o.stopAt o.tx.length .dataIntegrity
    (State.prepTx n prepFuel (s.updSch n fun x => { x with op := some o' })).opReady n

end Sys2Proof.Machine
end

