-- ==== Sys2Proof/Machine/CcwPort.lean ====
section
/-! DEFINITION. The port transfer words and the image words: WRITE, READ, CONTROL, SENSE, EXCHANGE (R58, R215, R219), STAGE
(R62) and SNAP (R63). The transfer itself is the port logic's (Machine/Line.lean); its end comes by an end command. -/

namespace Sys2Proof.Machine

/-! ### Port transfer words (R58) -/

/-- Dispatch a port transfer word: checks by R54, then the subchannel waits for the port. -/
def State.portWordCcw (s : State) (n : Nat) (op : Byte) : State :=
  s.dispatch n op (fun s c => s.portStep2 n c) (fun s c => s.portStep3 n c) (fun s c => s.portStep4 n c) fun s c => s.startPortCcw n c

/-- WRITE sends COUNT bytes from ADDR to the port's transmit FIFO (R58). -/
def execCcwWrite (sch : Nat) (s : State) : Out := act (.ccwWrite sch) s fun s => s.portWordCcw sch 0x01

/-- READ stores up to COUNT received bytes at ADDR (R58, R215). -/
def execCcwRead (sch : Nat) (s : State) : Out := act (.ccwRead sch) s fun s => s.portWordCcw sch 0x02

/-- CONTROL hands a control block to the port (R58, R219); its code then acts by the command of that code. -/
def execCcwControl (sch : Nat) (s : State) : Out := act (.ccwControl sch) s fun s => s.portWordCcw sch 0x03

/-- SENSE stores the port's sense block (R58, R220). -/
def execCcwSense (sch : Nat) (s : State) : Out := act (.ccwSense sch) s fun s => s.portWordCcw sch 0x04

/-- EXCHANGE transmits, turns the line around and receives (R58, R59). -/
def execCcwExchange (sch : Nat) (s : State) : Out := act (.ccwExchange sch) s fun s => s.portWordCcw sch 0x05

/-- The end of an operation, with all that follows at once when the port or a program is free. -/
def State.finishOp (s : State) (n : Nat) (o : PortOp) (forced : Option Status) : State := (s.endOp n o forced).work

/-! ### STAGE (R62) -/

/-- The size of a STAGE operand for a port. -/
def stageSize (p : Nat) : Nat := if portKind p = 4 then 16 else 4

/-- The output pins of the GPIO bank, as a mask. -/
def State.outMask (s : State) : DWord := (List.range 64).foldl (fun v i => if s.gpOut i then setBit v i true else v) 0

/-- Add a port to a list of ports kept in rising order. -/
def addPort (p : Nat) (ps : List Nat) : List Nat := if ps.contains p then ps else insertBy id p ps

/-- A staging image with one operand written: only output pins under the mask, a duty word, or a DAC code. -/
def StageImage.put (i : StageImage) (p : Nat) (bs : List Byte) (outs : DWord) : StageImage :=
  let k := portKind p
  if k = 4 then
    let m : DWord := BitVec.ofNat 64 (leAt bs 8 8) &&& outs
    { i with gpioVal := (i.gpioVal &&& ~~~ m) ||| (BitVec.ofNat 64 (leAt bs 0 8) &&& m), gpioMask := i.gpioMask ||| m }
  else if k = 5 then { i with duty := i.duty.set none (p - 0x70) (some (leAt bs 0 4)) }
  else if k = 7 then { i with dac := i.dac.set none (p - 0x88) (some (leAt bs 0 2)) }
  else i

/-- The operand's value is one the port takes: DUTY up to 65,536 (R238); a DAC code's upper half zero (R62). -/
def stageOk (p : Nat) (bs : List Byte) : Bool :=
  if portKind p = 5 then decide (leAt bs 0 4 ≤ 65536) else if portKind p = 7 then leAt bs 2 2 == 0 else true

/-- Write an operand to the staging image (R14, R62), with the mark of a qualifying STAGE (R404). -/
def State.stagePut (s : State) (n p : Nat) (bs : List Byte) : State :=
  let img := s.stage.put p bs s.outMask
  let img := if s.qualifies n p then { img with qualified := addPort p img.qualified } else img
  let s := { s with stage := img }
  if portKind p = 5 then s.setPwm (p - 0x70) { s.pwm (p - 0x70) with staged := leAt bs 0 4 }
  else if portKind p = 7 then s.setDac (p - 0x88) { s.dac (p - 0x88) with staged := leAt bs 0 2 }
  else s

/-- A STAGE that executes on this node, by its own subchannel or for another node: from the Commit slice on it lands in the image of
the following frame (R14, R15, R62). -/
def State.stageHere (s : State) (n p : Nat) (bs : List Byte) : State :=
  (if s.inCommit && s.kiln.slice != 15 then s.commitBegin else s).stagePut n p bs

/-- What a program keeps of a STAGE: the ticks until the one that applies it, two from the start of the Commit slice on (R14); while
no frame runs the frame has no number (R15). -/
def State.noteStage (s : State) (n : Nat) : State :=
  s.updSch n fun x => { x with
    applyFrame := 0xFFFF, stageTicks := if !s.kiln.frameRuns then 0 else if s.kiln.slice = 15 then 2 else 1 }

/-- A port CCW that passes its checks and meets no line: it completes at once, with PORT_ERROR when the port is off (R211). -/
def State.instantCcw (s : State) (n : Nat) (c : Ccw) (rx : List Byte) : State :=
  let off := decide (portKind c.port ≤ 7) && !s.portEn c.port
  let s := if decide (portKind c.port ≤ 7) then s.zeroOnChange c.port (s.opSag n) else s
  let o : PortOp := {
    ccw := c, port := c.port, node := c.node, phase := .ended, pieces := [(c.addr, c.count.toNat)]
    rx := if off then [] else rx, rxCount := if off then 0 else c.count.toNat }
  let s := (s.updSch n fun x => { x with op := some o }).endOp n o none
  if (s.sch n).state == .active || (s.sch n).state == .halting || (s.sch n).state == .suspended then s else s.work

/-- STAGE writes its operand to the staging image (R62); on a remote port the operand travels (R61). -/
def execCcwStage (sch : Nat) (s : State) : Out :=
  act (.ccwStage sch) s fun s =>
    s.dispatch sch 0x0A
      (fun s c => s.portStep2 sch c && c.count.toNat == stageSize c.port)
      (fun s c =>
        if !isLs c.addr then some .addressCheck
        else if lsResv c.addr then some .programCheck
        else if fld c.addr 0 3 ≠ 0 then some .addressCheck
        else s.checkRange (s.schSag sch) c.addr c.count.toNat)
      (fun s c => s.portStep4 sch c)
      fun s c =>
        let sag := s.schSag sch
        let bs := s.lsRead sag (lsOff c.addr) c.count.toNat
        if s.lsPoisoned sag (lsOff c.addr) ((c.count.toNat + 7) / 8 * 8) then s.ccwFail sch c .dataIntegrity
        else if !stageOk c.port bs then s.ccwFail sch c .programCheck
        else if s.isRemote c then s.startPortCcw sch c
        else if !s.portEn c.port then s.instantCcw sch c []
        else
          ((s.stageHere sch c.port bs).noteStage sch).instantCcw sch c []

/-! ### SNAP (R63) -/

/-- The size of the image part that a port selects. -/
def snapSize (p : Nat) : Nat := if p = 0x1FF then 64 else if portKind p = 6 then 4 else 8

/-- A monitor word of the image as a saggar may see it. -/
def State.maskWm (s : State) (sag : Nat) (w : Word) : Word :=
  (List.range 32).foldl (fun v i => if s.mayObserve sag (0xA0 + i) then v else setBit v i false) w

/-- The image part that port `p` selects, as saggar `sag` sees it (Table 3.7). -/
def State.snapPart (s : State) (sag p : Nat) : List Byte :=
  let i := s.image
  let gpio := leBytes 8 (if s.mayObserve sag 0x60 then i.gpio.toNat else 0)
  let wms := leBytes 4 (s.maskWm sag i.above).toNat ++ leBytes 4 (s.maskWm sag i.below).toNat
  let enc (k : Nat) := leBytes 4 (if s.mayObserve sag (0x80 + k) then (i.counts.get 0 k).toNat else 0)
  if p = 0x1FF then
    leBytes 8 i.stime.toNat ++ leBytes 4 i.frame.toNat ++ zeros 4 ++ gpio ++ wms ++ ((List.range 8).map enc).flatten
  else if portKind p = 4 then gpio
  else if portKind p = 6 then enc (p - 0x80)
  else wms

/-- SNAP copies a part of the frame's input image to memory (R63). -/
def execCcwSnap (sch : Nat) (s : State) : Out :=
  act (.ccwSnap sch) s fun s =>
    s.dispatch sch 0x0B
      (fun s c => s.portStep2 sch c && c.count.toNat == snapSize c.port)
      (fun s c =>
        if isLs c.addr && lsResv c.addr then some .programCheck
        else if fld c.addr 0 3 ≠ 0 then some .addressCheck
        else s.checkRange (s.schSag sch) c.addr c.count.toNat)
      (fun s c => s.portStep4 sch c)
      fun s c =>
        if s.isRemote c then s.startPortCcw sch c
        else s.instantCcw sch c (s.snapPart (s.schSag sch) c.port)

end Sys2Proof.Machine
end

