-- ==== Sys2Proof/Machine/Ends.lean ====
section
/-! DEFINITION. The ends of waits: the instants of a port transfer (Table 3.6, Table 4.6, R215, R224), the expiry of wait words
(R67 to R69), and the end of a FENCE (R71). Each command acts when its instant has come; otherwise it has no effect. -/

namespace Sys2Proof.Machine

/-! ### Port transfers -/

/-- The DSTAT bits that a serial line may report at a transfer's end: those of I²C and of SSI (Table 9.4). RESP_NS = 0 sets no limit
to clock stretching (R227). -/
def State.lineBits (s : State) (o : PortOp) : BitVec 16 :=
  if s.serialMode o.port = 4 then (if o.respNs = 0 then 0x02C0 else 0x03C0) else if s.serialMode o.port = 5 then 0x0400 else 0

/-- The eight bits of a byte in the other order. -/
def revByte (b : Byte) : Byte := (List.range 8).foldl (fun v i => setBit v (7 - i) (bit b i)) 0

/-- Gray code to binary: each bit is the sum of those above it. -/
def grayDecode : Nat → Nat → Nat
  | 0, v => v
  | k + 1, v => grayDecode k (v ^^^ (v >>> 2 ^ k))

/-- What a line without characters gives a CCW: the line reports its bits as they came, in SPI the first as the most significant of
its byte, in SSI the word of NBITS bits as a number (R226, R228). -/
def State.lineBytes (s : State) (p : Nat) (bs : List Byte) : List Byte :=
  let w := s.liveWord p 2
  if s.serialMode p = 3 then if bit w 2 then bs.map revByte else bs
  else if s.serialMode p = 5 then
    let v := leNat (bs.take 4) % 2 ^ fld w 0 6
    leBytes 4 (if bit w 6 then grayDecode 5 v else v)
  else bs

/-- The instant before which a transfer without characters has not ended, where it runs whole: its clocks and CS_LAG (R226, R228).
An I²C transfer may end early at an unacknowledged byte. -/
def State.lineDue (s : State) (o : PortOp) : Nat :=
  let p := o.port
  if s.serialMode p = 3 then
    if o.ccw.op == 0x05 then o.t2 + o.turnNs + 8 * o.ccw.rxLen false * s.bitNs p
    else o.t1 + 8 * (o.ccw.txLen + o.ccw.rxLen false) * s.bitNs p
  else if s.serialMode p = 5 then o.t1 + (fld (s.liveWord p 2) 0 6 + 1) * s.bitNs p
  else o.t1

/-- The transfer of a port without characters (SPI, I²C, SSI) ends as the line reports. A READ of SPI has shifted FILL out; after an
SSI word the next READ waits for MONO_NS (R226 to R228). -/
def State.lineEnd (s : State) (n : Nat) (o : PortOp) (e : LineEnd) : State :=
  let p := o.port
  let bits := e.dstat &&& s.lineBits o
  let notReady := bit bits 10
  if s.clk < (if notReady then o.t1 else s.lineDue o) then s
  else
    let want := o.ccw.rxLen (s.isI2c p)
    let rx := if notReady then [] else (s.lineBytes p e.received).take want
    let rx := if s.serialMode p = 3 then padTo want rx else rx
    let sent := if s.serialMode p = 3 then o.tx.length else min e.sent o.ccw.txLen
    let short := o.ccw.op == 0x05 && decide (sent < o.ccw.txLen)
    let fill : Byte := BitVec.ofNat 8 (fld (s.liveWord p 2) 8 8)
    let s := s.updPort p fun x => { x with
      tx := [], txBy := [], rxTotal := x.rxTotal + w32 rx.length
      sent := if s.serialMode p = 3 then x.sent ++ List.replicate rx.length fill else x.sent
      lineAt := if s.serialMode p = 5 && o.ccw.op == 0x02 && !notReady then s.lineDue o + fld (s.liveWord p 3) 0 24 else x.lineAt }
    let last := (if s.serialMode p = 4 then 9 else 8) * s.bitNs p
    let s := if o.ccw.op == 0x01 then s.sampleReqsAt p n (s.clk - last) else s.sampleReqs p n
    (s.rxDone n { o with
      phase := .ended, t3 := s.clk, rx, rxCount := rx.length, txCount := sent
      dstat := o.dstat ||| bits ||| dbit 11 short }).work

/-- Characters of `n` still to enter the transmit FIFO leave no room yet: the FIFO holds 256 (R111). -/
def State.writeRoom (s : State) (p : Nat) : Bool := decide (s.txLevel p ≤ 256) && (s.port p).segment.isNone

/-- A WRITE's last byte has entered the transmit FIFO: it completes (R111). -/
def State.writeEntered (s : State) (n : Nat) (o : PortOp) : State :=
  let (st, s) := s.closeOp n { o with txCount := o.tx.length } none
  let s := s.updSch n fun x => { x with op := none }
  ((s.liveCheck o.port).opDone n o st).work

/-- The transmit FIFO of a port has drained to the line: the WRITEs it held are out. -/
def State.drained (s : State) (p : Nat) : State := s.updPort p fun x => { x with tx := [], txBy := [], sent := [] }

/-- The end of a transmission of WRITEs, at the end of its last bit: the data phase of a transmit-only CCW ends, whose last byte left
the FIFO one character before; a break point may pass the grant, and the line is free (R223, R247, R248). While its span goes on, or
a CCW of it still moves bytes, it has not ended. -/
def State.transmitEnds (s : State) (p n : Nat) : State :=
  let x := s.port p
  let moving := match (s.sch n).op with
    | some o => o.port == p && (o.phase == .line || o.phase == .prep || o.phase == .listen || o.phase == .receive || o.phase == .ended)
    | none => false
  if moving || s.clk < x.txEnd || x.txOwner != some n || (s.sch n).spanOn p then s
  else
    let s := ((s.sampleReqsAt p n (x.txEnd - s.charNs p)).drained p).freeLine p
    let s := if x.brkPt then (s.breakPoint p n).2 else s
    (s.liveCheck p).work

/-- The character port whose line a subchannel holds. -/
def State.lineOf (s : State) (n : Nat) : Option Nat :=
  (s.ports.find? fun e => e.2.lineBusy == some n && portKind e.1 == 1 && s.charMode e.1).map (·.1)

/-- PORT_TRANSFER_END (R58): the receive that ended completes; a WRITE's last byte has entered the FIFO; the last bit of a completed
WRITE is out; a transfer without characters ends as the line reports; a break or a recovery has run its time. -/
def execPortTransferEnd (sch : Nat) (e : LineEnd) (s : State) : Out :=
  act (.portTransferEnd sch e) s fun s =>
    let out (s : State) : State := match s.lineOf sch with | some p => s.transmitEnds p sch | none => s
    match (s.sch sch).op with
    | none => out s
    | some o =>
      if o.phase == .ended then if decide (o.t3 ≤ s.clk) && o.rxPlaced then s.finishOp sch o none else s
      else if o.phase != .line || portKind o.port ≠ 1 || o.ccw.op == 0x03 then out s
      else if !s.charMode o.port then s.lineEnd sch o e
      else if o.ccw.op == 0x01 then if s.writeRoom o.port then s.writeEntered sch o else s
      else s

/-- The driver of an RS-485 line is released TURN_NS after its last bit (R223). -/
def State.releaseDe (s : State) (p : Nat) : State :=
  let x := s.port p
  if x.lineBusy.isNone && x.txEnd + x.txTurn ≤ s.clk then s.setPort p { x with de := false } else s

/-- The receiver of operation `n` opens at t3 (Tables 3.6 and 4.6). -/
def State.openReceiver (s : State) (n p t3 : Nat) : State :=
  ((s.drained p).updPort p fun x => { x with de := false, txOwner := none }).updOp n fun o => { o with t3, phase := .listen }

/-- LINE_TURNAROUND (R59, R223, Tables 3.6 and 4.6): TURN_NS after the last bit the driver is released; an EXCHANGE, or a READ chained
after a WRITE, opens its receiver. A transmission whose last bit is out ends first. -/
def execLineTurnaround (port : Nat) (s : State) : Out :=
  act (.lineTurnaround port) s fun s =>
    if portKind port ≠ 1 || !s.charMode port then s
    else
      let s := match (s.port port).lineBusy with
        | some n => s.transmitEnds port n
        | none => s
      match (s.port port).lineBusy with
      | none => s.releaseDe port
      | some n =>
        match (s.sch n).op with
        | none => s
        | some o =>
          let x := s.port port
          if o.port != port || o.phase != .line then s
          else if o.ccw.op == 0x05 && decide (o.t2 + o.turnNs ≤ s.clk) then
            let s := s.openReceiver n port (o.t2 + o.turnNs)
            if o.ccw.rxLen false = 0 then (s.updOp n fun o => { o with phase := .ended }).sampleReqs port n else s
          else if o.ccw.op == 0x02 && decide (x.txEnd + x.txTurn ≤ s.clk) then s.openReceiver n port (x.txEnd + x.txTurn)
          else s

/-- PORT_TIMEOUT (R59): no byte has begun by t3 + RESP_NS. A break that came before is reported with it (R223). -/
def execPortTimeout (sch : Nat) (s : State) : Out :=
  act (.portTimeout sch) s fun s =>
    match (s.sch sch).op with
    | some o =>
      if o.phase == .listen && decide (o.t3 + o.respNs ≤ s.clk) then
        s.finishOp sch { o with dstat := o.dstat ||| dbit 3 (s.port o.port).brk } (some .portTimeout)
      else s
    | none => s

/-- READ_IDLE_END (R215): no further byte has begun within BYTE_NS, and the READ ends short. -/
def execReadIdleEnd (sch : Nat) (s : State) : Out :=
  act (.readIdleEnd sch) s fun s =>
    match (s.sch sch).op with
    | some o =>
      if o.phase == .receive && o.ccw.op == 0x02 && decide (o.lastByte + o.byteNs ≤ s.clk) then s.receiveEnds sch o.port 0
      else s
    | none => s

/-- END_OF_FRAME (R224): the line has been idle for GAP characters or the Modbus silence since the last byte's end; a receive in
progress ends with EOF, and the discarding of a frame's rest ends. -/
def execEndOfFrame (port : Nat) (s : State) : Out :=
  act (.endOfFrame port) s fun s =>
    if portKind port ≠ 1 || !s.charMode port then s
    else match s.frameGap port with
      | none => s
      | some g =>
        let x := s.port port
        if s.clk < x.lastRx + g then s
        else
          let s := s.setPort port { x with discard := false }
          match x.lineBusy with
          | none => s
          | some n =>
            match (s.sch n).op with
            | some o =>
              if o.port == port && o.phase == .receive && !x.frameRx.isEmpty then s.receiveEnds n port (dbit 5 true) else s
            | none => s

/-! ### Wait words -/

/-- The CCW that a subchannel waits in. -/
def State.curCcw (s : State) (n : Nat) : Ccw := ((s.sch n).cur).getD { op := 0, flags := 0, tgt := 0, count := 0, addr := 0 }

/-- WAITT_EXPIRY (R67). -/
def execWaittExpiry (sch : Nat) (s : State) : Out :=
  act (.waittExpiry sch) s fun s =>
    match (s.sch sch).wait with
    | .time due => if due ≤ s.clk then s.ccwOk sch (s.curCcw sch) else s
    | _ => s

/-- The timeout of a WAITC has come (R33: the condition at that very instant is late). -/
def timedOut (due : Option Nat) (now : Nat) : Bool :=
  match due with
  | some t => decide (t ≤ now)
  | none => false

/-- WAITC_TRUE (R68): the condition holds, and the program goes on at the next CCW. -/
def execWaitcTrue (sch : Nat) (s : State) : Out :=
  act (.waitcTrue sch) s fun s =>
    match (s.sch sch).wait with
    | .cond code inv due =>
      if s.cond sch code.toNat != inv && !timedOut due s.clk then s.ccwOk sch (s.curCcw sch) else s
    | _ => s

/-- WAITC_TIMEOUT (R68): the next CCW is skipped. -/
def execWaitcTimeout (sch : Nat) (s : State) : Out :=
  act (.waitcTimeout sch) s fun s =>
    match (s.sch sch).wait with
    | .cond _ _ due => if timedOut due s.clk then s.ccwSkip sch (s.curCcw sch) else s
    | _ => s

/-- WAITF_DONE (R69): the ticks have been counted, or the frame named has opened or lies in the past. -/
def execWaitfDone (sch : Nat) (s : State) : Out :=
  act (.waitfDone sch) s fun s =>
    match (s.sch sch).wait with
    | .ticks left => if left = 0 then s.ccwOk sch (s.curCcw sch) else s
    | .frame f => if f = s.kiln.frame || inPast f s.kiln.frame then s.ccwOk sch (s.curCcw sch) else s
    | _ => s

/-! ### FENCE (R71) -/

/-- Nothing that the subchannel wrote is still to leave the port's transmit FIFO (R71): characters whose start bit lies ahead, queued
records. -/
def State.fenceDue (s : State) (n p : Nat) : Bool :=
  let x := s.port p
  if portKind p = 2 then !(x.mbs.any fun e => e.2.kind == 2 && e.2.full && e.2.sch == n)
  else if portKind p = 3 then !(x.ethTx.any fun r => r.sch == n)
  else !(s.txByNow p).contains n && !x.waitBy.contains n && !(match x.segment with | some g => g.by_.contains n | none => false)

/-- A FENCE on a port completes with the port's DSTAT: ABANDON and OFF end it with PORT_ERROR (Table 9.4). -/
def State.fencePortEnd (s : State) (n p : Nat) : State :=
  let d := s.standing n p
  let st := (dstatStatus p 0x09 d).getD .ok
  let s := s.addEstat p d
  let s := if st == .portError then s.updPort p fun x => { x with errs := sat16 x.errs } else s
  let s := s.clearSince n p
  let s := s.updSch n fun x => { x with residual := 0, dstat := d }
  let x := s.sch n
  s.ccwDone n (s.curCcw n) st (x.nextPc x.curPc)

/-- FENCE_DONE (R71): the port's transmit FIFO has none of the subchannel's bytes or records left, local store has taken every write. A FENCE on host memory ends by the return of its read. -/
def execFenceDone (sch : Nat) (s : State) : Out :=
  act (.fenceDone sch) s fun s =>
    match (s.sch sch).wait with
    | .fencePort p => if s.fenceDue sch p then s.fencePortEnd sch p else s
    | .fenceLs => s.ccwOk sch (s.curCcw sch)
    | _ => s

end Sys2Proof.Machine
end

