-- ==== Sys2Proof/Machine/Controls.lean ====
section
/-! DEFINITION. The CONTROL codes of the field ports (R219, R227, R228, R232, R235, R237 to R239). A code's command acts on the
CONTROL CCW of its operation number that the port logic has taken up. -/

namespace Sys2Proof.Machine

/-- The CONTROL operation of `n` that the port logic has taken up, if its code is `code`. -/
def State.codeOp (s : State) (n code : Nat) : Option PortOp :=
  match (s.sch n).op with
  | some o => if o.phase == .line && o.ccw.op == 0x03 && leAt o.tx 0 2 == code then some o else none
  | none => none

/-- A CONTROL code has acted on port `p`: its CCW completes. -/
def State.codeDone (s : State) (n : Nat) (o : PortOp) : State := s.finishOp n { o with txCount := o.tx.length } none

/-- The effect of a non-line code: `f` on the port of the operation, then the CCW completes; it is the arbitration instant (R248). -/
def State.code (s : State) (n code : Nat) (f : State → PortOp → State) : State :=
  match s.codeOp n code with
  | some o => (f s o).codeDone n o
  | none => s

/-- Empty every FIFO of a port; on CAN FD pending transmit frames are withdrawn with ABANDON (R219, R232). -/
def State.emptyFifos (s : State) (p : Nat) : State :=
  let k := portKind p
  if k = 1 then s.updPort p fun x => { x with rx := [], tx := [], txBy := [], sent := [], segment := none }
  else if k = 2 then s.updPort p fun x =>
    let x := x.withdrawAll
    { x with mbs := x.mbs.map fun e => if e.2.kind == 1 then (e.1, { e.2 with full := false, record := [], stime := 0 }) else e }
  else if k = 3 then s.updPort p fun x => { x with ethTx := [], ethRx := [] }
  else if k = 4 then { s with gpio := { s.gpio with capture := [], snaps := [] } }
  else if k = 6 then s.setEnc (p - 0x80) { s.enc (p - 0x80) with capture := [] }
  else s

/-- FLUSH (R219). -/
def execPortFlush (sch : Nat) (s : State) : Out :=
  act (.portFlush sch) s fun s => s.code sch 0x0001 fun s o => s.emptyFifos o.port

/-- Clear ESTAT; on CAN FD bus-off recovery starts (R219, R232). On the DAC the code has no effect. -/
def State.clearEstat (s : State) (p : Nat) : State :=
  let k := portKind p
  if k = 7 then s
  else if k = 8 then s.updWm (p - 0xA0) fun m => { m with estat := 0 }
  else if k = 9 then { s with adc := { s.adc with estat := 0 } }
  else if k = 2 then s.updPort p fun x => { x with estat := 0, recovering := x.recovering || x.canState == 2 }
  else s.updPort p fun x => { x with estat := 0 }

/-- CLRERR (R219). -/
def execClrerr (sch : Nat) (s : State) : Out :=
  act (.clrerr sch) s fun s => s.code sch 0x0002 fun s o => s.clearEstat o.port

/-- A line code starts on the line and runs for a time; PORT_TRANSFER_END then ends it. -/
def State.lineCodeRun (s : State) (n code : Nat) (ns : State → PortOp → Nat) : State :=
  match s.codeOp n code with
  | some o => s.updOp n fun _ => { o with phase := .ended, txCount := o.tx.length, t3 := s.clk + ns s o }
  | none => s

/-- I2C_RECOVER: nine clock pulses and a STOP (R227). -/
def execI2cRecover (sch : Nat) (s : State) : Out :=
  act (.i2cRecover sch) s fun s => s.lineCodeRun sch 0x0010 fun s o => 9 * s.bitNs o.port

/-- BREAK: TXD low for the number of bit times in bytes 4 to 7 (R228). -/
def execBreakCode (sch : Nat) (s : State) : Out :=
  act (.breakCode sch) s fun s =>
    match s.codeOp sch 0x0011 with
    | some o =>
      let ns := leAt o.tx 4 4 * s.bitNs o.port
      (s.updPort o.port fun x => { x with txdLow := s.clk + ns }).lineCodeRun sch 0x0011 fun _ _ => ns
    | none => s

/-- CAN_MB configures a message buffer and withdraws the frame it holds (R232). -/
def execCanMb (sch : Nat) (s : State) : Out :=
  act (.canMb sch) s fun s => s.code sch 0x0020 fun s o =>
    let i := leAt o.tx 4 1
    s.updPort o.port fun x =>
      let m := x.mbs.get {} i
      { x with
        abandon := if m.kind == 2 && m.full then x.abandon ++ [m.sch] else x.abandon
        lineBusy := if m.kind == 2 && m.full && x.lineBusy == some m.sch then none else x.lineBusy
        mbs := x.mbs.set {} i { kind := leAt o.tx 5 1, filter := w32 (leAt o.tx 8 4), mask := w32 (leAt o.tx 12 4) } }

/-! ### MDIO (R235) -/

/-- The place of an operation among those that wait for the MDIO line: dispatch order behind the one that runs. -/
def State.mdioPut (s : State) (m : MdioOp) (seq : Nat) : State :=
  let seqOf (x : MdioOp) : Nat := (((s.sch x.sch).op).map PortOp.seq).getD 0
  match s.mdio with
  | [] => { s with mdio := [m] }.updOp m.sch fun o => { o with t1 := s.clk }
  | h :: rest => { s with mdio := h :: (rest.takeWhile fun x => decide (seqOf x < seq)) ++ [m] ++ (rest.dropWhile fun x => decide (seqOf x < seq)) }

/-- An MDIO CONTROL dispatched before operation `o` has not reached the MDIO line yet; of two dispatched in one cycle the lower port
number comes first (R235, Table 9.8). -/
def State.mdioEarlier (s : State) (o : PortOp) : Bool :=
  s.schs.any fun e => match e.2.op with
    | some q =>
      portKind q.port == 3 && q.ccw.op == 0x03 && (leAt q.tx 0 2 == 0x0030 || leAt q.tx 0 2 == 0x0031) &&
        (q.phase == .queued || q.phase == .line) && !(s.mdio.any fun m => m.sch == e.1) &&
        (decide (q.t0 < o.t0) || (q.t0 == o.t0 && (decide (q.port < o.port) || (q.port == o.port && decide (q.seq < o.seq)))))
    | none => false

/-- Hand an MDIO code to the line, once, and in dispatch order. -/
def State.mdioCode (s : State) (n code : Nat) (write : Bool) : State :=
  match s.codeOp n code with
  | some o =>
    if (s.mdio.any fun m => m.sch == n) || s.mdioEarlier o then s
    else
      s.mdioPut { sch := n, mac := o.port, phy := leAt o.tx 4 1, reg := leAt o.tx 5 1
                  data := if write then some (BitVec.ofNat 16 (leAt o.tx 6 2)) else none } o.seq
  | none => s

/-- MDIO_WRITE (R235). -/
def execMdioWrite (sch : Nat) (s : State) : Out := act (.mdioWrite sch) s fun s => s.mdioCode sch 0x0030 true

/-- MDIO_READ (R235). -/
def execMdioRead (sch : Nat) (s : State) : Out := act (.mdioRead sch) s fun s => s.mdioCode sch 0x0031 false

/-- MDIO_DONE: the operation on the MDIO line ends 25.6 µs after it began; a read leaves its result in the SENSE block (R235). -/
def execMdioDone (data : BitVec 16) (s : State) : Out :=
  act (.mdioDone data) s fun s =>
    match s.mdio with
    | [] => s
    | m :: rest =>
      match (s.sch m.sch).op with
      | none => { s with mdio := rest }
      | some o =>
        if s.clk < o.t1 + 25600 then s
        else
          let s := { s with mdio := rest }
          let s := match rest with
            | [] => s
            | h :: _ => s.updOp h.sch fun o => { o with t1 := s.clk }
          let s := if m.data.isNone then s.updPort m.mac fun x => { x with mdioData := data, mdioValid := true } else s
          s.codeDone m.sch o

/-! ### GPIO, PWM, encoder -/

/-- Put a field of `n` bits at bit `lo` into a PORT word. -/
def State.setPortField (s : State) (p w lo n v : Nat) : State :=
  let old := (s.portWord p w).toNat
  let keep := old - (old / 2 ^ lo % 2 ^ n) * 2 ^ lo
  { s with tables := { s.tables with port := s.tables.port.set 0 (16 * p + w) (w32 (keep + v % 2 ^ n * 2 ^ lo)) } }

/-- An edge kind for a pin: in force at the next tick, at once while no frame runs (R237, R36). -/
def State.setEdgeKind (s : State) (pin k : Nat) : State :=
  if s.kiln.frameRuns then { s with gpio := { s.gpio with edgePend := s.gpio.edgePend.set none pin (some k) } }
  else { s with gpio := { s.gpio with edgeInForce := s.gpio.edgeInForce.set 0 pin k } }

/-- SET_EDGE (R237). -/
def execSetEdge (sch : Nat) (s : State) : Out :=
  act (.setEdge sch) s fun s => s.code sch 0x0040 fun s o =>
    let pin := leAt o.tx 4 1
    (s.setPortField 0x60 (5 + pin / 16) (2 * (pin % 16)) 2 (leAt o.tx 5 1)).setEdgeKind pin (leAt o.tx 5 1)

/-- A PWM phase, in force at the next tick (R238). -/
def State.setPhase (s : State) (i v : Nat) : State :=
  if s.kiln.frameRuns then s.setPwm i { s.pwm i with phasePend := some v } else s.setPwm i { s.pwm i with phase := v }

/-- PHASE (R238). -/
def execPhase (sch : Nat) (s : State) : Out :=
  act (.phase sch) s fun s => s.code sch 0x0060 fun s o =>
    (s.setPortField o.port 2 0 24 (leAt o.tx 4 4)).setPhase (o.port - 0x70) (leAt o.tx 4 4)

/-- PRESET loads the count at the next tick, after its latch (R239); at once while no frame runs. -/
def execPreset (sch : Nat) (s : State) : Out :=
  act (.preset sch) s fun s => s.code sch 0x0050 fun s o =>
    let i := o.port - 0x80
    let v := w32 (leAt o.tx 4 4)
    if s.kiln.frameRuns then s.setEnc i { s.enc i with preset := some v } else s.setEnc i { s.encNow i with count := v }

/-- CLR_INDEX clears the index count (R239). -/
def execClrIndex (sch : Nat) (s : State) : Out :=
  act (.clrIndex sch) s fun s => s.code sch 0x0051 fun s o =>
    s.setEnc (o.port - 0x80) { s.enc (o.port - 0x80) with indexCount := 0 }

end Sys2Proof.Machine
end

