-- ==== Sys2Proof/Machine/PortEvents.lean ====
section
/-! DEFINITION. What arrives at the field ports: serial characters and breaks (R215, R218, R223 to R225), CAN FD and Ethernet
frames (R230 to R234), GPIO edges and snapshots (R237), encoder transitions and index pulses (R239). -/

namespace Sys2Proof.Machine

/-! ### Serial -/

/-- The receiver of a character port is on: enabled, and DE low (R211, R223). -/
def State.receiverOn (s : State) (p : Nat) : Bool :=
  portKind p == 1 && bit (s.liveWord p 0) 0 && s.charMode p && !(s.port p).de

/-- A character goes to the receiving CCW of the port. -/
def State.byteToOp (s : State) (n p : Nat) (b : RxByte) : State :=
  match (s.sch n).op with
  | none => s
  | some o =>
    let first := o.rxCount = 0
    let s := s.updPort p fun x => { x with
      frameRx := x.frameRx ++ [b.b], rxStime := if first then b.stime else x.rxStime }
    let o := { o with
      phase := .receive, rx := o.rx ++ [b.b], rxCount := o.rxCount + 1, lastByte := s.clk
      dstat := o.dstat ||| dbit 0 b.fe ||| dbit 1 b.pe }
    let s := s.updOp n fun _ => o
    let s := s.rxStored n p
    match (s.sch n).op with
    | some o => if o.phase == .receive then s else s.work
    | none => s.work

/-- A character that no CCW takes goes into the receive FIFO; a full FIFO drops it and sets OVR, in the DSTAT of every receiving CCW of
the port too (R218). -/
def State.byteToFifo (s : State) (p : Nat) (b : RxByte) : State :=
  if (s.port p).rx.length < 256 then s.updPort p fun x => { x with rx := x.rx ++ [b] } else s.dropFull p 0 (some b) []

/-- A character in [t0, t3) of an EXCHANGE, or before the window of a chained READ, is discarded; its errors show in DSTAT
(R216, Table 9.4). -/
def State.byteLost (s : State) (n : Nat) (b : RxByte) : State :=
  s.updOp n fun o => { o with dstat := o.dstat ||| dbit 0 b.fe ||| dbit 1 b.pe }

/-- A character reaches the port logic: the rest of a frame that ended at COUNT is discarded until the line has been idle (R224);
an open receive stores it; before t3 it is discarded; otherwise it goes into the FIFO. -/
def State.byteIn (s : State) (p : Nat) (b : RxByte) : State :=
  let op := match (s.port p).lineBusy with
    | some n => ((s.sch n).op).map fun o => (n, o)
    | none => none
  if (s.port p).discard then s.drops p
  else match op with
    | some (n, o) =>
      if o.port == p && (o.phase == .receive || (o.phase == .listen && decide (o.t3 + s.charNs p ≤ s.clk))) then s.byteToOp n p b
      else if o.port == p && (o.phase == .listen || (o.phase == .line && o.ccw.op == 0x05)) then s.byteLost n b
      else s.byteToFifo p b
    | none => s.byteToFifo p b

/-- The line was idle long enough before this character's start bit to end the frame whose rest is discarded (R224). -/
def State.frameOver (s : State) (p : Nat) : Bool :=
  match s.frameGap p with
  | some g => decide ((s.port p).lastRx + g + s.charNs p ≤ s.clk)
  | none => true

/-- BYTE_RECEIVED: a character with its error flags (R223). Its start bit began one character time earlier. -/
def execByteReceived (port : Nat) (b : Byte) (frameErr parityErr : Bool) (s : State) : Out :=
  act (.byteReceived port b frameErr parityErr) s fun s =>
    if !s.receiverOn port then s
    else
      let b : RxByte := {
        b := if bit (s.liveWord port 2) 0 then b &&& 0x7F else b
        fe := frameErr, pe := parityErr, stime := s.stime - BitVec.ofNat 64 (s.charNs port) }
      let idle := s.frameOver port
      let s := s.updPort port fun x => { x with rxTotal := x.rxTotal + 1, lastRx := s.clk, discard := x.discard && !idle }
      s.byteIn port b

/-- BREAK_RECEIVED: it ends a receive in progress with BRK, or waits for the port's next receiving CCW (R223). -/
def execBreakReceived (port : Nat) (s : State) : Out :=
  act (.breakReceived port) s fun s =>
    if !s.receiverOn port then s
    else
      let s := s.updPort port fun x => { x with lastRx := s.clk }
      let op := match (s.port port).lineBusy with
        | some n => ((s.sch n).op).map fun o => (n, o)
        | none => none
      match op with
      | some (n, o) =>
        if o.port == port && (o.phase == .receive || o.phase == .listen) then s.receiveEnds n port (dbit 3 true)
        else s.updPort port fun x => { x with brk := true }
      | none => s.updPort port fun x => { x with brk := true }

/-! ### CAN FD -/

/-- A controller that takes part in the bus: enabled, not bus-off. -/
def State.canOn (s : State) (p : Nat) : Bool :=
  portKind p == 2 && bit (s.liveWord p 0) 0 && fld (s.liveWord p 0) 4 4 == 1 && (s.port p).canState != 2

/-- A message buffer accepts an identifier (R232). -/
def CanMb.accepts (m : CanMb) (id : Word) : Bool :=
  m.kind == 1 && ((id ^^^ m.filter) &&& m.mask &&& 0x1FFFFFFF) == 0 && bit id 29 == bit m.filter 29

/-- The 16-byte header of a received record (R230). -/
def canHeader (id : Word) (len : Nat) (flags : Byte) (mb : Nat) (stime : DWord) : List Byte :=
  leBytes 4 (id &&& 0x7FFFFFFF).toNat ++ leBytes 1 len ++ leBytes 1 (flags &&& 7).toNat ++ leBytes 1 mb ++ [0] ++ leBytes 8 stime.toNat

/-- CAN_FRAME_RECEIVED: into the lowest-numbered empty matching RX buffer, or dropped with RXOVR (R232). `age`: ns since the
start-of-frame bit. -/
def execCanFrameReceived (port : Nat) (id : Word) (flags : Byte) (data : List Byte) (age : Nat) (s : State) : Out :=
  act (.canFrameReceived port id flags data age) s fun s =>
    let x := s.port port
    if !s.canOn port || !canLenOk data.length || (x.safe && x.safeOpt == 1) then s
    else
      let hits := (List.range 64).filter fun i => (x.mbs.get {} i).accepts id
      match hits.find? fun i => !(x.mbs.get {} i).full with
      | some i =>
        let t := s.stime - BitVec.ofNat 64 age
        let r := canHeader id data.length flags i t ++ data
        s.setPort port { x with mbs := x.mbs.set {} i { x.mbs.get {} i with full := true, record := r, stime := t } }
      | none =>
        if hits.isEmpty then s
        else ((s.setPort port { x with rxOvr := true }).drops port).addEstat port (dbit 5 true)

/-- The arbitration order of identifiers on the bus: the base identifier, a standard before an extended frame, the extension. -/
def canRank (id : Nat) : Nat :=
  if id / 2 ^ 29 % 2 = 1 then (id / 2 ^ 18 % 2048 * 2 + 1) * 2 ^ 18 + id % 2 ^ 18 else id % 2048 * 2 * 2 ^ 18

/-- The pending frame that the bus takes: lowest identifier, then the lower buffer (R232). -/
def Port.canNext (x : Port) (sof : Nat) : Option Nat :=
  ((sortBy (fun e => canRank (leAt e.2.record 0 4)) (x.mbs.filter fun e => e.2.kind == 2 && e.2.full && decide (e.2.queuedAt ≤ sof))).head?).map (·.1)

/-- Free a TX buffer. -/
def CanMb.emptied (m : CanMb) : CanMb := { m with full := false, record := [], queuedAt := 0, sch := 0 }

/-- A record of subchannel `m` has left a CAN FD or Ethernet port: its WRITE's data phase ends, on a SHARED port the line is free, and
where the WRITE had no HOLD this is a break point (R247, R248). -/
def State.recordOut (s : State) (p m : Nat) (brk : Bool) : State :=
  if !s.portShared p then s
  else
    let s := s.sampleReqs p m
    let s := if (s.port p).lineBusy == some m && s.fenceDue m p then s.freeLine p else s
    (if brk then (s.breakPoint p m).2 else s).work

/-- CAN_FRAME_SENT: the frame that won the bus is out (R232). `age`: ns since its start-of-frame bit. -/
def execCanFrameSent (port age : Nat) (s : State) : Out :=
  act (.canFrameSent port age) s fun s =>
    let x := s.port port
    if !s.canOn port || x.safe || bit (s.liveWord port 0) 10 then s
    else match x.canNext (s.clk - age) with
      | some i =>
        let m := x.mbs.get {} i
        (s.setPort port { x with
          mbs := x.mbs.set {} i m.emptied, lastTxStime := s.stime - BitVec.ofNat 64 age }).recordOut port m.sch m.brkPt
      | none => s

/-- Withdraw the pending frames that a test picks: their subchannels get ABANDON (R232, Table 9.4). -/
def State.canWithdrawn (s : State) (p : Nat) (pick : CanMb → Bool) : State :=
  let x := s.port p
  let gone := (x.mbs.filter fun e => pick e.2).map (·.2)
  let s := (s.setPort p { x with
    abandon := x.abandon ++ gone.map fun m => m.sch
    mbs := x.mbs.map fun e => if pick e.2 then (e.1, e.2.emptied) else e }).addEstat p (dbit 4 true)
  gone.foldl (fun s m => s.recordOut p m.sch m.brkPt) s

/-- CAN_WITHDRAW: frames not transmitted within RESP_NS of being queued are withdrawn with ABANDON; 0 = never (R232). -/
def execCanWithdraw (port : Nat) (s : State) : Out :=
  act (.canWithdraw port) s fun s =>
    let x := s.port port
    let r := s.respNs port
    let late (m : CanMb) : Bool := m.kind == 2 && m.full && decide (m.queuedAt + r ≤ s.clk)
    if portKind port ≠ 2 || r = 0 || !(x.mbs.any fun e => late e.2) then s
    else s.canWithdrawn port late

/-- CAN_BUS_ERROR moves TEC and REC; the state follows ISO 11898-1's limits (R221, R229): warning is shown at 96, passive above
127, bus-off above 255. An error that raises TEC has struck a transmission: with NORETX the frame is not sent again and leaves its
buffer (log entry 86). -/
def execCanBusError (port : Nat) (tecDelta recDelta : Int) (s : State) : Out :=
  act (.canBusError port tecDelta recDelta) s fun s =>
    if !s.canOn port then s
    else
      let x := s.port port
      let tec := (max 0 (Int.ofNat x.tec + tecDelta)).toNat
      let rec' := (max 0 (Int.ofNat x.recErr + recDelta)).toNat
      let st := if 255 < tec then 2 else if 127 < tec || 127 < rec' then 1 else 0
      let d := dbit 0 (st == 2) ||| dbit 1 (st == 1) ||| dbit 2 (decide (96 ≤ tec) || decide (96 ≤ rec'))
      let s := (s.setPort port { x with tec := min 255 tec, recErr := min 255 rec', canState := st }).addEstat port d
      match x.canNext s.clk with
      | some i =>
        let m := x.mbs.get {} i
        if decide (0 < tecDelta) && bit (s.liveWord port 0) 11 then s.canWithdrawn port (· == m) else s
      | none => s

/-- BUS_OFF_RECOVERY_DONE: the recovery that CLRERR started ends error active (R232). -/
def execBusOffRecoveryDone (port : Nat) (s : State) : Out :=
  act (.busOffRecoveryDone port) s fun s =>
    let x := s.port port
    if portKind port ≠ 2 || !x.recovering then s
    else s.setPort port { x with tec := 0, recErr := 0, canState := 0, recovering := false }

/-! ### Ethernet -/

/-- The MAC accepts a destination address (R233). -/
def State.ethAccepts (s : State) (p : Nat) (dst : List Byte) : Bool :=
  let mac := leBytes 4 (s.liveWord p 1).toNat ++ leBytes 2 (fld (s.liveWord p 2) 0 16)
  let h := fld (crc32 dst) 26 6
  bit (s.liveWord p 0) 10 || dst == mac || dst.all (· == 0xFF) ||
    (bit (dst.headD 0) 0 && bit (s.liveWord p (3 + h / 32)) (h % 32))

/-- A received frame is dropped and counted (R233). -/
def State.ethDrop (s : State) (p : Nat) (fcs : Bool) : State :=
  ((s.drops p).updPort p fun x => { x with
    dropped := x.dropped + 1, fcsErrs := if fcs then x.fcsErrs + 1 else x.fcsErrs, rxDrop := true }).addEstat p (dbit 2 true)

/-- ETH_FRAME_RECEIVED: filtered, checked and stored as a record, or dropped (R233, R234). `age`: ns since the end of the
start-frame delimiter. -/
def execEthFrameReceived (port : Nat) (frame : List Byte) (fcsOk : Bool) (age : Nat) (s : State) : Out :=
  act (.ethFrameReceived port frame fcsOk age) s fun s =>
    let x := s.port port
    let dst := frame.take 6
    if portKind port ≠ 3 || !bit (s.liveWord port 0) 0 || fld (s.liveWord port 0) 4 4 ≠ 1 || (x.safe && x.safeOpt == 1) ||
        frame.length < 14 || !s.ethAccepts port dst then s
    else if !fcsOk then s.ethDrop port true
    else if 1518 < frame.length then s.ethDrop port false
    else
      let used := x.ethRx.foldl (fun n r => n + r.length) 0
      let bc := dst.all (· == 0xFF)
      let r := leBytes 2 frame.length ++ leBytes 1 (b2n (bit (dst.headD 0) 0 && !bc) + 2 * b2n bc) ++ zeros 5 ++
        leBytes 8 (s.stime - BitVec.ofNat 64 age).toNat ++ frame
      if 16384 < used + r.length then s.ethDrop port false
      else s.setPort port { x with ethRx := x.ethRx ++ [r] }

/-- ETH_FRAME_SENT: the oldest queued frame is out; TSREQ records its time and TAG (R234). `age`: ns since the end of its
start-frame delimiter. -/
def execEthFrameSent (port age : Nat) (s : State) : Out :=
  act (.ethFrameSent port age) s fun s =>
    let x := s.port port
    if portKind port ≠ 3 || !bit (s.liveWord port 0) 0 || x.safe then s
    else match x.ethTx with
      | [] => s
      | r :: rest =>
        let x := { x with ethTx := rest }
        (s.setPort port (if leAt r.record 2 1 % 2 = 1 then
          { x with lastTxStime := s.stime - BitVec.ofNat 64 age, txTag := BitVec.ofNat 16 (leAt r.record 4 2) } else x)).recordOut
            port r.sch r.brkPt

/-- ETH_ABANDON: frames not started within RESP_NS are discarded with ABANDON; 0 = never (R234). The oldest queued frame has
started: the MAC, full duplex and deaf to pause frames, begins a frame as soon as its line is free (log entry 86). -/
def execEthAbandon (port : Nat) (s : State) : Out :=
  act (.ethAbandon port) s fun s =>
    let x := s.port port
    let r := s.respNs port
    let late (e : EthTx) : Bool := decide (e.queuedAt + r ≤ s.clk)
    let behind := x.ethTx.drop 1
    if portKind port ≠ 3 || r = 0 || !(behind.any late) then s
    else
      let gone := behind.filter late
      let s := (s.setPort port { x with
        abandon := x.abandon ++ gone.map EthTx.sch, ethTx := x.ethTx.take 1 ++ behind.filter fun e => !late e }).addEstat port (dbit 1 true)
      gone.foldl (fun s e => s.recordOut port e.sch e.brkPt) s

/-! ### GPIO -/

/-- The number of an edge kind. -/
def edgeNum : EdgeKind → Nat
  | .rising => 1 | .falling => 2

/-- The 16-byte record of an edge: STIME at 2 ns resolution, pin, kind (R237). -/
def edgeRecord (stime : DWord) (pin kind : Nat) : List Byte :=
  leBytes 8 (stime.toNat / 2 * 2) ++ leBytes 1 pin ++ leBytes 1 kind ++ zeros 6

/-- Push an edge record; the edges of one 2 ns step stand in increasing pin order (R237), and of those a full FIFO drops the last. -/
def State.pushEdge (s : State) (r : List Byte) : State :=
  let q := s.gpio.capture
  let later (x : List Byte) : Bool := leAt x 0 8 == leAt r 0 8 && decide (leAt r 8 1 < leAt x 8 1)
  let tail := (q.reverse.takeWhile later).reverse
  let all := q.take (q.length - tail.length) ++ [r] ++ tail
  let s : State := { s with gpio := { s.gpio with capture := all.take 256 } }
  if 256 < all.length then s.dropFull 0x60 1 none (all.getD 256 []) else s

/-- EDGE_CAPTURE: an edge of the configured kind is stamped, pushed and flagged, and fires the triggers on it (R237, R98). -/
def execEdgeCapture (pin : Nat) (kind : EdgeKind) (s : State) : Out :=
  act (.edgeCapture pin kind) s fun s =>
    let s := { s with gpio := { s.gpio with level := setBit s.gpio.level pin (kind == .rising) } }
    let k := s.gpio.edgeInForce.get 0 pin
    if !bit (s.liveWord 0x60 0) 0 || s.isCs pin || !(k == edgeNum kind || k == 3) then s
    else
      let s := { s with gpio := { s.gpio with edgeFlags := setBit s.gpio.edgeFlags pin true } }
      (s.pushEdge (edgeRecord s.stime pin (edgeNum kind))).fireSource 3 pin

/-- The pin levels the bank samples: an output pin reads back what it drives. -/
def State.seenLevels (s : State) (levels : DWord) : DWord :=
  (List.range 64).foldl (fun v i =>
    if s.gpOut i && bit s.gpio.driven i && !bit s.gpio.hiz i then
      setBit v i (if s.gpDir i = 1 then bit s.gpio.out i else bit s.gpio.out i && bit levels i)
    else v) levels

/-- Push a snapshot; a full FIFO drops it (R237, R218). -/
def State.pushSnap (s : State) (levels : DWord) : State :=
  if s.gpio.snaps.length < 512 then { s with gpio := { s.gpio with snaps := s.gpio.snaps ++ [leBytes 8 levels.toNat] } }
  else s.dropFull 0x60 2 none (leBytes 8 levels.toNat)

/-- GPIO_SNAPSHOT: the bank's next snapshot of the frame, at tick + k·SNAP_NS (R237). -/
def execGpioSnapshot (levels : DWord) (s : State) : Out :=
  act (.gpioSnapshot levels) s fun s =>
    let g := s.gpio
    if !bit (s.liveWord 0x60 0) 0 || g.snapInForce = 0 || !s.kiln.frameRuns || s.clk < g.snapNext ||
        s.kiln.tickAt + s.kiln.frameLen ≤ g.snapNext then s
    else
      let v := s.seenLevels levels
      { s with gpio := { s.gpio with level := v, snapNext := g.snapNext + g.snapInForce } }.pushSnap v

/-! ### Encoders -/

/-- ENCODER_EDGE: the new levels of A and B; they count once they have stood for FILTER ns, at once where FILTER is 0 (R239). -/
def execEncoderEdge (enc : Nat) (a b : Bool) (s : State) : Out :=
  act (.encoderEdge enc a b) s fun s =>
    let s := s.encSettle enc
    (s.setEnc enc { s.enc enc with rawA := a, rawB := b, rawAt := s.clk }).encSettle enc

/-- INDEX: a rising Z edge pushes an index record, counts, and with ZRST sets the count to zero (R239). -/
def execIndex (enc : Nat) (s : State) : Out :=
  act (.index enc) s fun s =>
    let s := s.encSettle enc
    let e := s.enc enc
    let p := 0x80 + enc
    let w := s.liveWord p 0
    if !bit w 0 || fld w 4 4 = 0 then s
    else
      let r := leBytes 8 s.stime.toNat ++ leBytes 4 e.count.toNat ++ zeros 4
      let full := decide (64 ≤ e.capture.length)
      let s := s.setEnc enc { e with
        indexCount := e.indexCount + 1, indexStime := s.stime, count := if bit w 8 then 0 else e.count
        capture := if full then e.capture else e.capture ++ [r] }
      if full then s.dropFull p 3 none r else s

end Sys2Proof.Machine
end

