-- ==== Sys2Proof/Machine/Analogue.lean ====
section
/-! DEFINITION. Window monitors, guard channels and converters (chapter 11): comparators, samples, the trip latch and its
actions, clear requests, configuration at the tick, sample sets and records. -/

namespace Sys2Proof.Machine

/-! ### Comparators (R258 to R260) -/

/-- The hysteresis in µV that a HYST code stands for. -/
def hystUv (h : Nat) : Int := if h = 1 then 5000 else if h = 2 then 10000 else if h = 3 then 20000 else if h = 4 then 40000 else 0

/-- A comparator against a threshold: code, shift in µV. Inside the decision band of ±(3 mV + 0.1·H) the answer is free (R260).
`upper`: reports when the input exceeds the threshold; else when it is under it. -/
def State.compare (s : State) (code : Nat) (shift h uv : Int) (upper : Bool) : Bool × State :=
  let d : Int := 1024 * (uv - shift) - 3300000 * (code : Int)
  if d.natAbs ≤ (1024 * (3000 + h / 10)).toNat then s.drawBand
  else (if upper then decide (0 < d) else decide (d < 0), s)

/-- Evaluate both comparators of a monitor on an input, with the thresholds that its last result chose (R259). -/
def State.evaluate (s : State) (n : Nat) (uv : Int) : Bool × Bool × State :=
  let m := s.wm n
  let h := hystUv m.live.hyst
  let (above, s) := if m.live.uen then s.compare m.live.upper (if m.above && m.valid then -h else 0) h uv true else (false, s)
  let (below, s) := if m.live.len then s.compare m.live.lower (if m.below && m.valid then h else 0) h uv false else (false, s)
  (above, below, s)

/-! ### The trip latch (R264, R271, R272) -/

/-- The subchannel's trigger already names source TRIP of monitor `n` (Table 11.8). -/
def State.armedOnTrip (s : State) (sch n : Nat) : Bool :=
  match (s.sch sch).trigger with
  | some t => trgSource t == 1 && trgIndex t == n
  | none => false

/-- A trip action was not delivered (R272). -/
def State.fdrop (s : State) (n : Nat) : State := s.updWm n fun m => { m with fdrop := sat16 m.fdrop }

/-- A_EVT and the cause record of the latch set, which the supervisor sees whatever the action bits say. -/
def State.tripEvent (s : State) (n detail : Nat) : State :=
  let m := s.wm n
  if m.live.aEvt && s.mayObserve m.live.evtSag (0xA0 + n) then s.raiseF m.live.evtSag 0x0107 n detail
  else
    let s := s.pushCause 0x0107 n detail 0xFF s.kiln.frame
    if m.live.aEvt then s.fdrop n else s

/-- A_FIRE: the trigger of TSCH, with the rights of the saggar that owns it. One that is neither ARMED nor running receives no
trigger, and the action counts as not delivered. -/
def State.tripFire (s : State) (n : Nat) : State :=
  let m := s.wm n
  if !m.live.aFire then s
  else match (s.sch m.live.tsch).owner with
    | none => s.fdrop n
    | some q =>
      if !s.mayObserve (s.qSag q) (0xA0 + n) || (s.sch m.live.tsch).state == .idle then s.fdrop n
      else if s.armedOnTrip m.live.tsch n then s
      else s.fire m.live.tsch

/-- TRIPn falls: the GUARD category and the GUARD trigger sources (R268, R98). -/
def State.tripDriveStarts (s : State) (n : Nat) : State := if s.tripDriven n then (s.pend 1).fireSource 2 n else s

/-- The latch sets (R264). -/
def State.setLatch (s : State) (n : Nat) (above below : Bool) : State :=
  let s := s.updWm n fun m => { m with latch := true, last := s.stime, trips := sat16 m.trips, sets := (m.sets + 1) % 65536 }
  let s := s.tripEvent n (b2n above + 2 * b2n below)
  let s := s.fireSource 1 n
  let s := s.tripFire n
  s.tripDriveStarts n

/-- A result of a monitor: its state, and the latch by R264 and R265. -/
def State.monitorResult (s : State) (n : Nat) (above below clears : Bool) : State :=
  let m := s.wm n
  let s := s.setWm n { m with above, below, valid := true }
  if above || below then (if m.latch then s else s.setLatch n above below)
  else if clears && m.live.latchPeriod then s.updWm n fun m => { m with latch := false }
  else s

/-- A clear request (R266): on a guard monitor only while the comparator reports inside. -/
def State.clearReq (s : State) (n : Nat) : State :=
  let m := s.wm n
  if m.live.guard && m.live.en && (m.above || m.below) then s else s.setWm n { m with latch := false }

/-! ### Samples -/

/-- Samples per frame of a RATE code. -/
def rateOf (r : Nat) : Nat := 2 ^ r

/-- The nominal start of the slice in progress. -/
def State.sliceAt (s : State) : Nat := s.kiln.tickAt + s.kiln.slice * (s.kiln.frameLen / 16)

/-- A sampled monitor takes a sample at the start of the slice in progress (R261, R263). -/
def State.sampleDue (s : State) (n : Nat) : Bool :=
  let m := s.wm n
  let k := s.kiln
  m.live.en && !m.live.guard && k.run && k.frameRuns && k.slice % (16 / rateOf m.live.rate) == 0 && !(k.slice == 0 && k.firstExt) &&
    decide (m.enAt + 800 < s.sliceAt) && (match m.sampleAt with | some t => decide (t < s.sliceAt) | none => true)

/-- MONITOR_SAMPLE: an evaluation at a sample instant (R262); at the tick it is the monitor's part of the image (R261). -/
def execMonitorSample (wm : Nat) (microvolt : Int) (s : State) : Out :=
  act (.monitorSample wm microvolt) s fun s =>
    if !s.sampleDue wm || !s.dev.ready then s
    else
      let (above, below, s) := s.evaluate wm microvolt
      let s := s.updWm wm fun m => { m with sampleAt := some s.sliceAt, input := microvolt }
      let s := if s.kiln.slice = 0 then
          { s with image := { s.image with above := setBit s.image.above wm above, below := setBit s.image.below wm below } }
        else s
      s.monitorResult wm above below true

/-- The continuous comparators of a guard monitor on the level that stands at its pin (R264, R267). -/
def State.guardEval (s : State) (n : Nat) : State :=
  if (s.wm n).live.en && (s.wm n).live.guard then
    let (above, below, s) := s.evaluate n (s.wm n).input
    s.monitorResult n above below false
  else s

/-- GUARD_CROSSING: the level at the pin changes, and a guard monitor's comparators follow it (R264, R267). -/
def execGuardCrossing (wm : Nat) (microvolt : Int) (s : State) : Out :=
  act (.guardCrossing wm microvolt) s fun s => (s.updWm wm fun m => { m with input := microvolt }).guardEval wm

/-- A write of WM_CLR. -/
def State.wmClrWrite (s : State) (w : Word) : State :=
  (List.range 32).foldl (fun s n => if bit w n then s.clearReq n else s) s

/-- WM_CLR: clear requests on the monitors named (R266, R275). -/
def execWmClr (w : Word) (s : State) : Out :=
  act (.wmClr w) s fun s => if s.dev.ready then s.wmClrWrite w else s.errReg

/-! ### Configuration (R273) -/

/-- A monitor's written configuration comes into force: a cleared EN clears the latch; a first EN counts its sets afresh; a guard
monitor's comparators evaluate the level at the pin under it (R258, R265, R267). -/
def State.wmApply (s : State) (n : Nat) : State :=
  let m := s.wm n
  if m.cfg = m.live then s
  else
    let drove := s.tripDriven n
    let off := m.live.en && !m.cfg.en
    let on := !m.live.en && m.cfg.en
    let modeChange := m.live.guard != m.cfg.guard
    let s := s.setWm n { m with
      live := m.cfg
      latch := m.latch && !off
      valid := m.valid && !on && !off && !modeChange
      above := m.above && !on && !off && !modeChange
      below := m.below && !on && !off && !modeChange
      sets := if on then 0 else m.sets
      sampleAt := if on then none else m.sampleAt }
    (if drove then s else s.tripDriveStarts n).guardEval n

/-- Changes of tick-bound configuration act at once while RUN is 0 or no frame runs (R273, R276, R36). -/
def State.atOnce (s : State) : Bool := !s.kiln.run || !s.kiln.frameRuns

/-- What the tick does for the monitors: configuration, and the guard monitors' part of the image with LATCH_PERIOD (R265). -/
def State.wmTick (s : State) : State :=
  let s := (List.range 32).foldl (fun (s : State) n => s.wmApply n) s
  let s := { s with image := { s.image with above := 0, below := 0 } }
  (List.range 8).foldl (fun (s : State) n =>
    let m := s.wm n
    if m.live.en && m.live.guard then
      let s := { s with image := { s.image with above := setBit s.image.above n m.above, below := setBit s.image.below n m.below } }
      if m.live.latchPeriod && !m.above && !m.below then s.setWm n { m with latch := false } else s
    else s) s

/-- CLR_TRIP (R274). -/
def execClrTrip (sch : Nat) (s : State) : Out :=
  act (.clrTrip sch) s fun s => s.code sch 0x0070 fun s o => s.clearReq (o.port - 0xA0)

/-- SET_WIN updates UPPER and LOWER, in force at the next tick (R274, R273). -/
def execSetWin (sch : Nat) (s : State) : Out :=
  act (.setWin sch) s fun s => s.code sch 0x0071 fun s o =>
    let n := o.port - 0xA0
    let s := s.updWm n fun m => { m with cfg := { m.cfg with upper := leAt o.tx 4 2, lower := leAt o.tx 6 2 } }
    if s.atOnce then s.wmApply n else s

/-! ### Converters (R276 to R282) -/

/-- nch: the channels enabled. -/
def AdcCfg.nch (c : AdcCfg) : Nat := ((List.range 16).filter fun i => bit c.chmask i).length

/-- RECLEN (R279). -/
def AdcCfg.reclen (c : AdcCfg) : Nat := 16 + 16 * ceilDiv (2 * c.npf * c.nch) 16

/-- The conditions of R276 under a period in µs. -/
def AdcCfg.ok (c : AdcCfg) (per : Nat) : Bool :=
  decide (c.npf * c.nch ≤ 16368) && (if c.free then decide (1000 ≤ c.freeNs) else decide (c.npf + 1 ≤ per)) &&
    decide (c.base + c.nrec * c.reclen ≤ 2 ^ 24)

/-- The code of a voltage difference against the reference, both in µV: round(32,768 · V / V_ref) (Table 11.5). Which way an exact
half is rounded is not stated, nor the code against a reference of 0 V: both are free. -/
def State.adcCode (s : State) (d : Int) (vref : Nat) : Int × State :=
  if vref = 0 then let (v, s) := s.draw; ((v.setWidth 16).toInt, s)
  else
    let q := (65536 * d + vref) / (2 * vref)
    if (65536 * d + vref) % (2 * vref) = 0 then let (up, s) := s.drawBand; (if up then q else q - 1, s) else (q, s)

/-- The codes of a sample set, channel by channel: V_P and V_N in µV. -/
def State.adcCodes (s : State) (vref : Nat) : List (Int × Int) → List Int × State
  | [] => ([], s)
  | v :: vs =>
    let (c, s) := s.adcCode (v.1 - v.2) vref
    let (cs, s) := s.adcCodes vref vs
    (c :: cs, s)

/-- A sample clamped to 16 bits, and whether it was (R278). -/
def clamp16 (v : Int) : BitVec 16 × Bool :=
  if v < -32768 then (0x8000, true) else if 32767 < v then (0x7FFF, true) else (BitVec.ofInt 16 v, false)

/-- STIME at the latest multiple of FREE_NS (R277). -/
def State.freeInstant (s : State) : DWord := s.stime - BitVec.ofNat 64 (s.stime.toNat % s.adc.live.freeNs)

/-- A sample instant is due: set k at tick + ⌊k·L / NPF⌋, or in FREE mode each multiple of FREE_NS, met within 2 ns: STIME may step
over it while it is slewed (R277, R30). -/
def State.setDue (s : State) : Bool :=
  let c := s.adc.live
  let k := s.adc.sets.length
  c.en && s.kiln.run && s.kiln.frameRuns &&
    (if c.free then decide (c.freeNs ≠ 0 ∧ s.stime.toNat % c.freeNs ≤ 2) && s.adc.lastSet != some s.freeInstant
     else decide (k < c.npf) && decide (s.kiln.tickAt + k * s.kiln.frameLen / c.npf ≤ s.clk))

/-- CONVERTER_SAMPLE: one set of all enabled channels, as the voltages of their pins and of ADC_VREF in µV (R277, R278). STIME of
set 0 is the tick in FRAME mode (Table 11.6). -/
def execConverterSample (inputs : ConverterInputs) (s : State) : Out :=
  act (.converterSample inputs) s fun s =>
    if !s.setDue || inputs.volts.length ≠ s.adc.live.nch then s
    else
      let (codes, s) := s.adcCodes inputs.vref inputs.volts
      let a := s.adc
      let at_ := if a.live.free then s.freeInstant else s.image.stime
      let vs := codes.map clamp16
      let clips := (vs.filter (·.2)).length
      let full := decide (a.live.npf ≤ a.sets.length)
      let a := { a with
        lastSet := some at_
        setStime := if a.sets.isEmpty then at_ else a.setStime
        sets := if full then a.sets else a.sets ++ [vs.map (·.1)]
        drop := a.drop || full
        clip := a.clip || decide (clips ≠ 0)
        clipSeen := a.clipSeen || decide (clips ≠ 0)
        clips := satAdd 65535 a.clips clips
        estat := a.estat ||| dbit 1 (decide (clips ≠ 0)) }
      { s with adc := a }

/-- The bytes of a record, filled to its slot (Table 11.6). -/
def AdcDue.bytes (d : AdcDue) (gap : Bool) : List Byte :=
  padTo d.cfg.reclen (leBytes 8 d.stime.toNat ++ leBytes 4 d.frame.toNat ++ leBytes 2 d.sets.length ++
    leBytes 1 (b2n d.cfg.free + 2 * b2n d.drop + 4 * b2n d.clip + 8 * b2n gap) ++ leBytes 1 d.cfg.nch ++
    (d.sets.flatten.map fun v => leBytes 2 v.toNat).flatten)

/-- Write the record that is due, or drop it whole (R280, R281). -/
def State.recordWrite (s : State) : State :=
  match s.adc.due with
  | none => s
  | some d =>
    let off := d.cfg.base + d.slot * d.cfg.reclen
    let ok := d.cfgOk && (s.sag d.cfg.sag).en && s.lsMapped d.cfg.sag off d.cfg.reclen && !s.lsLocked d.cfg.sag off d.cfg.reclen
    let a := s.adc
    if ok then
      let s := s.lsWrite d.cfg.sag off (d.bytes a.gap)
      { s with adc := { a with due := none, gap := false, lastFrame := d.frame, written := a.written + 1, cfgErr := false } }
    else
      { s with adc := { a with
          due := none, gap := true, drops := sat16 a.drops, notWritten := a.notWritten + 1, dropSeen := true
          cfgErr := a.cfgErr || !d.cfgOk, estat := a.estat ||| dbit 0 true ||| dbit 2 (!d.cfgOk) } }

/-- CONVERTER_RECORD: the record of the frame that ended is written, header last, or dropped (R280, R281). -/
def execConverterRecord (s : State) : Out := act .converterRecord s fun s => s.recordWrite

/-- The written converter configuration comes into force (R276). -/
def State.adcApply (s : State) : State :=
  let a := s.adc
  let on := a.cfg.en && !a.live.en
  { s with adc := { a with
      live := a.cfg, w := if a.resetNext then 0 else a.w, resetNext := false
      written := if on then 0 else a.written, notWritten := if on then 0 else a.notWritten } }

/-- What the tick does for the converters: the record of the frame that ends falls due, judged under the period of that frame
(R281); in FREE mode STIME of set 0 is free when the frame held no set, in FRAME mode it is the tick that opened the frame. -/
def State.adcTick (s : State) : State :=
  let s := s.recordWrite
  let a := s.adc
  let s := if !a.live.en then s
    else
      let (t, s) := if !a.live.free then (s.image.stime, s) else if a.sets.isEmpty then s.draw else (a.setStime, s)
      { s with adc := { a with
          due := some { cfg := a.live, slot := if a.live.nrec = 0 then 0 else a.w % a.live.nrec, stime := t
                        frame := s.kiln.frame, sets := a.sets, drop := a.drop, clip := a.clip
                        cfgOk := a.live.ok s.kiln.perInForce }
          w := a.w + 1 } }
  { s with adc := { s.adc with sets := [], drop := false, clip := false } }.adcApply

/-- CONV_RESET resets the record count at the next tick (R282), at once while no frame runs. -/
def execConvReset (sch : Nat) (s : State) : Out :=
  act (.convReset sch) s fun s => s.code sch 0x0080 fun s _ =>
    let s := { s with adc := { s.adc with resetNext := true } }
    if s.atOnce then { s with adc := { s.adc with resetNext := false, w := 0 } } else s

end Sys2Proof.Machine
end

