-- ==== Sys2Proof/Machine/LinkTick.lean ====
section
/-! DEFINITION. What the ring does by itself: slots per segment (R341), the master's SYNC (R349, R350), election (R352), the
publication of an image and the headers of subscriptions (R362, R363), and the end of remote CCWs when the topology changes
(R359). -/

namespace Sys2Proof.Machine

/-- S_n, the nominal slice length in ns (R341). -/
def State.sn (s : State) : Nat := s.kiln.perInForce * 1000 / 16

/-- n_seg, the slots of a segment (R341). -/
def State.nSeg (s : State) : Nat := s.sn / 640 - 1

/-- A node's own block: the sum of its QEFF values and its IMG_CELLS (R345). -/
def State.blockNeed (s : State) : Nat :=
  s.lnk.peers.foldl (fun n e => if e.1 = s.lnk.node then n else n + e.2.qeff) s.lnk.imgCells

def State.updPeer (s : State) (n : Nat) (f : LnkPeer → LnkPeer) : State := s.setPeer n (f (s.peer n))

/-- A side of the node. -/
def Lnk.side (l : Lnk) : Side → LnkSide
  | .east => l.east
  | .west => l.west

def State.updSide (s : State) (d : Side) (f : LnkSide → LnkSide) : State :=
  match d with
  | .east => s.updLnk fun l => { l with east := f l.east }
  | .west => s.updLnk fun l => { l with west := f l.west }

/-- East 0, west 1 (Table 14.10). -/
def sideNum : Side → Nat
  | .east => 0
  | .west => 1

/-- Every remote CCW in flight ends with LINK_UNREACHABLE (R359). -/
def State.endRemotes (s : State) : State :=
  (s.schs.filter fun e => match e.2.op with | some o => o.phase == .remote && o.remoteSt.isNone | none => false).foldl
    (fun s e => match e.2.op with
      | some o => s.ccwFail e.1 o.ccw .linkUnreachable
      | none => s) s

/-- The presence map takes a new value; nodes that appear or disappear are reported (R355). -/
def State.setPres (s : State) (new : BitVec 128) : State :=
  let old := s.lnk.pres
  if new = old then s
  else
    let s := s.updLnk fun l => { l with pres := new }
    let s := (List.range 128).foldl (fun s i =>
      if bit new i && !bit old i then s.raiseF 0 0x0315 i 0
      else if bit old i && !bit new i then s.raiseF 0 0x0316 i 0
      else s) s
    s.endRemotes

/-- The master of the ring, as this node sees it. -/
def State.setMaster (s : State) (m : Nat) : State :=
  let l := s.lnk
  if l.masterValid && l.masterNode == m then s
  else
    let s := s.updLnk fun l => { l with masterNode := m, masterValid := true, mchg := sat16 l.mchg }
    s.raiseF 0 0x0314 m l.masterNode

/-- The payload of a SYNC (Table 14.6). -/
def syncPayload (stime : DWord) (frame : Word) (master : Nat) (elect wrapped : Bool) (ww we : Nat) (acc gen : Nat)
    (presNew pres : BitVec 128) : List Byte :=
  leBytes 8 stime.toNat ++ leBytes 4 frame.toNat ++ leBytes 1 master ++ leBytes 1 (b2n elect + 2 * b2n wrapped) ++
    leBytes 1 ww ++ leBytes 1 we ++ leBytes 4 acc ++ leBytes 4 gen ++ leBytes 16 presNew.toNat ++ leBytes 16 pres.toNat ++ zeros 8

/-- Put a cell into the slots that leave on both lanes. -/
def State.bothLanes (s : State) (c : Cell) : State :=
  s.updLnk fun l => { l with slotOutA := some { c with lane := .a }, slotOutB := some { c with lane := .b } }

/-- This node's SYNC leaves on both lanes: the master's at each tick, or a candidate's with ELECT (R349, R352). -/
def State.sendSync (s : State) (elect : Bool) : State :=
  let l := s.lnk
  let own : BitVec 128 := setBit 0 l.node true
  let gen := if l.nextGeneration ≠ l.generation then l.nextGeneration else l.generation
  s.bothLanes {
    type := 1, src := l.node, dst := 0x80, last := true
    payload := syncPayload s.stime s.kiln.frame l.node elect l.wrapped l.wrapWest l.wrapEast 0 gen own l.pres }

/-- A waiting block assignment takes effect (R346). -/
def State.applyBlocks (s : State) : State :=
  let l := s.lnk
  let tooMany := decide (l.nextBlkSize < s.blockNeed) && l.nextBlkSize == 0
  let s := s.updLnk fun l => { l with
    generation := l.nextGeneration, blkStart := l.nextBlkStart, blkSize := l.nextBlkSize, ownedEnd := l.nextOwnedEnd
    oversub := tooMany, peers := l.peers.map fun e => (e.1, { e.2 with quotaIn := e.2.quota }) }
  if tooMany && !l.oversub then s.raiseF 0 0x0317 0 2 else s

/-- The node becomes master; its Kiln leaves holdover (R352). -/
def State.becomeMaster (s : State) : State :=
  let s := s.updLnk fun l => { l with
    master := true, candidate := false, electing := false, missedTicks := 0, locked := false
    pres := setBit l.pres l.node true }
  let s := s.setMaster s.lnk.node
  if s.kiln.holdover then (s.updKiln fun k => { k with holdover := false }).raiseF 0 0x0301 0 s.kiln.src else s

/-- Publish the image region on lane A (DESIGN CHOICE, log entry 58: R362 names no lane); a poisoned unit of it is not sent (R384).
Cells of an earlier frame that found no slot of segment 0 are not sent (R347). -/
def State.publish (s : State) : State :=
  let s := s.updLnk fun l => { l with outA := l.outA.filter fun m => m.rank != 1, outB := l.outB.filter fun m => m.rank != 1 }
  let l := s.lnk
  let k := l.imgCells
  if k = 0 || !s.ringUp || !(s.sag l.imgSag).en || !s.lsMapped l.imgSag l.imgOff (64 * k) || s.lsPoisoned l.imgSag l.imgOff (64 * k) then s
  else
    let bs := s.lsRead l.imgSag l.imgOff (64 * k)
    s.sendMsg 1 .a ((List.range k).map fun i =>
      { type := 3, lane := .a, last := i + 1 == k, src := l.node, dst := 0x80, index := i, payload := (bs.drop (64 * i)).take 64 })

/-- What a tick does on the ring. `prev`: the instant of the tick before; `first`: no frame ran before it. -/
def State.lnkTick (s : State) (prev : Nat) (first : Bool) : State :=
  if !s.lnk.en then s
  else
    let age (x : LnkSide) : LnkSide := { x with
      downTicks := if x.up then 0 else x.downTicks + 1, upTicks := if x.up then x.upTicks + 1 else 0
      delay := x.delayNext.getD x.delay, delayNext := none }
    let seen := match s.lnk.lastSync with | some t => decide (prev ≤ t) | none => false
    let s := s.updLnk fun l => { l with
      east := age l.east, west := age l.west
      missedTicks := if l.master || seen || first then 0 else l.missedTicks + 1
      masterValid := l.masterValid && (l.master || seen || first || decide (l.missedTicks = 0))
      peers := l.peers.map fun e => (e.1, { e.2 with rxGot := 0, rxSeen := [], rxDone := false, rxStime := none }) }
    let s := if s.lnk.master then
        let s := s.setPres (if s.lnk.presSeen then s.lnk.presAcc ||| setBit 0 s.lnk.node true else s.lnk.pres)
        let s := s.updLnk fun l => { l with presAcc := 0, presSeen := false }
        let s := s.sendSync false
        if s.lnk.nextGeneration ≠ s.lnk.generation then s.applyBlocks else s
      else if s.lnk.candidate then s.becomeMaster.sendSync false
      else if s.lnk.mcap && s.kiln.run && s.kiln.src == 2 && decide (2 ≤ s.lnk.missedTicks) && !s.lnk.electing then
        (s.updLnk fun l => { l with candidate := true, electing := true }).sendSync true
      else if s.lnk.electing then s.updLnk fun l => { l with electing := false, missedTicks := 0 }
      else s
    s.publish

/-- The header of a subscription region (R363). -/
def State.subHeader (s : State) (n : Nat) (missing : Bool) : State :=
  let p := s.peer n
  let (t, s) := match p.rxStime with
    | some t => (t, s)
    | none => s.draw
  let h := leBytes 8 t.toNat ++ leBytes 4 s.kiln.frame.toNat ++ leBytes 1 n ++ leBytes 1 p.rxGot ++ leBytes 1 (b2n missing) ++ [0]
  let s := s.updPeer n fun p => { p with rxDone := true }
  let len := 16 + 64 * p.rxGot
  if !s.lsMapped p.subSag p.subOff len || s.lsLocked p.subSag p.subOff len then
    s.updPeer n fun p => { p with imgMiss := sat16 p.imgMiss }
  else
    let s := s.lsWrite p.subSag p.subOff h
    if missing then s else s.updPeer n fun p => { p with imgRx := sat16 p.imgRx }

/-- At the start of segment 1 the headers of incomplete publications are written with MISSING (R363). -/
def State.subsAtSeg1 (s : State) : State :=
  if !s.ringUp then s
  else (s.lnk.peers.filter fun e => e.2.sub && !e.2.rxDone).foldl (fun s e => s.subHeader e.1 true) s

end Sys2Proof.Machine
end

