-- ==== Sys2Proof/Machine/KilnOps.lean ====
section
/-! DEFINITION. The work of a tick (R14, R16, R18, R44, R45, R496, R502, R504) and the opening and closing of frames. -/

namespace Sys2Proof.Machine

/-- A write of an MSP register above 0x007: until READY it is ignored and counted (R417). -/
def State.served (s : State) (f : State → State) : State := if s.dev.ready then f s else s.errReg

/-- The frame period in force, in ns. -/
def State.periodNs (s : State) : Nat := s.kiln.perInForce * 1000

/-- Any G queue exists (R21, Table 2.8). -/
def State.gQueueExists (s : State) : Bool := !s.admitted.isEmpty || s.sqs.any fun e => e.2.cls == .g && e.2.state != .free

/-- A phase error is slewed away by at most 1,000 ns per frame (R25). -/
def slewStep (e : Int) : Int := if 1000 < e then 1000 else if e < -1000 then -1000 else e

/-- SLEWING follows from the tick's phase error, the slew that the frame in progress carries and the STIME offset left
(Table 2.8). -/
def Kiln.withSlewing (k : Kiln) : Kiln :=
  { k with slewing := decide (2 ≤ k.phaseErr.natAbs) || k.tickSlew || decide (k.stimeSlew ≠ 0) }

/-! ### The end of a frame -/

/-- Close the accounts of a processor's frame (Table 2.9). -/
def CpAcct.closeFrame (a : CpAcct) (wu : Nat) : CpAcct :=
  { a with
    gWu := a.curG, wbWu := a.curWb, idleWu := wu - a.curG - a.curWb, curG := 0, curWb := 0, curWbExchange := 0
    overruns := if a.overran then sat16 a.overruns else a.overruns, overran := false }

/-- The overrun counters at the tick that ends a frame (R45). -/
def State.countOverrun (s : State) : State :=
  let s := s.updKiln fun k => { k with ovrLimit := k.ovrLimitNext }
  match (List.range 32).find? fun c => (s.cpAcct c).overran with
  | none => s.updKiln fun k => { k with ovrConsec := 0, ovrBitten := false }
  | some c => s.updKiln fun k =>
      let n := sat8 k.ovrConsec
      { k with
        ovrTotal := sat16 k.ovrTotal, ovrConsec := n, ovrFirstCp := c
        ovrBiteDue := k.ovrBiteDue || (decide (k.ovrLimit ≠ 0 ∧ k.ovrLimit ≤ n) && !k.ovrBitten)
        ovrBitten := k.ovrBitten || decide (k.ovrLimit ≠ 0 ∧ k.ovrLimit ≤ n) }

/-- What the tick that ends a frame does for it: overruns, accounts, frames in holdover, completion stalls (R131). -/
def State.endFrame (s : State) : State :=
  let s := s.countOverrun
  let wu := s.kiln.frameLen / 10
  let s := (List.range 32).foldl (fun (s : State) c => s.setCpAcct c ((s.cpAcct c).closeFrame wu)) s
  let s := s.updKiln fun k => { k with holdFr := if k.holdover then sat16 k.holdFr else k.holdFr }
  { s with cqs := s.cqs.map fun e =>
      (e.1, { e.2 with stallFr := if e.2.heldInFrame then sat32 e.2.stallFr else e.2.stallFr, heldInFrame := false }) }

/-! ### Tick-bound configuration and the input image -/

/-- GPIO, PWM configuration that waits for a tick; in SYNC mode the period counter of a PWM output restarts at PHASE (R236, R237,
R238). -/
def State.portTick (s : State) : State :=
  let g := s.gpio
  let edges := g.edgePend.foldl (fun m e => m.set 0 e.1 (e.2.getD 0)) g.edgeInForce
  let snap := fld (s.portWord 0x60 10) 0 20
  let s := { s with gpio := { g with edgeInForce := edges, edgePend := [], snapInForce := snap, edgeFlags := 0 } }
  (List.range 16).foldl (fun (s : State) i =>
    let w := s.liveWord (0x70 + i) 0
    let s := s.setPwm i { s.pwm i with phase := (s.pwm i).phasePend.getD (s.pwm i).phase, phasePend := none }
    if bit w 0 && bit w 9 then s.pwmRestart i (s.pwm i).phase else s) s

/-- The encoders' latch, then PRESET (R239, Table 9.8). -/
def State.encTick (s : State) : State :=
  (List.range 8).foldl (fun (s : State) i =>
    let s := s.encSettle i
    let e := s.enc i
    let s := s.setEnc i { e with latched := e.count, count := e.preset.getD e.count, preset := none }
    { s with image := { s.image with counts := s.image.counts.set 0 i e.count } }) s

/-- The first GPIO snapshot of the frame (R237). -/
def State.snapTick (s : State) (levels : DWord) : State :=
  if bit (s.liveWord 0x60 0) 0 && s.gpio.snapInForce ≠ 0 then
    { s with gpio := { s.gpio with snapNext := s.kiln.tickAt + s.gpio.snapInForce } }.pushSnap levels
  else s

/-- The input image of the frame that opens (R16). -/
def State.latchImage (s : State) : State :=
  let levels := s.gpio.level
  let s := s.portTick
  let s := { s with image := { s.image with stime := s.stime, frame := s.kiln.frame, gpio := levels } }
  (s.encTick.wmTick).snapTick levels

/-! ### Starts at the tick -/

/-- Refuse a waiting entry whose deadline is past (R502). -/
def State.refuseLate (s : State) (q : QRef) (e : Entry) : State :=
  let s := s.updEntry q e.eid fun x => { x with result := deferResult e.deferOf 0xFFFF, prefetched := false }
  let s := s.updKiln fun k => { k with accRefuse := sat32 k.accRefuse }
  s.endEntry q e.eid .refusedDeadline

/-- The entry's deadline is past (R32, R502). -/
def State.late (s : State) (e : Entry) : Bool := e.dlv && inPast e.deadline s.kiln.frame

/-- The entries that wait, with their queues, oldest fetch first. -/
def State.allWaiting (s : State) : List (QRef × Entry) :=
  let sqs := s.sqs.flatMap fun e => (e.2.entries.filter fun x => x.phase == .waiting && !x.prefetched).map fun x => (QRef.sq e.1, x)
  let shp := (s.shp.entries.filter fun x => x.phase == .waiting).map fun x => (QRef.shp, x)
  sortBy (fun e => e.2.fetchSeq) (sqs ++ shp)

/-- Refuse every waiting entry whose deadline has passed; of two SQs the lower-numbered one's completions come first (Table 5.12). -/
def State.refuseAll (s : State) : State :=
  (sortBy (fun e => e.1.order) (s.allWaiting.filter fun e => s.late e.2)).foldl (fun s e => s.refuseLate e.1 e.2) s

/-- A G queue's program is one of its admitted programs (R148, R497). -/
def State.progAdmitted (s : State) (n : Nat) (a : DWord) : Bool := (s.sq n).progs.contains a

/-- The entry stands in the prefetch buffer at this tick: its read returned before the tick, and not at its instant (R33,
Table 2.11). -/
def State.inBuffer (s : State) (e : Entry) : Bool := e.prefetched && decide (e.fetchAt < s.clk)

/-- Take the prefetch buffer of a G queue into the start set (R496): a START of a program that is not admitted completes with
PROGRAM_CHECK (R497). -/
def State.takePrefetch (s : State) (n : Nat) : State :=
  let taken := (s.sq n).entries.filter s.inBuffer
  let s := s.updSq n fun q => { q with entries := q.entries.map fun e => if s.inBuffer e then { e with prefetched := false } else e }
  taken.foldl (fun s e =>
    if (e.kind == .start || e.kind == .trg) && !s.progAdmitted n e.prog then
      (s.updEntry (.sq n) e.eid fun x => { x with result := deferResult 0 0xFFFF }).endEntry (.sq n) e.eid .programCheck
    else s) s

/-- The port whose OBSERVE a trigger source needs (R99): 1 TRIP, 3 EDGE. -/
def trgPort (t : Word) : Option Nat :=
  if trgSource t = 1 then some (0xA0 + trgIndex t) else if trgSource t = 3 then some 0x60 else none

/-- A TRG entry is taken: its saggar needs OBSERVE on the source's port, and it arms the lowest IDLE subchannel (R81, R98, R99);
with none it waits, and no overrun is marked: R44 speaks of an entry that cannot start, and this one arms (log entry 84). -/
def State.takeTrg (s : State) (q : QRef) (e : Entry) : State :=
  if (trgPort e.trigger).any fun p => !s.mayObserve (s.qSag q) p then s.endEntry q e.eid .protectionCheck
  else match s.idleSch q with
    | some n => s.armOn q e n
    | none => s

/-- Start a G queue's fired armings and the entries of its start set at the tick; an entry that finds no IDLE subchannel makes its
processor overrun (R44). -/
def State.gStarts (s : State) (q : QRef) : State :=
  let fired := (s.schsOf q).filter fun i => (s.sch i).state == .armed && (s.sch i).fired && decide ((s.sch i).firedAt < s.clk)
  let s := fired.foldl (fun s i => s.launch i) s
  ((s.entries q).filter fun e => (e.kind == .start || e.kind == .trg) && e.phase == .waiting && !e.prefetched).foldl (fun s e =>
    if s.late e then s.refuseLate q e
    else if e.kind == .trg then s.takeTrg q e
    else match s.idleSch q with
      | some i => s.startOn q e i
      | none =>
        let cp := s.qCp q
        s.setCpAcct cp { s.cpAcct cp with overran := true }) s

/-- The G work of a tick: queues in SQ number order, then the autonomous queues (R465, R466). -/
def State.gTick (s : State) : State :=
  let s := (s.sqs.filter fun e => e.2.cls == .g && (e.2.state == .active || e.2.state == .error)).foldl
    (fun s e => (s.takePrefetch e.1).gStarts (.sq e.1)) s
  (s.autos.filter fun e => (e.2.map Auto.cls) == some .g).foldl (fun s e => s.gStarts (.auto e.1)) s

/-- A tick counts for the WAITF words that wait for ticks (R69). -/
def State.waitfTick (s : State) : State :=
  (s.schs.filter fun e => match e.2.wait with | .ticks k => decide (0 < k) | _ => false).foldl (fun s e =>
    s.updSch e.1 fun c => match c.wait with
      | .ticks k => { c with wait := .ticks (k - 1) }
      | _ => c) s

/-- TICK_OUT rises for 1 µs (R27). -/
def State.tickOutRise (s : State) : State :=
  if s.kiln.tickOutEn then
    { s with pins := { s.pins with tickOut := true }, kiln := { s.kiln with tickOutFall := s.clk + 1000 } }
  else s

/-! ### Opening and closing -/

/-- A tick brings the written period whose turn it is into force (R21). -/
def Kiln.perTick (k : Kiln) : Kiln :=
  { k with
    perInForce := ((k.perPend.find? fun e => e.1 == 1).map (·.2)).getD k.perInForce
    perPend := (k.perPend.filter fun e => e.1 != 1).map fun e => (e.1 - 1, e.2) }

/-- A tick opens a frame for the entries that wait to start: each has waited one frame more (R34). An entry in a prefetch buffer
is not fetched yet. -/
def State.deferTick (s : State) : State :=
  s.allWaiting.foldl (fun s e => s.updEntry e.1 e.2.eid fun x => { x with defer := x.defer + 1 }) s

/-- The tick that opens frame `f` applies what was staged for it (R14): the subchannels' last STAGE is bound to a number (R15). -/
def State.stageTick (s : State) (f : Word) : State :=
  (s.schs.filter fun e => e.2.stageTicks ≠ 0).foldl (fun s e => s.updSch e.1 fun c =>
    if c.stageTicks = 1 then { c with stageTicks := 0, applyFrame := f.setWidth 16 } else { c with stageTicks := c.stageTicks - 1 }) s

/-- The tick that opens a frame: its length with the slew of R25, the image, the frozen outputs, the G starts, the waiting
entries, the tick's triggers. -/
def State.openFrame (s : State) (frame : Word) (ext : Bool) : State :=
  let prev := s.kiln.tickAt
  let first := !s.kiln.frameRuns
  let s := s.updKiln fun k =>
    let k := k.perTick
    let step := if 2 ≤ k.phaseErr.natAbs then slewStep k.phaseErr else 0
    let e := k.phaseErr - step
    Kiln.withSlewing { k with
      frameRuns := true, frame, tickAt := s.clk, slice := 0, stimeUsed := 0, firstExt := ext, zeroPending := false, zeroByEdge := false
      frameNext := none
      frameLen := (Int.ofNat (k.perInForce * 1000) + step).toNat
      tickSlew := decide (step ≠ 0)
      phaseErr := if e.natAbs < 2 then 0 else e }
  let s : State := { s with cqs := s.cqs.map fun e => (e.1, { e.2 with heldInFrame := !e.2.held.isEmpty }) }
  let s := s.latchImage
  let s := s.adcApply
  let s := s.applyFrozen
  let s := s.tickOutRise
  let s := s.waitfTick
  let s := s.stageTick frame
  let s := if first then s else s.deferTick
  let s := s.refuseAll
  let s := s.gTick
  let s := s.startWaiting
  let s := s.fireSource 4 0
  s.lnkTick prev first

/-- Frames stop: the source is no longer tracked, the STIME offset left is applied at once, configuration takes effect (R504,
R30, R36). -/
def State.stopFrames (s : State) : State :=
  let k := s.kiln
  let rest := if 0 < k.stimeSlew then k.stimeSlew.toNat else 0
  let s := { s with
    stime := s.stime + BitVec.ofNat 64 rest
    kiln := { k with
      frameRuns := false, stopping := false, holdover := false, slewing := false, tickSlew := false, phaseErr := 0, stimeSlew := 0
      perInForce := k.per, perPend := [], firstExt := false, frameNext := none } }
  let s := (List.range 32).foldl (fun (s : State) n => s.wmApply n) s.portTick
  s.adcApply

/-- The tick that closes the last frame of a run (R504, R36): it applies the frozen outputs and counts for the WAITF words that
wait for ticks. It opens no frame; a STAGE of that frame's Exchange keeps the number that would have come next, and one of its
Commit slice the number after (R15, log entry 84). -/
def State.closeLast (s : State) : State :=
  let last := s.kiln.frame
  let s := s.stopFrames
  let s := s.applyFrozen
  let s := s.tickOutRise
  let s := s.waitfTick
  let s := (s.stageTick (last + 1)).stageTick (last + 2)
  let s := s.updLnk fun l => { l with master := false, candidate := false }
  s.startWaiting

end Sys2Proof.Machine
end

