-- ==== Sys2Proof/Machine/Kiln.lean ====
section
/-! DEFINITION. The commands of the Kiln (chapter 2): ticks, slices, tick sources, RUN, the period, station time. -/

namespace Sys2Proof.Machine

/-! ### Slices and ticks -/

/-- FRAME_TICK: the local generator ends the frame in progress once its length has passed and its Commit slice has begun, and
opens the next one, or closes the last (R18, R45, R504). -/
def execFrameTick (s : State) : Out :=
  act .frameTick s fun s =>
    let k := s.kiln
    if !k.frameRuns || k.slice ≠ 15 || s.clk < k.tickAt + k.frameLen then s
    else
      let s := s.endFrame.adcTick
      if k.stopping then s.closeLast
      else
        let step := k.frameNext.isSome && k.frameNext != some (k.frame + 1)
        let s := s.openFrame (k.frameNext.getD (k.frame + 1)) false
        if step then s.raise 0 0x0302 0 0 s.kiln.frame else s

/-- COMMIT_SLICE: slice 15 begins; the staging image is frozen (R14) and G work still running is an overrun (R44). -/
def execCommitSlice (s : State) : Out :=
  act .commitSlice s fun s =>
    let k := s.kiln
    if !k.frameRuns || k.slice = 15 || !s.inCommit then s else s.commitBegin.startWaiting

/-- SLICE_START: a slice before the Commit slice begins; waiting W and B entries are reconsidered (R499). -/
def execSliceStart (s : State) : Out :=
  act .sliceStart s fun s =>
    let k := s.kiln
    if !k.frameRuns || 14 ≤ k.slice || s.clk < k.tickAt + (k.slice + 1) * (k.frameLen / 16) then s
    else
      let s := { s with kiln := { k with slice := k.slice + 1 } }
      let s := if k.slice = 0 then s.subsAtSeg1 else s
      s.startWaiting

/-- FRAME_OVERRUN_WDG_BITE: cause OVR on the ports with ON_OVR, and FRAME_OVERRUN to saggar 0 (R396). -/
def execFrameOverrunWdgBite (s : State) : Out :=
  act .frameOverrunWdgBite s fun s =>
    if !s.kiln.ovrBiteDue then s
    else
      let s := s.updKiln fun k => { k with ovrBiteDue := false }
      let s := s.safeApply 1 (s.onPorts 8) none
      s.raiseF 0 0x0103 s.kiln.ovrFirstCp s.kiln.ovrConsec

/-! ### Tick sources -/

/-- TICK_IN drives the Kiln: as its source, or as the master's (Table 14.8 MTICK), or to start a ring (R353). -/
def State.tickInUsed (s : State) : Bool :=
  s.kiln.src == 1 || (s.kiln.src == 2 && s.lnk.en && s.lnk.mtick && (s.lnk.master || s.kiln.zeroByEdge))

/-- The phase of a source edge against the nearest local tick, ns. The tick that opened a frame counts as moved by the slew that
the frame carries, so that no error is slewed away twice (R25). -/
def Kiln.phaseOf (k : Kiln) (at_ : Nat) : Int :=
  let period : Int := (k.perInForce * 1000 : Nat)
  let e : Int := (at_ : Int) - (k.tickAt : Int) - ((k.frameLen : Int) - period)
  if period < 2 * e then e - period else e

/-- The source is lost: holdover, with TICK_HOLDOVER; a master in holdover is master no longer (R23, R352). -/
def State.loseTick (s : State) : State :=
  let src := s.kiln.src
  let s := s.updKiln fun k => Kiln.withSlewing { k with holdover := true, phaseErr := 0 }
  let s := s.updLnk fun l => { l with locked := false, master := false }
  s.raiseF 0 0x0300 0 src

/-- The Kiln follows an accepted source instant: out of holdover with TICK_RESTORED, and slewing toward it (R25). -/
def State.follow (s : State) (at_ : Nat) : State :=
  let held := s.kiln.holdover
  let s := s.updKiln fun k => Kiln.withSlewing { k with holdover := false, phaseErr := k.phaseOf at_ }
  if held then s.raiseF 0 0x0301 0 s.kiln.src else s

/-- The instant from which the loss of the source is judged (R23, R351): the last accepted edge or SYNC, or the change of
source. -/
def State.sourceAt (s : State) : Nat :=
  if s.kiln.src = 2 && !s.lnk.master then
    match s.lnk.lastSync with
    | some t => if s.kiln.awaitFirst then s.kiln.lastEdge else t
    | none => s.kiln.lastEdge
  else s.kiln.lastEdge

/-- Holdover is due: frames run on a source that has given nothing for 1.5 periods (R23). -/
def State.tickLost (s : State) : Bool :=
  let k := s.kiln
  k.frameRuns && !k.holdover && k.src ≠ 0 && !(k.src == 2 && s.lnk.master && !s.lnk.mtick) &&
    decide (3 * s.periodNs ≤ 2 * (s.clk - s.sourceAt))

/-- TICK_IN_EDGE: an edge of the selected kind is accepted, or is a glitch (R23); the first one opens frame 0 (R26). An edge that
comes when holdover is due finds the Kiln in holdover (Table 2.11). -/
def execTickInEdge (kind : EdgeKind) (s : State) : Out :=
  act (.tickInEdge kind) s fun s =>
    let k := s.kiln
    if !s.tickInUsed || (kind == .falling) != k.edge then s
    else if !k.frameRuns then
      if !k.run then s
      else
        let s := s.updKiln fun k => { k with lastEdge := s.clk, awaitFirst := false }
        s.openFrame 0 true
    else if !k.awaitFirst && 2 * (s.clk - k.lastEdge) < s.periodNs then s.updKiln fun k => { k with glitch := sat8 k.glitch }
    else
      let s := if s.tickLost then s.loseTick else s
      let s := s.updKiln fun k => { k with lastEdge := s.clk, awaitFirst := false }
      s.follow s.clk

/-- TICK_HOLDOVER: no edge or SYNC within 1.5 periods (R23); a master in holdover is master no longer (R352). -/
def execTickHoldover (s : State) : Out :=
  act .tickHoldover s fun s =>
    if !s.tickLost then s else s.loseTick

/-! ### KILN_CTL (Table 2.8) -/

/-- RUN goes from 0 to 1: a stop is cancelled, or the opening of frame 0 is arranged (R26). -/
def State.runSet (s : State) : State :=
  let k := s.kiln
  if k.run then s
  else if k.stopping then s.updKiln fun k => { k with run := true, stopping := false }
  else
    let s := s.updKiln fun k => { k with
      run := true, awaitFirst := true, lastEdge := s.clk, zeroPending := k.src == 0, zeroAt := s.clk + 1000 }
    s.updLnk fun l => { l with runSince := s.clk, lastSync := none }

/-- RUN goes from 1 to 0: the current frame is the last; refused while a G queue exists. -/
def State.runClear (s : State) : State :=
  let k := s.kiln
  if !k.run then s
  else if s.gQueueExists then s.errReg
  else if k.frameRuns then s.updKiln fun k => { k with run := false, stopping := true }
  else s.updKiln fun k => { k with run := false, zeroPending := false, zeroByEdge := false }

/-- A write of KILN_CTL (Table 2.8, R29, R45, R181). -/
def State.kilnCtlWrite (s : State) (w : Word) : State :=
  let k := s.kiln
  let differs := bit w 0 != k.run || fld w 8 8 ≠ k.ovrLimitNext || w.extractLsb' 16 16 ≠ k.trim
  let s := if s.dev.lock && differs then s.errLock else s
  if w.extractLsb' 16 16 = 0x8000 then (if s.dev.lock then s else s.errReg)
  else
    let s := s.updKiln fun k => { k with tickOutEn := bit w 3 }
    if s.dev.lock then s
    else
      let s := s.updKiln fun k => { k with
        trim := w.extractLsb' 16 16, ovrLimitNext := fld w 8 8, ovrLimit := if k.frameRuns then k.ovrLimit else fld w 8 8 }
      if bit w 0 then s.runSet else s.runClear

/-- RUN_START: a write of KILN_CTL with RUN = 1 (R26). -/
def execRunStart (w : Word) (s : State) : Out := act (.runStart w) s fun s => s.served fun s => s.kilnCtlWrite (setBit w 0 true)

/-- RUN_STOP: a write of KILN_CTL with RUN = 0 (R504). -/
def execRunStop (w : Word) (s : State) : Out := act (.runStop w) s fun s => s.served fun s => s.kilnCtlWrite (setBit w 0 false)

/-- FRAME_ZERO_OPEN: frame 0 opens 1 µs after RUN was set with the internal source (R26). -/
def execFrameZeroOpen (s : State) : Out :=
  act .frameZeroOpen s fun s =>
    let k := s.kiln
    if !k.run || k.frameRuns || !k.zeroPending || s.clk < k.zeroAt then s else s.openFrame 0 false

/-! ### KILN_PER, KILN_SRC, STIME -/

/-- A write of KILN_PER (R21). -/
def State.kilnPerWrite (s : State) (w : Word) : State :=
  let v := fld w 0 17
  let k := s.kiln
  if s.dev.lock then (if v = k.per then s else s.errLock)
  else if v < 50 || 100000 < v || s.gQueueExists || (k.run && k.src ≠ 0) then s.errReg
  else if !k.frameRuns then s.updKiln fun k => { k with per := v, perInForce := v, perPend := [] }
  else
    let ticks := if s.inCommit then 2 else 1
    s.updKiln fun k => { k with per := v, perPend := (k.perPend.filter fun e => decide (e.1 < ticks)) ++ [(ticks, v)] }

/-- KILN_PER_WRITE (R21). -/
def execKilnPerWrite (w : Word) (s : State) : Out := act (.kilnPerWrite w) s fun s => s.served fun s => s.kilnPerWrite w

/-- The source changes (R25, R26). At a change to INTERNAL the slew in progress ends: SLEWING clears, and the frame in progress keeps
the length it opened with (log entry 84). -/
def State.setSource (s : State) (src : Nat) : State :=
  let k := s.kiln
  let s := s.updKiln fun k => { k with src }
  if k.frameRuns then
    if src = 0 then
      let s := s.updKiln fun k => Kiln.withSlewing { k with holdover := false, phaseErr := 0, tickSlew := false }
      if k.holdover then s.raiseF 0 0x0301 0 0 else s
    else s.updKiln fun k => Kiln.withSlewing { k with awaitFirst := true, lastEdge := s.clk, phaseErr := 0 }
  else
    let s := s.updKiln fun k => { k with
      awaitFirst := true, lastEdge := s.clk, zeroPending := k.run && src == 0, zeroAt := s.clk + 1000, zeroByEdge := false }
    s.updLnk fun l => { l with runSince := s.clk }

/-- A write of KILN_SRC (Table 2.9, R22, R334). -/
def State.kilnSrcWrite (s : State) (w : Word) : State :=
  let src := fld w 0 2
  let k := s.kiln
  if s.dev.lock then (if src = k.src && bit w 2 == k.edge then s else s.errLock)
  else if src = 3 || (s.lnk.en && src ≠ 2) then s.errReg
  else
    let s := s.updKiln fun k => { k with edge := bit w 2 }
    if src = k.src then s else s.setSource src

/-- KILN_SRC_WRITE (R25). -/
def execKilnSrcWrite (w : Word) (s : State) : Out := act (.kilnSrcWrite w) s fun s => s.served fun s => s.kilnSrcWrite w

/-- An offset to STIME: at once while no frame runs, never downward; else by slewing, replacing what is left (R30). -/
def State.stimeAdjust (s : State) (off : Int) : State :=
  if s.kiln.frameRuns then s.updKiln fun k => Kiln.withSlewing { k with stimeSlew := off }
  else if 0 < off then { s with stime := s.stime + BitVec.ofNat 64 off.toNat } else s

/-- STIME_ADJ (R30). -/
def execStimeAdj (w : Word) (s : State) : Out := act (.stimeAdj w) s fun s => s.served fun s => s.stimeAdjust w.toInt

/-- A read of STIME_LO leaves the upper half in the shadow (R28). -/
def State.stimeLo (s : State) : Word × State :=
  (s.stime.setWidth 32, s.updKiln fun k => { k with stimeShadow := some ((s.stime >>> 32).setWidth 32) })

/-- A read of STIME_HI returns the shadow of the STIME_LO read just before, else the live half (R28). -/
def State.stimeHi (s : State) : Word × State :=
  (s.kiln.stimeShadow.getD ((s.stime >>> 32).setWidth 32), s.updKiln fun k => { k with stimeShadow := none })

/-- STIME_LO_READ (R28). -/
def execStimeLoRead (s : State) : Out :=
  act .stimeLoRead s fun s =>
    let (v, s) := if s.dev.ready then s.stimeLo else (0, s)
    s.updMsp fun m => { m with readData := v }

/-- TICK_OUT_PULSE_END: 1 µs after the tick TICK_OUT falls (R27). -/
def execTickOutPulseEnd (s : State) : Out :=
  act .tickOutPulseEnd s fun s =>
    if s.pins.tickOut && decide (s.kiln.tickOutFall ≤ s.clk) then { s with pins := { s.pins with tickOut := false } } else s

end Sys2Proof.Machine
end

