-- ==== Sys2Proof/Machine/MoverOps.lean ====
section
/-! DEFINITION. The block mover's engine (chapter 8): the checks of a transfer (R192, R194), its two sides (R189, R196), the
movement of elements (R190 to R193), and the port FIFOs at its ends (R217). A transfer's progress is made by the commands
BM_HALF, BM_BUFFER_END and BM_ABORT_DONE; a list element, and a source piece in host memory, is read when the progress reaches
it. -/

namespace Sys2Proof.Machine

/-! ### The fields of a transfer (Table 8.3) -/

def BmCfg.kind (g : BmCfg) : Nat := fld g.mode 0 2
def BmCfg.e (g : BmCfg) : Nat := fld g.mode 2 2 + 1
def BmCfg.w (g : BmCfg) : Nat := fld g.mode 4 4 + 1
def BmCfg.sgs (g : BmCfg) : Bool := bit g.mode 8
def BmCfg.sgd (g : BmCfg) : Bool := bit g.mode 9
def BmCfg.sadv (g : BmCfg) : Bool := bit g.mode 10
def BmCfg.dadv (g : BmCfg) : Bool := bit g.mode 11
def BmCfg.sPort (g : BmCfg) : Bool := fld g.mode 12 2 == 1
def BmCfg.dPort (g : BmCfg) : Bool := fld g.mode 14 2 == 1
def BmCfg.chan (g : BmCfg) : Nat := fld g.mode 28 4
def BmCfg.srcP (g : BmCfg) : Nat := fld g.src 0 9
def BmCfg.dstP (g : BmCfg) : Nat := fld g.dst 0 9

/-- M·E, or COUNT/64 for BITPLANE: the bytes of one way's run (section 8.4). -/
def BmCfg.runLen (g : BmCfg) : Nat := if g.kind = 3 then g.count / 64 else g.count / (g.w * g.e) * g.e

/-- The unit of Table 8.8. -/
def BmCfg.unit (g : BmCfg) : Nat := if g.kind = 0 then 1 else if g.kind = 3 then 512 else g.w * g.e

/-- The source and destination steps of R197. -/
def BmCfg.sStep (g : BmCfg) : Nat := if g.kind = 1 then g.runLen else g.count
def BmCfg.dStep (g : BmCfg) : Nat := if g.kind = 2 || g.kind = 3 then g.runLen else g.count

/-! ### Port FIFOs as endpoints (R189, R217) -/

/-- The full RX buffers of a CAN FD port, oldest first. -/
def Port.fullRx (x : Port) : List (Nat × CanMb) :=
  sortBy (fun e => e.2.stime.toNat) (x.mbs.filter fun e => e.2.kind == 1 && e.2.full)

/-- The kind has a receive or capture FIFO, or a transmit FIFO (Table 9.3). -/
def hasSrcFifo (p : Nat) : Bool := portKind p == 1 || portKind p == 2 || portKind p == 3 || portKind p == 4 || portKind p == 6
def hasDstFifo (p : Nat) : Bool := portKind p == 1 || portKind p == 2 || portKind p == 3

/-- GPIO word 9 SRC: the edge capture FIFO is the source. -/
def State.gpioSrc (s : State) : Bool := bit (s.liveWord 0x60 9) 0

/-- The bytes a source FIFO holds, oldest first. -/
def State.fifoBytes (s : State) (p : Nat) : List Byte :=
  let x := s.port p
  if portKind p = 1 then x.rx.map RxByte.b
  else if portKind p = 2 then x.fullRx.flatMap fun e => e.2.record
  else if portKind p = 3 then x.ethRx.flatten
  else if portKind p = 4 then (if s.gpioSrc then s.gpio.capture.flatten else s.gpio.snaps.flatten)
  else if portKind p = 6 then (s.enc (p - 0x80)).capture.flatten
  else []

/-- Take `n` bytes off a list of records; a record goes when its last byte is read. -/
def dropBytes : List (List Byte) → Nat → List (List Byte)
  | [], _ => []
  | r :: rest, n => if n = 0 then r :: rest else if r.length ≤ n then dropBytes rest (n - r.length) else r.drop n :: rest

/-- Take `n` bytes off the full RX buffers. -/
def dropMbs (m : Store CanMb) : List (Nat × CanMb) → Nat → Store CanMb
  | [], _ => m
  | (i, b) :: rest, n =>
    if n = 0 then m
    else if b.record.length ≤ n then
      dropMbs (m.set {} i { b with full := false, record := [], stime := 0 }) rest (n - b.record.length)
    else m.set {} i { b with record := b.record.drop n }

/-- Take `n` bytes off a source FIFO; a push of the same cycle into the full FIFO finds the freed place (R218). -/
def State.fifoDrop (s : State) (p n : Nat) : State :=
  let x := s.port p
  let room (s : State) : State := if n = 0 then s else s.popLate p (if portKind p = 1 then 0 else if portKind p = 6 then 3 else if s.gpioSrc then 1 else 2)
  room <| if portKind p = 1 then s.setPort p { x with rx := x.rx.drop n }
  else if portKind p = 2 then s.setPort p { x with mbs := dropMbs x.mbs x.fullRx n }
  else if portKind p = 3 then s.setPort p { x with ethRx := dropBytes x.ethRx n }
  else if portKind p = 4 then
    if s.gpioSrc then { s with gpio := { s.gpio with capture := dropBytes s.gpio.capture n } }
    else { s with gpio := { s.gpio with snaps := dropBytes s.gpio.snaps n } }
  else if portKind p = 6 then s.setEnc (p - 0x80) { s.enc (p - 0x80) with capture := dropBytes (s.enc (p - 0x80)).capture n }
  else s

/-- Put bytes into a serial transmit FIFO: on an idle line they begin a line operation, which later bytes lengthen; while another
operation has the line they wait (R223). `by'` is the subchannel whose MOVE writes them (R205). On a port held in its safe state the
FIFO stays empty and nothing reaches the line (Table 9.7; log entry 86). -/
def State.fifoPut (s : State) (p : Nat) (bs : List Byte) (by' : Option Nat) : State :=
  let x := s.port p
  let who := List.replicate bs.length (by'.getD moverOp)
  if x.safe then s
  else if x.lineBusy == some moverOp then
    (s.setPort p { x with tx := s.txNow p ++ bs, txBy := s.txByNow p ++ who }).sendChars p bs.length 0 true
  else
    let s := s.setPort p { x with waitTx := x.waitTx ++ bs, waitBy := x.waitBy ++ who }
    if x.lineBusy.isNone then s.sendWaiting p else s

/-- The transmit FIFO has room for `k` more bytes. -/
def State.fifoRoom (s : State) (p k : Nat) : Bool := decide (s.txLevel p + (s.port p).waitTx.length + k ≤ 256)

/-! ### Checks (R192, R194, R242) -/

/-- One endpoint is permitted: a port only where Table 8.6 has it, with a FIFO, not SHARED, reserved bits zero. -/
def State.bmPortOk (s : State) (g : BmCfg) (isSrc : Bool) : Bool :=
  let a := if isSrc then g.src else g.dst
  let p := fld a 0 9
  let place := if isSrc then (g.kind == 0 || g.kind == 2 || (g.kind == 3 && p == 0x60 && !s.gpioSrc)) else (g.kind == 0 || g.kind == 1)
  place && fld a 9 55 == 0 && (if isSrc then hasSrcFifo p else hasDstFifo p) && !(decide (portKind p ≤ 3) && s.portShared p)

/-- A list is permitted on the side (R192). -/
def BmCfg.listOk (g : BmCfg) : Bool :=
  (!g.sgs || ((g.kind == 0 || g.kind == 2 || g.kind == 3) && !g.sadv && !g.sPort)) &&
    (!g.sgd || ((g.kind == 0 || g.kind == 1) && !g.dadv && !g.dPort))

/-- WSTRIDE and the ring sizes satisfy section 8.4. -/
def BmCfg.ringsOk (g : BmCfg) : Bool :=
  let way := g.kind = 0 || (decide (g.runLen ≤ g.wstride) &&
    (if g.kind = 1 then !g.sadv || decide (g.sring ≤ g.wstride) else !g.dadv || decide (g.dring ≤ g.wstride)))
  way && (!g.sadv || (g.sring != 0 && g.sring % g.sStep == 0)) && (!g.dadv || (g.dring != 0 && g.dring % g.dStep == 0))

/-- A transfer's operands pass R194, rights apart. `desc`: it comes from a move descriptor, whose reserved bits are seen. -/
def State.bmOk (s : State) (g : BmCfg) (desc : Bool) : Bool :=
  let resv := desc && (fld g.mode 17 11 != 0 || decide (2 ^ 24 ≤ g.wstride) || decide (2 ^ 25 ≤ g.sring) || decide (2 ^ 25 ≤ g.dring))
  let ways := if g.kind = 0 || g.kind = 3 then g.w == 1 else g.w != 1
  !resv && decide (fld g.mode 12 2 < 2) && decide (fld g.mode 14 2 < 2) && ways && (g.kind != 3 || g.e == 1) &&
    decide (1 ≤ g.count ∧ g.count ≤ 2 ^ 24) && g.count % g.unit == 0 &&
    (!g.sPort || s.bmPortOk g true) && (!g.dPort || s.bmPortOk g false) &&
    (g.sPort || !(isLs g.src && lsResv g.src)) && (g.dPort || !(isLs g.dst && lsResv g.dst)) &&
    g.listOk && g.ringsOk

/-- The port rights of a transfer (R189). -/
def State.bmRights (s : State) (sag : Nat) (g : BmCfg) : Bool :=
  (!g.sPort || s.mayObserve sag g.srcP) && (!g.dPort || s.mayActuate sag g.dstP)

/-- The status a start check gives: none = it starts. -/
def State.bmCheck (s : State) (sag : Nat) (g : BmCfg) (desc : Bool) : Option Status :=
  if !s.bmOk g desc then some .programCheck else if !s.bmRights sag g then some .protectionCheck else none

/-! ### Sides -/

/-- The pieces of the source: one range, or one run per way; a list is read first. -/
def BmCfg.srcRanges (g : BmCfg) (sp : Nat) : List (DWord × Nat) :=
  if g.sPort || g.sgs then []
  else if g.kind = 1 then (List.range g.w).map fun k => (DWord.plus g.src (k * g.wstride + sp), g.runLen)
  else [(DWord.plus g.src sp, g.count)]

/-- The pieces of the destination. -/
def BmCfg.dstRanges (g : BmCfg) (dp : Nat) : List (DWord × Nat) :=
  if g.dPort || g.sgd then []
  else if g.kind = 2 then (List.range g.w).map fun k => (DWord.plus g.dst (k * g.wstride + dp), g.runLen)
  else if g.kind = 3 then (List.range 64).map fun k => (DWord.plus g.dst (k * g.wstride + dp), g.runLen)
  else [(DWord.plus g.dst dp, g.count)]

/-- The place in the source's pieces of the element that begins at progress `done` (Table 8.8). -/
def BmCfg.srcPos (g : BmCfg) (done : Nat) : Nat :=
  if g.kind = 1 then let i := done / g.e; (i % g.w) * g.runLen + i / g.w * g.e else done

/-- The place in the destination's pieces (Table 8.8); BITPLANE words have their own. -/
def BmCfg.dstPos (g : BmCfg) (done : Nat) : Nat :=
  if g.kind = 2 then let i := done / g.e; (i % g.w) * g.runLen + i / g.w * g.e else done

/-- The bytes of the next element: a burst of up to 256 for LINEAR between memories, an access of E bytes at a port, an
element, or a block of 512. -/
def BmCfg.elemLen (g : BmCfg) (left : Nat) : Nat :=
  if g.kind = 0 then min left (if g.sPort || g.dPort then g.e else 256) else if g.kind = 3 then 512 else g.e

/-- The bytes of interleaved data in one burst (R199). -/
def BmCfg.burst (g : BmCfg) : Nat := if g.kind = 3 then 512 else if g.kind = 0 then 256 else 256 / g.e * g.e

/-- The piece that holds place `k`: its number, the place in it, its address and length. -/
def findPiece : List (DWord × Nat) → Nat → Nat → Option (Nat × Nat × DWord)
  | [], _, _ => none
  | (a, n) :: rest, i, k => if k < n then some (i, k, a) else findPiece rest (i + 1) (k - n)

/-- An address lies in one of the pieces of a side. -/
def inPieces (ps : List (DWord × Nat)) (a : DWord) : Bool :=
  ps.any fun e => isLs e.1 == isLs a && decide (fld e.1 0 63 ≤ fld a 0 63 ∧ fld a 0 63 < fld e.1 0 63 + e.2)

/-- A piece overlaps the pieces of the other side. -/
def piecesMeet (ps : List (DWord × Nat)) (a : DWord) (n : Nat) : Bool :=
  ps.any fun e => isLs e.1 == isLs a && decide (fld e.1 0 63 < fld a 0 63 + n ∧ fld a 0 63 < fld e.1 0 63 + e.2)

/-- What is written where the sides overlap: each byte of the overlap is a free value, every other byte is right (R198). -/
def State.bmOverlap (s : State) (b : Bm) (k : Nat) : List Byte → List Byte × State
  | [] => ([], s)
  | v :: rest =>
    let hit := match findPiece b.dstPieces 0 k with
      | some (_, off, a) => inPieces b.srcPieces (DWord.plus a off)
      | none => false
    let (v, s) := if hit then let (x, s) := s.draw; (x.setWidth 8, s) else (v, s)
    let (vs, s) := State.bmOverlap s b (k + 1) rest
    (v :: vs, s)

/-- One source byte (R190, R193). A local byte that this transfer's own writes have replaced was read before them (R198). -/
def State.bmSrcByte (s : State) (sag : Nat) (b : Bm) (k : Nat) : Except Status Byte :=
  match findPiece b.srcPieces 0 k with
  | none => .error b.srcEnd
  | some (i, off, a) =>
    if isLs a then
      let o := lsOff a + off
      if !s.lsMapped sag o 1 then .error .addressCheck
      else if s.lsPoisoned sag o 1 then .error .dataIntegrity
      else .ok (((s.phys sag o).bind fun p => (b.orig.find? fun e => e.1 == p).map (·.2)).getD (s.lsByte sag o))
    else if s.shpBound sag then .error .addressCheck
    else match ((b.hostData.find? fun e => e.1 == i).map (·.2)).bind fun bs => bs[off]? with
      | some v => .ok v
      | none => .error .dataIntegrity

/-- Source bytes from place `k` on: as many as can be read, and the status that stopped them. -/
def State.bmSrcBytes (s : State) (sag : Nat) (b : Bm) (k : Nat) : Nat → List Byte × Option Status
  | 0 => ([], none)
  | n + 1 =>
    match s.bmSrcByte sag b k with
    | .error st => ([], some st)
    | .ok v =>
      let (vs, st) := State.bmSrcBytes s sag b (k + 1) n
      (v :: vs, st)

/-- How many of `n` destination bytes from place `k` on may be written, and the status at the first that may not (R193). -/
def State.bmDstRoom (s : State) (sag : Nat) (b : Bm) (k : Nat) : Nat → Nat × Option Status
  | 0 => (0, none)
  | n + 1 =>
    match findPiece b.dstPieces 0 k with
    | none => (0, some b.dstEnd)
    | some (_, off, a) =>
      match s.checkWrite sag (DWord.plus a off) 1 with
      | some st => (0, some st)
      | none =>
        let (m, st) := State.bmDstRoom s sag b (k + 1) n
        (m + 1, st)

/-! ### Status, record, message, half -/

/-- STAT (Table 8.5). -/
def Bm.stat (b : Bm) : Word :=
  put 0 b.state.num ||| putB 3 b.half ||| putB 4 b.fullA ||| putB 5 b.fullB ||| putB 6 b.abortedB ||| putB 7 b.err |||
    putB 8 b.short ||| putB 9 b.disabled ||| putB 10 b.bufB ||| putB 11 b.mover.isSome ||| put 16 b.code.code

/-- The write-back record (R195, Table 8.7). -/
def State.bmRecord (s : State) (ch : Nat) : State :=
  let b := s.bm ch
  if b.wbaddr = 0 || fld b.wbaddr 0 4 ≠ 0 then s
  else s.putStatus b.sag b.wbaddr
    (leBytes 2 b.code.code ++ leBytes 1 (fld b.stat 3 8) ++ [0] ++ leBytes 4 b.resid ++ leBytes 4 b.ends ++ leBytes 4 s.stime.toNat)

/-- The channel's MSI-X message (R200). -/
def State.bmMsg (s : State) (ch : Nat) : State :=
  let b := s.bm ch
  if b.vec = 0 then s else s.sendMsix b.sag b.vec

/-- Half of a buffer, rounded up (R200). -/
def BmCfg.half (g : BmCfg) : Nat := ceilDiv g.count 2

/-- The bytes of one write: at a port an access of ESIZE + 1, in BITPLANE a word, in memory a burst (Table 8.6, R196, R199). -/
def BmCfg.writeLen (g : BmCfg) : Nat := if g.dPort then g.e else if g.kind = 3 then 8 else g.burst

/-- The progress after the write that reaches half. -/
def BmCfg.halfGoal (g : BmCfg) : Nat := min g.count (ceilDiv g.half g.writeLen * g.writeLen)

/-- HALF sets at the write after which the progress has reached half; in register use, unless the same write ends the buffer, the
record and the message follow (R195, R200). -/
def State.bmHalfEvent (s : State) (ch : Nat) : State :=
  let b := s.bm ch
  if b.halfDone || decide (b.done < b.run.halfGoal) || decide (b.run.count ≤ b.done) then s
  else
    let s := s.setBm ch { b with halfDone := true, half := true, resid := b.run.count - b.done }
    if b.mover.isSome then s
    else
      let s := s.bmRecord ch
      if b.ieHalf then s.bmMsg ch else s

/-! ### Moving -/

/-- What stops a run of elements: the goal is reached, a port endpoint is not ready, a host read is outstanding, or an error. -/
inductive BmStop where
  | reached
  | port
  | wait
  | error (st : Status)
deriving DecidableEq, Repr

/-- The sides overlap, or may: a source list is not read to its end. -/
def Bm.mayOverlap (b : Bm) : Bool := b.srcList.isSome || b.srcPieces.any fun e => piecesMeet b.dstPieces e.1 e.2

/-- Keep the local bytes that the next `m` destination bytes from place `k` on replace, for source elements still to come (R198). -/
def State.bmKeep (s : State) (ch sag k m : Nat) : State :=
  let b := s.bm ch
  let at_ (j : Nat) : Option (Nat × Byte) := match findPiece b.dstPieces 0 (k + j) with
    | some (_, off, a) => if isLs a then (s.phys sag (lsOff a + off)).map fun p => (p, s.lsByte sag (lsOff a + off)) else none
    | none => none
  let new := ((List.range m).filterMap at_).filter fun e => !b.orig.any fun o => o.1 == e.1
  if b.mayOverlap then s.setBm ch { b with orig := b.orig ++ new } else s

/-- Write memory bytes at place `k`; the bytes written count as progress (R196). -/
def State.bmPut (s : State) (ch sag k : Nat) (bs : List Byte) : BmStop × State :=
  let b := s.bm ch
  let (m, st) := s.bmDstRoom sag b k bs.length
  let (bs, s) := if b.srcPieces.any fun e => piecesMeet b.dstPieces e.1 e.2 then s.bmOverlap b k bs else (bs, s)
  let s := (s.bmKeep ch sag k m).storePieces sag b.dstPieces k (bs.take m)
  let s := s.updBm ch fun b => { b with done := b.done + m }
  match st with
  | some st => (.error st, s)
  | none => (.reached, s)

/-- The 8-byte word of pin `n` of a block: bit k is bit n of snapshot k (R196). -/
def planeWord (block : List Byte) (n : Nat) : List Byte :=
  leBytes 8 ((List.range 64).foldl (fun v k => v + (leAt block (8 * k) 8 / 2 ^ n % 2) * 2 ^ k) 0)

/-- Write the 64 words of a block, pin 0 first; HALF may set between two of them (R196, R200). -/
def State.bmPlanes (s : State) (ch sag j : Nat) (block : List Byte) : List Nat → BmStop × State
  | [] => (.reached, s)
  | n :: rest =>
    match s.bmPut ch sag (n * (s.bm ch).run.runLen + 8 * j) (planeWord block n) with
    | (.reached, s) => State.bmPlanes (s.bmHalfEvent ch) ch sag j block rest
    | r => r

/-- Put an element into a port: a serial FIFO needs the space; a record port takes its record when the transfer's last byte is
at hand (R189, R191). -/
def State.bmPutPort (s : State) (ch : Nat) (bs : List Byte) : Bool × State :=
  let b := s.bm ch
  let p := b.run.dstP
  let adv (s : State) : State := s.updBm ch fun b => { b with done := b.done + bs.length }
  if !bit (s.liveWord p 0) 0 then (false, s)
  else if portKind p = 1 then
    if !s.fifoRoom p bs.length then (false, s) else (true, adv (s.fifoPut p bs b.mover))
  else if b.done + bs.length < b.run.count then
    (true, adv (s.updBm ch fun b => { b with gather := b.gather ++ bs }))
  else
    let (d, taken, s) := s.putRecord (b.mover.getD moverOp) p (b.gather ++ bs) false
    let bad := if portKind p = 2 then bit d 8 else bit d 4
    if taken || bad then (true, adv (s.addEstat p d)) else (false, s)

/-- Take one snapshot of a BITPLANE transfer from the port, an access of 8 bytes; the 64th brings the block's words (Table 8.6, R191,
R196). -/
def State.bmSnapshot (s : State) (ch sag : Nat) : BmStop × State :=
  let b := s.bm ch
  let bs := (s.fifoBytes b.run.srcP).take 8
  if bs.length < 8 then (.port, s)
  else
    let s := (s.fifoDrop b.run.srcP 8).updBm ch fun b => { b with gather := b.gather ++ bs }
    let block := (s.bm ch).gather
    if block.length < 512 then (.reached, s)
    else (s.updBm ch fun b => { b with gather := [] }).bmPlanes ch sag (b.done / 512) block (List.range 64)

/-- Move the next element; an element that would pass `cap` does not move. -/
def State.bmElement (s : State) (ch sag cap : Nat) : BmStop × State :=
  let b := s.bm ch
  let g := b.run
  let len := g.elemLen (cap - b.done)
  if len = 0 || decide (cap < b.done + len) then (.reached, s)
  else if g.sPort && g.kind = 3 then s.bmSnapshot ch sag
  else if g.sPort && decide ((s.fifoBytes g.srcP).length < len) then (.port, s)
  else
    let (bs, st) := if g.sPort then ((s.fifoBytes g.srcP).take len, none) else s.bmSrcBytes sag b (g.srcPos b.done) len
    match st with
    | some st =>
      if g.kind = 0 && !g.dPort && !bs.isEmpty then
        match s.bmPut ch sag b.done bs with
        | (.reached, s) => (.error st, s)
        | r => r
      else (.error st, s)
    | none =>
      if g.dPort then
        let (ok, s') := s.bmPutPort ch bs
        if ok then (.reached, if g.sPort then s'.fifoDrop g.srcP len else s') else (.port, s)
      else
        let s := if g.sPort then s.fifoDrop g.srcP len else s
        if g.kind = 3 then s.bmPlanes ch sag (b.done / 512) bs (List.range 64)
        else s.bmPut ch sag (g.dstPos b.done) bs

/-! ### Reading lists and host data -/

/-- The bytes that list pieces cover. -/
def coverage (ps : List (DWord × Nat)) : Nat := ps.foldl (fun n e => n + e.2) 0

/-- Take one list element, of the source or the destination; a bad one ends the list (R193, R53, R5). -/
def Bm.addElement (b : Bm) (isSrc : Bool) (e : Option (List Byte)) : Bm :=
  let ps := if isSrc then b.srcPieces else b.dstPieces
  let k := (if isSrc then b.srcElems else b.dstElems) + 1
  let at_ := if isSrc then b.srcList else b.dstList
  let close (b : Bm) (st : Status) : Bm := if isSrc then { b with srcList := none, srcEnd := st } else { b with dstList := none, dstEnd := st }
  match e with
  | none => close b .dataIntegrity
  | some bs =>
    let a : DWord := BitVec.ofNat 64 (leAt bs 0 8)
    let n := leAt bs 8 4
    if leAt bs 12 4 ≠ 0 then close b .programCheck
    else if n = 0 || decide (2 ^ 24 < n) || (isLs a && lsResv a) then close b .addressCheck
    else
      let ps := ps ++ [(a, n)]
      let next := if b.run.count ≤ coverage ps || decide (256 ≤ k) then none else at_.map fun a => DWord.plus a 16
      if isSrc then { b with srcPieces := ps, srcElems := k, srcList := next }
      else { b with dstPieces := ps, dstElems := k, dstList := next }

/-- What a transfer needs next from memory: a list element of a side, or the bytes of a source piece in host memory. -/
inductive BmWant where
  | element (isSrc : Bool) (a : DWord)
  | data (i : Nat) (a : DWord) (n : Nat)
deriving DecidableEq, Repr

/-- The bytes of source piece `i` that the transfer uses. -/
def Bm.pieceLen (b : Bm) (i : Nat) : Nat :=
  min ((b.srcPieces[i]?).getD (0, 0)).2 (b.run.count - coverage (b.srcPieces.take i))

/-- The first of `n` source places from `k` on that is not at hand. -/
def Bm.srcWant (b : Bm) (k : Nat) : Nat → Option BmWant
  | 0 => none
  | n + 1 =>
    match findPiece b.srcPieces 0 k with
    | none => b.srcList.map (BmWant.element true)
    | some (i, _, a) =>
      if isLs a || b.hostData.any fun e => e.1 == i then Bm.srcWant b (k + 1) n else some (.data i a (b.pieceLen i))

/-- The first of `n` destination places from `k` on whose list element is not read. -/
def Bm.dstWant (b : Bm) (k : Nat) : Nat → Option BmWant
  | 0 => none
  | n + 1 =>
    match findPiece b.dstPieces 0 k with
    | none => b.dstList.map (BmWant.element false)
    | some _ => Bm.dstWant b (k + 1) n

/-- What the next element needs and is not at hand (R192). A BITPLANE destination has no list (R192). -/
def Bm.want (b : Bm) : Option BmWant :=
  let g := b.run
  let n := g.elemLen (g.count - b.done)
  (if g.sPort then none else b.srcWant (g.srcPos b.done) n).orElse fun _ =>
    if g.dPort || g.kind = 3 then none else b.dstWant (g.dstPos b.done) n

/-- The channel's read is outstanding. -/
def State.bmReading (s : State) (ch : Nat) : Bool :=
  s.reads.any fun r => match r.who with
    | .bmList c _ => c == ch
    | .bmData c => c == ch
    | _ => false

/-- Read what the next element needs: list elements, then host data in widened units (R190, R192); host reads are answered by
HOST_READ_RETURN. -/
def State.bmPrep (s : State) (ch sag : Nat) : Nat → State
  | 0 => s
  | k + 1 =>
    if s.bmReading ch then s
    else match (s.bm ch).want with
    | none => s
    | some (.element isSrc a) =>
      let close (s : State) : State := s.updBm ch fun b => if isSrc then { b with srcList := none } else { b with dstList := none }
      if isLs a then
        if lsResv a || fld a 0 4 ≠ 0 || !s.lsMapped sag (lsOff a) 16 then State.bmPrep (close s) ch sag k
        else
          let e := if s.lsPoisoned sag (lsOff a) 16 then none else some (s.lsRead sag (lsOff a) 16)
          State.bmPrep (s.updBm ch fun b => b.addElement isSrc e) ch sag k
      else if fld a 0 4 ≠ 0 || s.shpBound sag then State.bmPrep (close s) ch sag k
      else if (s.fn sag).busMaster then s.hostRead sag a 16 (.bmList ch isSrc)
      else State.bmPrep (s.updBm ch fun b => b.addElement isSrc none) ch sag k
    | some (.data i a n) =>
      let s := s.updBm ch fun b => { b with nextRead := i }
      if s.shpBound sag || !(s.fn sag).busMaster then
        State.bmPrep (s.updBm ch fun b => { b with hostData := b.hostData ++ [(i, [])] }) ch sag k
      else
        let lead := fld a 0 3
        s.hostRead sag (a - BitVec.ofNat 64 lead) ((lead + n + 7) / 8 * 8) (.bmData ch)

/-- A bound for `bmPrep`: two lists of 256 elements, and as many pieces to look at. -/
def bmPrepFuel : Nat := 1100

/-- A list element arrives from the host, or its read failed. -/
def State.bmGotElement (s : State) (ch : Nat) (isSrc : Bool) (e : Option (List Byte)) : State :=
  (s.updBm ch fun b => b.addElement isSrc e).bmPrep ch (s.bm ch).sag bmPrepFuel

/-- Source data arrives from the host: the widening's extra bytes are discarded (R190). -/
def State.bmGotData (s : State) (ch : Nat) (d : Option (List Byte)) : State :=
  let s := s.updBm ch fun b =>
    let (a, _) := (b.srcPieces[b.nextRead]?).getD (0, 0)
    let bs := match d with | some bs => (bs.drop (fld a 0 3)).take (b.pieceLen b.nextRead) | none => []
    { b with hostData := b.hostData ++ [(b.nextRead, bs)] }
  s.bmPrep ch (s.bm ch).sag bmPrepFuel

/-- What the next element needs is at hand. -/
def Bm.ready (b : Bm) : Bool := b.want.isNone

/-! ### A run of elements -/

/-- Move elements until the progress reaches `goal`, none beyond `cap`; `k` bounds their number. It pauses where a host read is
outstanding. -/
def State.bmMove (s : State) (ch sag goal cap : Nat) : Nat → BmStop × State
  | 0 => (.reached, s)
  | k + 1 =>
    if goal ≤ (s.bm ch).done then (.reached, s)
    else
      let s := s.bmPrep ch sag bmPrepFuel
      if !(s.bm ch).ready then (.wait, s)
      else match s.bmElement ch sag cap with
      | (.reached, s') =>
        if (s'.bm ch).done = (s.bm ch).done && (s'.bm ch).gather.length = (s.bm ch).gather.length then (.reached, s)
        else State.bmMove s' ch sag goal cap k
      | r => r

/-- The reads of a channel are discarded when they return. -/
def State.bmDropReads (s : State) (ch : Nat) : State :=
  { s with reads := s.reads.filter fun r => match r.who with
      | .bmList c _ => c != ch
      | .bmData c => c != ch
      | _ => true }

end Sys2Proof.Machine
end

