-- ==== Sys2Proof/Machine/BlockMover.lean ====
section
/-! DEFINITION. The block mover's channels: register use with ping-pong (R186, R187, R195, R199 to R201), abort and disable
(R202 to R204), the MOVE word (R206, R207), and the BAR0 register slots (Table 8.2). -/

namespace Sys2Proof.Machine

/-! ### Starting -/

/-- The transfer that the register set describes, for buffer A or B (R187, R201). -/
def Bm.regCfg (b : Bm) (bufB : Bool) : BmCfg :=
  { mode := b.mode, src := if bufB then b.srcB else b.src, dst := if bufB then b.dstB else b.dst
    count := b.count, wstride := b.wstride, sring := b.sring, dring := b.dring }

/-- A channel begins a transfer: its sides are laid out at the current positions (R196), and what it reads first is read. -/
def State.bmLaunch (s : State) (ch : Nat) (g : BmCfg) (bufB : Bool) : State :=
  let s := s.updBm ch fun b => { b with
    state := .run, bufB, run := g, done := 0, halfDone := false, resid := g.count
    srcPieces := g.srcRanges (if g.sadv then b.spos else 0), dstPieces := g.dstRanges (if g.dadv then b.dpos else 0)
    srcList := if g.sgs then some g.src else none, dstList := if g.sgd then some g.dst else none
    srcElems := 0, dstElems := 0, srcEnd := .addressCheck, dstEnd := .addressCheck, hostData := [], nextRead := 0, orig := [], gather := [] }
  s.bmPrep ch (s.bm ch).sag bmPrepFuel

/-- PRST: the positions start at zero (Table 8.3). -/
def Bm.prst (b : Bm) (g : BmCfg) : Bm := if bit g.mode 16 then { b with spos := 0, dpos := 0 } else b

/-- A start that the checks refuse sets ERR with its CODE (R194, R382). -/
def State.bmRefuse (s : State) (ch : Nat) (st : Status) : State :=
  s.updBm ch fun b => { b with state := .idle, err := true, code := st }

/-- Start a buffer in register use (R194). -/
def State.bmStart (s : State) (ch : Nat) (bufB : Bool) : State :=
  let b := s.bm ch
  let g := b.regCfg bufB
  if b.failed then s.bmRefuse ch .repairExhausted
  else match s.bmCheck b.sag g false with
    | some st => s.bmRefuse ch st
    | none => s.bmLaunch ch g bufB

/-- GO starts buffer A; PRST acts on a transfer that starts (R194, Table 8.3). -/
def State.bmBegin (s : State) (ch : Nat) : State :=
  let b := s.bm ch
  let g := b.regCfg false
  (if b.failed || (s.bmCheck b.sag g false).isSome then s else s.setBm ch (b.prst g)).bmStart ch false

/-- The oldest waiting MOVE takes an IDLE channel (R206). -/
def State.bmNext (s : State) (ch : Nat) : State :=
  let b := s.bm ch
  match b.waiters with
  | [] => s
  | (n, g) :: rest =>
    if b.state != .idle || b.mover.isSome || b.zeroing then s
    else (s.setBm ch ({ b with waiters := rest, mover := some n }.prst g)).bmLaunch ch g false

/-! ### Progress -/

/-- Move up to `cap` bytes of the buffer, with HALF on the way. -/
def State.bmRunTo (s : State) (ch cap : Nat) : BmStop × State :=
  let b := s.bm ch
  let g := b.run
  let (r, s) := s.bmMove ch b.sag (min g.halfGoal cap) cap (g.count + 1)
  let s := s.bmHalfEvent ch
  match r with
  | .reached => let (r, s) := s.bmMove ch b.sag cap cap (g.count + 1); (r, s.bmHalfEvent ch)
  | r => (r, s)

/-! ### The end of a buffer -/

/-- Positions advance after a full count (R197). -/
def Bm.advance (b : Bm) : Bm :=
  let g := b.run
  { b with
    spos := if g.sadv then (b.spos + g.sStep) % g.sring else b.spos
    dpos := if g.dadv then (b.dpos + g.dStep) % g.dring else b.dpos }

/-- What every end of a buffer does. -/
def Bm.close (b : Bm) (st : Status) : Bm :=
  let b := { b with resid := b.run.count - b.done, code := st, ends := sat32 b.ends, state := .idle, gather := [] }
  if st == .ok then b.advance else b

/-- The mover of a transfer whose program has ended before it (R385). -/
def noMover : Nat := 256

/-- The MOVE that held the channel ends with the transfer's status (R70, R206). -/
def State.moveDone (s : State) (n : Nat) (port : Bool) (resid : Nat) (st : Status) : State :=
  let s := if port then s.updSch n fun x => { x with residual := w32 resid } else s
  let x := s.sch n
  let c := (x.cur).getD { op := 0x08, flags := 0, tgt := 0, count := 0, addr := 0 }
  if n < 256 then s.ccwDone n c st (x.nextPc x.curPc) else s

/-- Ping-pong: a full end starts the other buffer, or stalls while that buffer's FULL bit is set (R201). -/
def State.bmPing (s : State) (ch : Nat) : State :=
  let b := s.bm ch
  if !b.ping then s.bmNext ch
  else if (if b.bufB then b.fullA else b.fullB) then s.updBm ch fun b => { b with state := .stalled }
  else (s.bmStart ch (!b.bufB)).bmNext ch

/-- A buffer ends with a status: OK at full count, LENGTH_MISMATCH short, ABORTED, or an error: STAT and RESID follow, of a MOVE's
buffer too (R195, R200). A buffer whose last write completes its count has its FULL bit, also where an ABORT has been taken.
The record and the message are register use's alone (R206). -/
def State.bmEnd (s : State) (ch : Nat) (st : Status) : State :=
  let b := s.bm ch
  let s := s.bmDropReads ch
  let port := b.run.sPort || b.run.dPort
  let half := !b.halfDone && decide (b.run.half ≤ b.done)
  let full := decide (b.run.count ≤ b.done)
  let cut := st == .aborted || (b.mover.isSome && st == .ccwWatchdog)
  let x := b.close st
  let x := { x with
    half := x.half || half, halfDone := x.halfDone || half
    fullA := x.fullA || (full && !x.bufB), fullB := x.fullB || (full && x.bufB)
    abortedB := x.abortedB || cut, short := x.short || st == .lengthMismatch
    err := x.err || (st != .ok && !cut && st != .lengthMismatch) }
  match b.mover with
  | some n => ((s.setBm ch { x with mover := none }).bmNext ch).moveDone n port x.resid st
  | none =>
    let s := s.setBm ch x
    let s := if st == .lengthMismatch then s else s.bmRecord ch
    let s := if st != .ok || x.ieFull || (half && x.ieHalf) then s.bmMsg ch else s
    if st == .ok then s.bmPing ch else s.bmNext ch

/-- BM_HALF (R200): the transfer moves until its progress reaches half; where it has to wait for a host read it stays short of it. -/
def execBmHalf (ch : Nat) (s : State) : Out :=
  act (.bmHalf ch) s fun s =>
    let b := s.bm ch
    if b.state != .run || b.halfDone then s
    else ((s.bmMove ch b.sag b.run.halfGoal b.run.count (b.run.count + 1)).2).bmHalfEvent ch

/-- A running buffer moves as far as its end allows, then ends. `cap`: what an endpoint allows; `st`: how it ends there. Where it has
to wait for a host read it goes on running, and its end comes with a later row (R192). -/
def State.bmFinish (s : State) (ch cap : Nat) (st : Status) : State :=
  let b := s.bm ch
  let (r, s) := s.bmRunTo ch cap
  match r with
  | .error e => s.bmEnd ch e
  | .port => if b.mover.isNone && b.pace then s else s.bmEnd ch .lengthMismatch
  | .wait => s
  | .reached => s.bmEnd ch (if b.run.count ≤ (s.bm ch).done then .ok else st)

/-- A BITPLANE buffer that its port has ended short took the snapshots of the block it could not finish: the port was empty when the
channel reached it (R191). -/
def State.bmSpill (s : State) (b : Bm) : State :=
  let left := (s.fifoBytes b.run.srcP).length
  if b.run.sPort && b.run.kind = 3 && decide (left < 512) then s.fifoDrop b.run.srcP (left / 8 * 8) else s

/-- BM_BUFFER_END (R191, R193, R200): the buffer ends at full count, short at a port, or in error; a paced port that is not
ready keeps it running. -/
def execBmBufferEnd (ch : Nat) (e : BmEnd) (s : State) : Out :=
  act (.bmBufferEnd ch e) s fun s =>
    let b := s.bm ch
    let g := b.run
    if b.state != .run then s
    else match e with
      | .full => s.bmFinish ch g.count .ok
      | .short m =>
        if !(g.sPort || g.dPort) || (b.mover.isNone && b.pace) || g.count ≤ m || decide (m < b.done) then s
        else (s.bmFinish ch m .lengthMismatch).bmSpill b
      | .error m => if g.sPort || g.count ≤ m || decide (m < b.done) then s else s.bmFinish ch m .dataIntegrity

/-! ### Abort and disable (R202, R203) -/

/-- ABORT: a running channel finishes its burst; a stalled one ends at once (Tables 8.9, 8.13). -/
def State.bmAbort (s : State) (ch : Nat) : State :=
  let b := s.bm ch
  match b.state with
  | .run => s.setBm ch { b with state := .aborting }
  | .stalled => (s.setBm ch { b with bufB := !b.bufB, done := 0, run := b.regCfg (!b.bufB), halfDone := true }).bmEnd ch .aborted
  | _ => s

/-- BM_ABORT_DONE (R202, Table 8.13): the current burst completes; a MOVE whose count it completes ends OK. -/
def execBmAbortDone (ch moved : Nat) (s : State) : Out :=
  act (.bmAbortDone ch moved) s fun s =>
    let b := s.bm ch
    if b.state != .aborting then s
    else
      let s := (s.bmRunTo ch (min moved b.run.count)).2
      let full := decide (b.run.count ≤ (s.bm ch).done)
      s.bmEnd ch (if b.mover.isSome then (if full then .ok else .ccwWatchdog) else .aborted)

/-- DISABLE (R203): the channel stops at once. How far a running transfer came, its positions, RESID, HALF and the FULL bits
are free values. -/
def State.bmDisable (s : State) (ch : Nat) : State :=
  let b := s.bm ch
  if b.state == .idle then s.setBm ch { b with disabled := true }
  else
    let (p, s) := s.draw
    let (v, s) := s.draw
    let s := if b.state == .stalled then s
      else (s.bmMove ch b.sag b.run.count (b.done + p.toNat % (b.run.count - b.done + 1)) (b.run.count + 1)).2
    (s.bmDropReads ch).updBm ch fun b => { b with
      state := .idle, disabled := true, resid := fld v 0 25, spos := fld v 25 25, half := bit v 50, fullA := bit v 51, fullB := bit v 52
      dpos := fld p 32 25, gather := [] }

/-- The zeroing of a disabled channel's register set begins (R184, Table 7.3). -/
def State.bmKill (s : State) (ch : Nat) : State :=
  let b := s.bm ch
  (s.bmDropReads ch).setBm ch { sag := b.sag, slot := b.slot, en := b.en, failed := b.failed, gres := b.gres, zeroing := true, zeroFor := b.sag }

/-- The MOVEs that hold a channel or wait for it: the subchannel, whether it names a port, and the bytes it has not moved (R206). -/
def Bm.movers (b : Bm) : List (Nat × Bool × Nat) :=
  (b.mover.toList.map fun n => (n, b.run.sPort || b.run.dPort, b.run.count - b.done)) ++
    b.waiters.map fun w => (w.1, w.2.sPort || w.2.dPort, w.2.count)

/-- MOVEs end with a status. -/
def State.endMoves (s : State) (ms : List (Nat × Bool × Nat)) (st : Status) : State :=
  ms.foldl (fun s m => s.moveDone m.1 m.2.1 m.2.2 st) s

/-- Disable a channel, and say which MOVEs that leaves without it (R184, R204). -/
def State.bmTake (s : State) (ch : Nat) : List (Nat × Bool × Nat) × State :=
  let s := s.bmDisable ch
  ((s.bm ch).movers, s.bmKill ch)

/-- A reassigned channel (R184): its MOVEs end with PROTECTION_CHECK, the channel being no longer theirs (R207). -/
def State.bmReassign (s : State) (ch sag slot : Nat) (en : Bool) : State :=
  let (gone, s) := s.bmTake ch
  (s.updBm ch fun b => { b with sag, slot, en }).endMoves gone .protectionCheck

/-- A MOVE's watchdog bites (R108, R204): its transfer is aborted; a MOVE that waits for its channel ends at once. -/
def State.abortMove (s : State) (n ch : Nat) : State :=
  let b := s.bm ch
  if b.mover == some n then s.bmAbort ch
  else (s.setBm ch { b with waiters := b.waiters.filter fun e => e.1 != n }).endMoves (b.movers.filter fun m => m.1 == n) .ccwWatchdog

/-! ### CTL and STAT (Tables 8.4, 8.5, 8.13) -/

/-- The channel refuses register writes: held by a MOVE, reserved, or being zeroed (R187, Table 7.3). -/
def Bm.shut (b : Bm) : Bool := b.mover.isSome || b.gres.isSome || b.zeroing

/-- A write of CTL. -/
def State.bmCtl (s : State) (ch : Nat) (w : Word) : State :=
  let b := s.bm ch
  if b.zeroing then s
  else if b.shut || decide (32 < fld w 8 6) then s.errHost
  else
    let s := s.setBm ch { b with
      ieHalf := bit w 3, ieFull := bit w 4, ping := bit w 5, pace := bit w 6, vec := fld w 8 6 }
    let s := if b.state == .stalled && !bit w 5 && !bit w 1 && !bit w 2 then (s.updBm ch fun b => { b with state := .idle }).bmNext ch else s
    if bit w 2 then (s.bmDisable ch).bmNext ch
    else if bit w 1 then
      let s := if bit w 0 then s.errHost else s
      s.bmAbort ch
    else if bit w 0 then
      if b.state != .idle || !b.waiters.isEmpty then s.errHost
      else s.bmBegin ch
    else s

/-- The readable bits of CTL. -/
def Bm.ctl (b : Bm) : Word := putB 3 b.ieHalf ||| putB 4 b.ieFull ||| putB 5 b.ping ||| putB 6 b.pace ||| put 8 b.vec

/-- A write of STAT clears W1C bits; clearing the FULL bit a stalled channel waits for starts its buffer (R201). -/
def State.bmW1c (s : State) (ch : Nat) (w : Word) : State :=
  let b := s.bm ch
  if b.zeroing then s
  else if b.shut then s.errHost
  else
    let b := { b with
      half := b.half && !bit w 3, fullA := b.fullA && !bit w 4, fullB := b.fullB && !bit w 5
      abortedB := b.abortedB && !bit w 6, err := b.err && !bit w 7, short := b.short && !bit w 8, disabled := b.disabled && !bit w 9 }
    let s := s.setBm ch b
    if b.state == .stalled && !(if b.bufB then b.fullA else b.fullB) then
      ((s.setBm ch { b with state := .idle }).bmStart ch (!b.bufB)).bmNext ch
    else s

/-- A command on the register slot of a channel: only an assigned channel of a function with a BAR0 has one (R185, R186). -/
def State.onSlot (s : State) (ch : Nat) (f : State → State) : State :=
  let b := s.bm ch
  if !b.en || s.shpBound b.sag then s.errHost else if s.barOn b.sag then f s else s

/-- BM_GO: a write of CTL with GO, the other bits as they stand (R194, Table 8.4). -/
def execBmGo (ch : Nat) (s : State) : Out :=
  act (.bmGo ch) s fun s => s.onSlot ch fun s => s.bmCtl ch (setBit (s.bm ch).ctl 0 true)

/-- BM_ABORT: a write of CTL with ABORT (R202). -/
def execBmAbort (ch : Nat) (s : State) : Out :=
  act (.bmAbort ch) s fun s => s.onSlot ch fun s => s.bmCtl ch (setBit (s.bm ch).ctl 1 true)

/-- BM_DISABLE: a write of CTL with DISABLE (R203). -/
def execBmDisable (ch : Nat) (s : State) : Out :=
  act (.bmDisable ch) s fun s => s.onSlot ch fun s => s.bmCtl ch (setBit (s.bm ch).ctl 2 true)

/-- BM_STAT_CLEAR: a write of STAT (R201). -/
def execBmStatClear (ch : Nat) (w : Word) (s : State) : Out :=
  act (.bmStatClear ch w) s fun s => s.onSlot ch fun s => s.bmW1c ch w

/-! ### BAR0 slots (R186, R187) -/

/-- The channel whose slot holds a BAR0 offset of a function. -/
def State.bmOfSlot (s : State) (fn slot : Nat) : Option Nat :=
  (List.range 16).find? fun c => let b := s.bm c; b.en && b.sag == fn && b.slot == slot

/-- The 8-byte registers. -/
def bmWide (off : Nat) : Bool := off == 0x00 || off == 0x08 || off == 0x38 || off == 0x40 || off == 0x48
def Bm.wide (b : Bm) (off : Nat) : DWord :=
  if off = 0x00 then b.src else if off = 0x08 then b.dst else if off = 0x38 then b.srcB else if off = 0x40 then b.dstB else b.wbaddr
def Bm.setWide (b : Bm) (off : Nat) (v : DWord) : Bm :=
  if off = 0x00 then { b with src := v } else if off = 0x08 then { b with dst := v } else if off = 0x38 then { b with srcB := v }
  else if off = 0x40 then { b with dstB := v } else { b with wbaddr := v }

/-- The 4-byte registers as read. -/
def Bm.narrow (b : Bm) (off : Nat) : Option Word :=
  if off = 0x10 then some (w32 b.count) else if off = 0x14 then some b.mode else if off = 0x18 then some (w32 b.wstride)
  else if off = 0x1C then some (w32 b.sring) else if off = 0x20 then some (w32 b.dring) else if off = 0x24 then some (w32 b.spos)
  else if off = 0x28 then some (w32 b.dpos) else if off = 0x2C then some b.ctl else if off = 0x30 then some b.stat
  else if off = 0x34 then some (w32 b.resid) else if off = 0x50 then some (w32 b.ends) else none

/-- An access reaches a register of the slot: its size and alignment are the register's. -/
def bmAccess (off size : Nat) : Bool :=
  (size == 8 && off % 8 == 0 && bmWide off) ||
    (size == 4 && off % 4 == 0 && (bmWide off || (4 ≤ off && bmWide (off - 4)) || (({} : Bm).narrow off).isSome))

/-- Read a slot: zero while the set is zeroed; ENDS reads and clears; a reserved offset reads zero (R186, R438). -/
def State.bmRead (s : State) (fn slot off size : Nat) : DWord × State :=
  match s.bmOfSlot fn slot with
  | none => (0, s.errHost)
  | some ch =>
    let b := s.bm ch
    if !bmAccess off size then (0, if 0x58 ≤ off && (size == 4 || size == 8) && off % size == 0 then s else s.errHost)
    else if b.zeroing then (0, s)
    else if bmWide off then (if size = 8 then b.wide off else b.wide off &&& 0xFFFFFFFF, s)
    else if 4 ≤ off && bmWide (off - 4) then (b.wide (off - 4) >>> 32, s)
    else
      let v : DWord := ((b.narrow off).getD 0).setWidth 64
      (v, if off = 0x50 then s.setBm ch { b with ends := 0 } else s)

/-- A register that accepts writes only while STATE is IDLE (R187). -/
def bmIdleOnly (off : Nat) : Bool := (0x10 ≤ off && off < 0x2C) || off == 0x48 || off == 0x4C

/-- Write a slot (R186, R187). -/
def State.bmWrite (s : State) (fn slot off size : Nat) (v : DWord) : State :=
  match s.bmOfSlot fn slot with
  | none => s.errHost
  | some ch =>
    let b := s.bm ch
    let w : Word := v.setWidth 32
    if b.zeroing then s
    else if !bmAccess off size || b.shut || (bmIdleOnly off && b.state != .idle) then s.errHost
    else if bmWide off then
      s.setBm ch (b.setWide off (if size = 8 then v else (b.wide off &&& 0xFFFFFFFF00000000) ||| (v &&& 0xFFFFFFFF)))
    else if 4 ≤ off && bmWide (off - 4) then
      s.setBm ch (b.setWide (off - 4) ((b.wide (off - 4) &&& 0xFFFFFFFF) ||| (v <<< 32)))
    else if off = 0x10 then s.setBm ch { b with count := fld w 0 25 }
    else if off = 0x14 then s.setBm ch { b with mode := w &&& 0x1FFFF }
    else if off = 0x18 then s.setBm ch { b with wstride := fld w 0 24 }
    else if off = 0x1C then s.setBm ch { b with sring := fld w 0 25 }
    else if off = 0x20 then s.setBm ch { b with dring := fld w 0 25 }
    else if off = 0x24 then s.setBm ch { b with spos := fld w 0 25 }
    else if off = 0x28 then s.setBm ch { b with dpos := fld w 0 25 }
    else if off = 0x2C then s.bmCtl ch w
    else if off = 0x30 then s.bmW1c ch w
    else s

/-! ### MOVE (R206, R207) -/

/-- The transfer that a move descriptor describes (Table 8.11). -/
def moveCfg (bs : List Byte) (count : Nat) : BmCfg :=
  { src := BitVec.ofNat 64 (leAt bs 0 8), dst := BitVec.ofNat 64 (leAt bs 8 8), mode := w32 (leAt bs 16 4)
    wstride := leAt bs 20 4, sring := leAt bs 24 4, dring := leAt bs 28 4, count }

/-- The descriptor can be read: in local store, aligned, mapped. -/
def State.descAt (s : State) (sag : Nat) (a : DWord) : Bool :=
  isLs a && !lsResv a && fld a 0 5 == 0 && s.lsMapped sag (lsOff a) 32

/-- The descriptor of a MOVE. -/
def State.moveOf (s : State) (n : Nat) (c : Ccw) : BmCfg := moveCfg (s.lsRead (s.schSag n) (lsOff c.addr) 32) c.count.toNat

/-- MOVE hands its descriptor to the channel it names and waits for done (R70, R206). -/
def execCcwMove (sch : Nat) (s : State) : Out :=
  act (.ccwMove sch) s fun s =>
    s.dispatch sch 0x08
      (fun s c => !(isLs c.addr && lsResv c.addr) &&
        (!s.descAt (s.schSag sch) c.addr || s.lsPoisoned (s.schSag sch) (lsOff c.addr) 32 ||
          (s.bmOk (s.moveOf sch c) true && (s.bm (s.moveOf sch c).chan).en)))
      (fun s c => if s.descAt (s.schSag sch) c.addr then none else some .addressCheck)
      (fun s c =>
        if s.lsPoisoned (s.schSag sch) (lsOff c.addr) 32 then some .dataIntegrity
        else
          let g := s.moveOf sch c
          let b := s.bm g.chan
          if b.sag == s.schSag sch && (b.gres.isNone || b.gres == (s.sch sch).owner) && s.bmRights (s.schSag sch) g then none
          else some .protectionCheck)
      fun s c =>
        let g := s.moveOf sch c
        let b := s.bm g.chan
        if b.failed then s.ccwFail sch c .repairExhausted
        else
          let s := s.await sch (.move g.chan)
          (s.setBm g.chan { b with waiters := b.waiters ++ [(sch, g)] }).bmNext g.chan

end Sys2Proof.Machine
end

