-- ==== Sys2Proof/Machine/RepairOps.lean ====
section
/-! DEFINITION. Spares (R371 to R373, R385): margins, retirement and replacement of units, the spare rows and folios, the events
of Table 15.5 and the queue of repair records (R389, R390). Physical units are numbered by their entry in the REPAIR table
(R391). -/

namespace Sys2Proof.Machine

/-! ### Units and margins -/

/-- The first REPAIR entry of a class of units, and the number of its physical units (R391). -/
def classBase (c : Nat) : Nat := if c = 0 then 0 else if c = 1 then 36 else if c = 2 then 54 else 59
def classSize (c : Nat) : Nat := if c = 0 then 36 else if c = 1 then 18 else if c = 2 then 5 else 52

/-- The entries of a class. -/
def classEntries (c : Nat) : List Nat := (List.range (classSize c)).map (· + classBase c)

/-- A local-store subarray. -/
def State.subarray (s : State) (i : Nat) : Subarray := s.health.subs.get {} i
def State.setSubarray (s : State) (i : Nat) (x : Subarray) : State :=
  s.updHealth fun h => { h with subs := h.subs.set {} i x }

/-- The margin of a class (R371): spares neither retired nor active; it reads 0 until bisque sets it (R393). -/
def State.margin (s : State) (c : Nat) : Nat :=
  if c = 5 then s.jrn.spare
  else if c = 4 then (List.range 256).foldl (fun n i => n + (s.subarray i).spares) 0
  else ((classEntries c).filter fun e => (s.unit e).state == .spare || (s.unit e).state == .testing).length

/-- The physical unit that serves a logical number. -/
def State.unitOf (s : State) (c logical : Nat) : Option Nat :=
  (classEntries c).find? fun e => (s.unit e).state == .active && (s.unit e).logical == logical

/-- The spares that have passed their latest test. -/
def State.testedSpares (s : State) (c : Nat) : List Nat :=
  (classEntries c).filter fun e => (s.unit e).state == .spare && (s.unit e).tested

/-- The spare to use: tested, and a spare the longest (R375). -/
def State.nextSpare (s : State) (c : Nat) : Option Nat :=
  (sortBy (fun e => (s.unit e).spareSince) (s.testedSpares c)).head?

/-! ### Records and events -/

/-- The 64 bytes of a repair record (Table 15.7). -/
def recordBytes (seq : Nat) (frame : Word) (stime : DWord) (kind cls cause logical phys margin detail loc : Nat) : List Byte :=
  let body := leBytes 4 seq ++ leBytes 4 frame.toNat ++ leBytes 8 stime.toNat ++ leBytes 1 kind ++ leBytes 1 cls ++ leBytes 1 cause ++
    [0] ++ leBytes 2 logical ++ leBytes 2 phys ++ leBytes 4 margin ++ leBytes 4 detail ++ leBytes 8 loc ++ zeros 20
  body ++ leBytes 4 (crc32 body).toNat

/-- Queue a repair record; a full buffer counts it (R390). -/
def State.record (s : State) (kind cls cause logical phys detail loc : Nat) : State :=
  if 256 ≤ s.health.recBuf.length then s.updHealth fun h => { h with recLost := h.recLost + 1 }
  else
    let margin := if cls < 6 then s.margin cls else 0
    let r := recordBytes s.health.recSeq s.kiln.frame s.stime kind cls cause logical phys margin detail loc
    s.updHealth fun h => { h with recBuf := h.recBuf ++ [r], recSeq := (h.recSeq + 1) % 2 ^ 32 }

/-- A margin went down: MARGIN_DEC (R388). -/
def State.marginDec (s : State) (c info : Nat) : State := s.raise 0 0x0200 c (min 65535 (s.margin c)) (w32 info)

/-- A class has no margin left for a fault: FAILMAP, UNIT_FAILED and the record (R385). `loc`: of a row or a folio, the physical
one, which only the record shows (R12, Table 15.7). -/
def State.classFailed (s : State) (c logical cause loc : Nat) : State :=
  let s := s.updHealth fun h => { h with failMap := setBit h.failMap c true }
  let s := s.raiseF 0 0x0201 c logical
  s.record 6 c cause logical 0xFFFF 0 loc

/-- A unit is retired; the logical number it served is left without a unit (R373). -/
def State.retire (s : State) (e : Nat) : State :=
  let u := s.unit e
  s.setUnit e { u with state := .retired, logical := 0xFF, tested := false, last := if u.state == .active then u.logical else u.last }

/-- The unit that serves a logical number faults: it is retired, and a spare takes its place; with none left the logical resource
fails (R373, R385). Answers whether a spare took its place. -/
def State.faultUnit (s : State) (c logical cause : Nat) : Bool × State :=
  match s.unitOf c logical with
  | none => (false, s)
  | some e =>
    let s := s.setUnit e { s.unit e with faults := sat16 (s.unit e).faults }
    let s := s.retire e
    let phys := e - classBase c
    match s.nextSpare c with
    | some r =>
      let s := s.setUnit r { s.unit r with state := .active, logical }
      let s := s.record 4 c cause logical phys 0 0
      (true, s.marginDec c phys)
    | none =>
      let s := s.record 4 c cause logical phys 0 0
      (false, s.classFailed c logical cause 0)

/-! ### Rows and folios -/

/-- A row of local store is copied to a spare row of its subarray; with none left its page is retired (R383, R385). The
class's logical units are its subarrays (Table 15.1), so UNIT_FAILED names the subarray. `a`: a physical address of the row. A page
that a held completion of ALLOC_PAGES will map counts as its owner's. -/
def State.spareRow (s : State) (a cause : Nat) : State :=
  let i := a / 65536
  let row := a / 128
  let x := s.subarray i
  if 0 < x.spares then
    let s := s.setSubarray i { x with spares := x.spares - 1 }
    let s := s.record 5 4 cause 0xFFFF 0xFFFF 0 row
    s.marginDec 4 row
  else
    let again := s.ls.retiring.contains (a / 4096) || decide (s.ls.pages.get PageState.free (a / 4096) = PageState.retired)
    let s := if again then s else s.setSubarray i { x with retired := min 16 (x.retired + 1) }
    let due := s.fns.any fun e => e.2.heldAdmin.isSome && (e.2.pagesWait.getD []).contains (a / 4096)
    let free := decide (s.ls.pages.get PageState.free (a / 4096) = PageState.free) && !due
    let s := { s with ls := { s.ls with
        pages := if free then s.ls.pages.set PageState.free (a / 4096) PageState.retired else s.ls.pages
        retiring := if free || s.ls.retiring.contains (a / 4096) then s.ls.retiring else s.ls.retiring ++ [a / 4096] } }
    s.classFailed 4 i cause row

/-- Folio `logical` of a namespace is moved to a spare folio (R308, R309); its physical number, which no command shows, is a free
value. With no spare left it stays in service, and a folio of no namespace leaves the pool (Table 15.4); UNIT_FAILED names the low 16
bits of the folio's number in its namespace (DESIGN CHOICE, log entry 87). -/
def State.remapFolio (s : State) (logical : Nat) (inUse : Bool) : State :=
  let (p, s) := s.draw
  let folio := p.toNat % 2 ^ 21
  if 0 < s.jrn.spare then
    let s := s.updJrn fun j => { j with spare := j.spare - 1, remaps := j.remaps + 1, lastOp := s.clk }
    let s := s.record 5 5 9 0xFFFF 0xFFFF 0 folio
    s.marginDec 5 folio
  else
    let s := if inUse then s else s.updJrn fun j => { j with lostFolios := j.lostFolios + 1 }
    s.classFailed 5 (logical % 65536) 9 folio

end Sys2Proof.Machine
end

