-- ==== Sys2Proof/Machine/Sha256.lean ====
section
/-! DEFINITION. SHA-256 (FIPS 180-4), in which the chain of a SEALED namespace is formed (R296, R297). Digests are byte strings,
byte 0 first. -/

namespace Sys2Proof.Machine

/-- The first 64 primes, all below 312: no smaller prime up to 17 divides them. -/
def shaPrimes : List Nat :=
  (List.range 312).filter fun p => decide (2 ≤ p) && ([2, 3, 5, 7, 11, 13, 17] : List Nat).all fun d => p == d || p % d != 0

/-- The largest `e`-th root of at most `x` that keeps the bits of `r` and sets some of the lowest `n`. -/
def rootBits (e x : Nat) : Nat → Nat → Nat
  | 0, r => r
  | n + 1, r => rootBits e x n (if (r + 2 ^ n) ^ e ≤ x then r + 2 ^ n else r)

/-- The first 32 bits of the fractional part of the `e`-th root of `p`. -/
def rootFrac (e p : Nat) : Word := BitVec.ofNat 32 (rootBits e (p * 2 ^ (32 * e)) 36 0)

/-- The round constants: from the cube roots of the first 64 primes (FIPS 180-4, 4.2.2). -/
def shaK : List Word := shaPrimes.map (rootFrac 3)

/-- The initial hash value: from the square roots of the first eight primes (FIPS 180-4, 5.3.3). -/
def shaH : List Word := (shaPrimes.take 8).map (rootFrac 2)

/-- The sum mod 2 of a word rotated right by each of some distances (the functions of FIPS 180-4, 4.1.2). -/
def rotSum (x : Word) (ns : List Nat) : Word := ns.foldl (fun acc n => acc ^^^ x.rotateRight n) 0

/-- Ch: each bit of `x` chooses that of `y` or of `z`. -/
def shaCh (x y z : Word) : Word := z ^^^ (x &&& (y ^^^ z))

/-- Maj: the bit that two of the three words hold. -/
def shaMaj (x y z : Word) : Word := (x &&& (y ||| z)) ||| (y &&& z)

/-- Big-endian words of bytes. -/
def beWords : Nat → List Byte → List Word
  | 0, _ => []
  | n + 1, bs => BitVec.ofNat 32 (((bs.take 4).foldl (fun v b => v * 256 + b.toNat) 0)) :: beWords n (bs.drop 4)

/-- The four big-endian bytes of a word. -/
def beBytes (w : Word) : List Byte := [(w >>> 24).setWidth 8, (w >>> 16).setWidth 8, (w >>> 8).setWidth 8, w.setWidth 8]

/-- The message schedule, newest word first: `n` more words. -/
def shaSched : Nat → List Word → List Word
  | 0, ws => ws
  | n + 1, ws => shaSched n ((ws.getD 15 0 + ws.getD 6 0 + small (ws.getD 14 0) 7 18 3 + small (ws.getD 1 0) 17 19 10) :: ws)
where
  /-- The schedule's own functions: two rotations and a shift. -/
  small (x : Word) (r1 r2 sh : Nat) : Word := rotSum x [r1, r2] ^^^ (x >>> sh)

/-- One round on the eight working words. -/
def shaRound (v : List Word) (kw : Word × Word) : List Word :=
  match v with
  | [a, b, c, d, e, f, g, h] =>
    let step := kw.1 + kw.2 + h + rotSum e [6, 11, 25] + shaCh e f g
    [step + rotSum a [2, 13, 22] + shaMaj a b c, a, b, c, step + d, e, f, g]
  | v => v

/-- One block of 64 bytes. -/
def shaBlock (h : List Word) (block : List Byte) : List Word :=
  let ws := (shaSched 48 (beWords 16 block).reverse).reverse
  List.zipWith (· + ·) h ((shaK.zip ws).foldl shaRound h)

/-- The blocks of a padded message. -/
def shaBlocks : Nat → List Word → List Byte → List Word
  | 0, h, _ => h
  | n + 1, h, bs => shaBlocks n (shaBlock h (bs.take 64)) (bs.drop 64)

/-- SHA-256 of a byte string. -/
def sha256 (bs : List Byte) : List Byte :=
  let n := bs.length
  let k := (119 - n % 64) % 64
  let m := bs ++ [0x80] ++ zeros k ++ (leBytes 8 (8 * n)).reverse
  (shaBlocks (m.length / 64) shaH m).flatMap beBytes

end Sys2Proof.Machine
end

