-- ==== Sys2Proof/Machine/JournalOps.lean ====
section
/-! DEFINITION. The journal store's machinery (chapter 12): folios and chains (R284 to R289, R296, R297), the checks of R292, the
reading of buffers, the engines (R329), the array with its ranks (R301) and power states (R306), and the end of a job. -/

namespace Sys2Proof.Machine

/-! ### Folios -/

/-- The place of a namespace's folio in the store. -/
def folioKey (nsid i : Nat) : Nat := 2097152 * nsid + i
def State.folioAt (s : State) (nsid i : Nat) : Option Folio := s.jrn.folios.get none (folioKey nsid i)
def State.setFolio (s : State) (nsid i : Nat) (f : Option Folio) : State :=
  s.updJrn fun j => { j with folios := j.folios.set none (folioKey nsid i) f }

/-- Make a run of folios unwritten (R286). -/
def State.clearFolios (s : State) (nsid i n : Nat) : State :=
  s.updJrn fun j => { j with folios := j.folios.clearRange (folioKey nsid i) n }

/-- The written folios of a namespace. -/
def State.writtenIn (s : State) (nsid : Nat) : Nat :=
  (s.jrn.folios.filter fun e => decide (folioKey nsid 0 ≤ e.1) && decide (e.1 < folioKey (nsid + 1) 0)).length

/-- The genesis value G (R296). -/
def State.genesis (s : State) (nsid : Nat) : List Byte :=
  sha256 (leBytes 8 s.dev.uid.toNat ++ leBytes 4 nsid ++ leBytes 8 (s.ns nsid).createStime.toNat ++ zeros 12)

/-- The head of a namespace's chain (R297). -/
def State.headOf (s : State) (nsid : Nat) : List Byte := if (s.ns nsid).seq = 0 then s.genesis nsid else (s.ns nsid).head

/-- The chain value of folio `i` after the value `h` (R297). -/
def chainStep (h : List Byte) (i : Nat) (tag data : List Byte) : List Byte := sha256 (h ++ leBytes 8 i ++ tag ++ data)

/-- The chained folios of an append from count `i` on. -/
def chained : List Byte → Nat → List Folio → List Folio
  | _, _, [] => []
  | h, i, f :: rest =>
    let c := chainStep h i f.tag f.data
    { f with chain := c } :: chained c (i + 1) rest

/-- Cut bytes into folios, the last one padded with zeros; `n` folios. -/
def cutFolios : Nat → List Byte → List Byte → List Folio
  | 0, _, _ => []
  | n + 1, tag, bs => { data := padTo 4096 bs, tag, chain := [] } :: cutFolios n (zeros 32) (bs.drop 4096)

/-- Visible folios in no namespace and not being zeroed (Table 12.5). -/
def State.jrnFree (s : State) : Nat :=
  1048576 - s.jrn.lostFolios - s.nss.foldl (fun n e => if e.1 = 0 then n else if e.2.exist || e.2.zeroing then n + e.2.nfol else n) 0

/-- The folio index of the k-th appended folio (Table 12.1). -/
def Ns.place (x : Ns) (k : Nat) : Nat := if x.type == .ring && x.nfol != 0 then k % x.nfol else k

/-- Why an append of `n` folios does not fit (R288, R289). -/
def Ns.unfit (x : Ns) (n : Nat) : Option Status :=
  if x.nfol < n then some .jrnOutOfRange
  else if x.closed then some .jrnFull
  else if x.type == .sealed && decide (x.nfol < x.seq + n) then some .jrnFull
  else none

/-! ### Jobs -/

def State.job? (s : State) (id : Nat) : Option Job := s.jrn.jobs.find? fun j => j.id == id
def State.updJob (s : State) (id : Nat) (f : Job → Job) : State :=
  s.updJrn fun j => { j with jobs := j.jobs.map fun x => if x.id == id then f x else x }

/-- RESULT (R124). -/
def State.jobResult (s : State) (j : Job) (ok : Bool) : Word :=
  let folio := if ok && (j.opc == 0x42) then (s.ns j.nsid).place j.first % 2 ^ 24 else 0
  w32 folio ||| putB 24 j.unwritten ||| s.sealedBit j.nsid ||| putB 26 j.rawFall

/-- The queue of a journal entry. -/
def qref : QueueId → QRef
  | .sq n => .sq n
  | .admin _ => .shp
  | .shp => .shp

/-- A JAPPEND's CCW ends with a status; its RES word was written (R75, R108). -/
def State.jappendDone (s : State) (n : Nat) (st : Status) : State :=
  let x := s.sch n
  let c := (x.cur).getD { op := 0x20, flags := 0, tgt := 0, count := 0, addr := 0 }
  s.ccwDone n c st (x.nextPc x.curPc)

/-- RES of a JAPPEND: the first folio assigned and the flags (R75, R124). Where its page has been unmapped or program-locked since the
dispatch, of which the spec says nothing, RES is not written and the JAPPEND ends as it would have (DESIGN CHOICE, log entry 89). -/
def State.putRes (s : State) (j : Job) : State :=
  let flags := s.jobResult j false
  let bs := leBytes 4 ((s.ns j.nsid).place j.first) ++ leBytes 4 flags.toNat
  if j.orphan || (s.checkWrite j.sag j.res 8).isSome then s else s.memWrite j.sag j.res bs

/-- Report the end of a job to who asked it. -/
def State.report (s : State) (j : Job) (st : Status) : State :=
  if j.orphan then s
  else match j.who with
    | .entry q eid =>
      let r := s.jobResult j (st == .ok)
      (s.updEntry (qref q) eid fun e => { e with result := r }).endEntry (qref q) eid st
    | .jappend sch =>
      let s := if st == .ok then s.putRes j else s
      s.jappendDone sch (j.forced.getD st)
    | .zero _ | .record | .scrub => s

/-- Move the folios that showed too many corrected bits, after the command that found them (R308). -/
def State.remapMany (s : State) (folios : List Nat) (inUse : Bool) : State := folios.foldl (fun s f => s.remapFolio f inUse) s

/-- The serial number of a job's fetch, or of its dispatch. -/
def State.jobFetch (s : State) (j : Job) : Nat :=
  match j.who with
  | .entry q eid => (((s.entries (qref q)).find? fun e => e.eid == eid).map Entry.fetchSeq).getD j.seq
  | _ => j.seq

/-- A FLUSH must still wait: a command or JAPPEND of its saggar that names its namespaces, fetched or dispatched before the FLUSH
was fetched, has not completed (R295). -/
def State.flushHeld (s : State) (f : Job) : Bool :=
  let t := s.jobFetch f
  let names (nsid : Nat) : Bool := f.nsid == 0xFFFFFFFF || nsid == f.nsid
  let early (es : List Entry) : Bool :=
    es.any fun e => e.kind == .journal && e.phase == .waiting && decide (e.fetchSeq < t) && names e.jrn.nsid
  (s.jrn.jobs.any fun j => j.id != f.id && decide (s.jobFetch j < t) && j.sag == f.sag && names j.nsid &&
      (match j.who with | .entry _ _ | .jappend _ => true | _ => false)) ||
    (s.sqs.any fun e => e.2.fn == f.sag && early e.2.entries) || (s.shp.sag == f.sag && early s.shp.entries)

/-- FLUSHes whose earlier commands have all ended complete (R295). -/
def State.flushDone (s : State) : State :=
  (sortBy (fun f => match f.who with | .entry q _ => (qref q).order | _ => 0) (s.jrn.jobs.filter fun f => f.opc == 0x43 && !s.flushHeld f)).foldl
    (fun s f => ((s.updJrn fun x => { x with jobs := x.jobs.filter fun y => y.id != f.id }).report f .ok)) s

/-- A job ends. -/
def State.endJob (s : State) (j : Job) (st : Status) : State :=
  let s := s.updJrn fun x => { x with jobs := x.jobs.filter fun y => y.id != j.id, cur := if x.cur == some j.id then none else x.cur }
  ((s.report j st).remapMany j.remaps true).flushDone

/-! ### The array: power states and ranks (R301, R306) -/

/-- A program of an admitted G queue contains a JAPPEND: the cap of R307. -/
def State.jrnCap (s : State) : Bool := s.admitted.any fun a => a.jappend != 0

/-- The exit latency of a power state, ns (Table 12.4). -/
def exitNs (ps : Nat) : Nat := if ps = 1 then 3000 else if ps = 2 then 120000 else 0

/-- Begin the exit of JPS1 or JPS2. -/
def State.jrnExit (s : State) : State :=
  let j := s.jrn
  if j.ps = 0 || j.exitAt.isSome then s
  else s.updJrn fun j => { j with exitAt := some (s.clk + exitNs j.ps), wakes := if j.ps = 2 then sat16 j.wakes else j.wakes }

/-- A job becomes ready for the media; one that meets the array in JPS2 is counted while a frame runs (R306, R36). -/
def State.jobReady (s : State) (id : Nat) : State :=
  let s := s.tick1
  let s := s.updJob id fun j => { j with ready := true, readySeq := s.serial, readyAt := s.clk }
  if s.jrn.ps = 2 && s.kiln.frameRuns then s.updKiln fun k => { k with accJwake := sat32 k.accJwake } else s

/-- An append takes its folios: the next counts, and the chain over them (R288, R297, R303). -/
def State.takeFolios (s : State) (j : Job) : State :=
  let x := s.ns j.nsid
  let fs := if x.type == .sealed then chained (s.headOf j.nsid) x.seq j.news else j.news
  let head := match fs.getLast? with | some f => if x.type == .sealed then f.chain else [] | none => x.head
  let s := s.updJob j.id fun y => { y with took := true, first := x.seq, news := fs, old := [], oldHead := x.head }
  s.setNs j.nsid { x with seq := x.seq + fs.length, head }

/-- An append writes its folio number `k`; what the place held before is kept until the append ends (R285). -/
def State.appendFolio (s : State) (j : Job) (k : Nat) : Job × State :=
  let p := (s.ns j.nsid).place (j.first + k)
  ({ j with old := j.old ++ [s.folioAt j.nsid p] }, s.setFolio j.nsid p (j.news[k]?))

/-- Undo the write of an append's folio number `k`, which held `o` before: in the store, or, where another append in progress has
written the place since, in what that one keeps. -/
def State.unwrite (s : State) (j : Job) (k : Nat) (o : Option Folio) : State :=
  let x := s.ns j.nsid
  let p := x.place (j.first + k)
  let mine := j.news[k]?
  let s := if s.folioAt j.nsid p == mine then s.setFolio j.nsid p o else s
  s.updJrn fun y => { y with jobs := y.jobs.map fun z =>
    if z.took && z.nsid == j.nsid && z.id != j.id then
      { z with old := z.old.zipIdx.map fun e => if x.place (z.first + e.2) == p && e.1 == mine then o else e.1 }
    else z }

/-- Undo everything that an append in progress has written. -/
def State.unwriteAll (s : State) (id : Nat) : State :=
  match s.job? id with
  | none => s
  | some j => j.old.zipIdx.reverse.foldl (fun s e => s.unwrite j e.2 e.1) s

/-- The appends in progress that took folios of the namespace after `j`, in that order. -/
def State.takenAfter (s : State) (j : Job) : List Job :=
  sortBy Job.first (s.jrn.jobs.filter fun y => y.took && y.nsid == j.nsid && decide (j.first < y.first))

/-- A journal job can end without effect: its media access has not begun (R153, R304, R305). An append that another one of its
namespace has overtaken at the media has its folios already (R303): it gives them back while every later append is still in progress
and no SEAL has counted it; after that it runs to its end (DESIGN CHOICE, log entry 89). -/
def State.revocable (s : State) (j : Job) : Bool :=
  let x := s.ns j.nsid
  !j.begun && (!j.took ||
    (!x.closed && x.seq == (s.takenAfter j).foldl (fun n y => n + y.news.length) (j.first + j.news.length)))

/-- An append in progress takes its folios anew, and what it had written moves with it. -/
def State.retake (s : State) (id : Nat) : State :=
  match s.job? id with
  | none => s
  | some j =>
    let n := j.old.length
    let s := s.takeFolios j
    match s.job? id with
    | none => s
    | some j =>
      let (j, s) := (List.range n).foldl (fun (a : Job × State) k => a.2.appendFolio a.1 k) (j, s)
      s.updJob id fun _ => j

/-- A job that can end without effect is gone: its folios go to the appends after it. -/
def State.cancelJob (s : State) (id : Nat) : State :=
  match s.job? id with
  | none => s
  | some j =>
    let later := (s.takenAfter j).map Job.id
    let s := s.updJrn fun y => { y with jobs := y.jobs.filter fun z => z.id != id }
    if !j.took then s
    else
      let s := later.reverse.foldl (fun s i => s.unwriteAll i) s
      later.foldl (fun s i => s.retake i) (s.setNs j.nsid { s.ns j.nsid with seq := j.first, head := j.oldHead })

/-- A ZERO_RANGE makes its folios unwritten; for an append in progress they were unwritten before it (R286, R303). -/
def State.zeroRange (s : State) (nsid i n : Nat) : State :=
  let x := s.ns nsid
  (s.clearFolios nsid i n).updJrn fun y => { y with jobs := y.jobs.map fun z =>
    if z.took && z.nsid == nsid then
      { z with old := z.old.zipIdx.map fun e => if decide (i ≤ x.place (z.first + e.2) ∧ x.place (z.first + e.2) < i + n) then none else e.1 }
    else z }

/-- The next folio of a VERIFY on a LINEAR or RING namespace that is written; `k` bounds the search (R299). -/
def State.skipUnwritten (s : State) (j : Job) : Nat → Job
  | 0 => j
  | k + 1 =>
    if j.opc == 0x47 && (s.ns j.nsid).type != .sealed && decide (j.pos < j.total) && (s.folioAt j.nsid (j.folio + j.pos)).isNone then
      State.skipUnwritten s { j with pos := j.pos + 1, unwritten := true } k
    else j

/-- A job writes folios. -/
def Job.writes (j : Job) : Bool := j.opc == 0x41 || j.opc == 0x42 || j.opc == 0

/-- The order in which appends became ready for the media; in one cycle a JAPPEND of a G program comes first, then the lower SQ
number, then the slim host port (R303, Table 12.7). -/
def State.readyKey (s : State) (j : Job) : Nat :=
  let order := match j.who with
    | .jappend n => if j.rank = 0 then 0 else 1 + ((s.sch n).owner.map QRef.order).getD 0
    | .entry q _ => 1 + (qref q).order
    | _ => 0
  (1024 * j.readyAt + order) * 2 ^ 64 + j.readySeq

/-- The job the array takes next: by step, then the JAPPEND of a G program that became ready first, or the command that began
first (R301). -/
def State.nextJob (s : State) : Option Job :=
  (sortBy (fun (j : Job) => j.rank * 2 ^ 256 + (if j.rank = 0 then s.readyKey j else j.seq))
    (s.jrn.jobs.filter fun j => j.ready && decide (j.pos < j.total))).head?

/-- The append of the namespace that takes its folios next when `j` begins its media writes: coded appends whose check ended before
go first; an uncoded one becomes ready with its first write (R303). -/
def State.nextTaker (s : State) (j : Job) : Option Job :=
  if j.opc != 0x42 || j.took then none
  else
    let before (y : Job) : Bool := y.opc == 0x42 && y.coding != 0 && y.ready && !y.took && y.nsid == j.nsid &&
      (j.coding == 0 || decide (s.readyKey y < s.readyKey j))
    some (((sortBy s.readyKey (s.jrn.jobs.filter before)).head?).getD j)

/-- The array takes its next folio operation; `k` bounds the jobs that end without one. -/
def State.arrayNext (s : State) : Nat → State
  | 0 => s
  | k + 1 =>
    if s.jrn.cur.isSome then s
    else match s.nextJob with
      | none => s
      | some j =>
        if s.jrn.ps ≠ 0 || s.jrn.exitAt.isSome then s.jrnExit
        else
          let v := s.skipUnwritten j (j.total - j.pos)
          if v.total ≤ v.pos then State.arrayNext (s.endJob v .ok) k
          else
            match s.nextTaker j with
            | some y =>
              match (s.ns y.nsid).unfit y.news.length with
              | some st => State.arrayNext (s.endJob y st) k
              | none => State.arrayNext (s.takeFolios y) k
            | none =>
              let s := s.updJob j.id fun _ => { v with begun := true }
              s.updJrn fun x => { x with cur := some j.id, opEnd := s.clk + (if j.writes then 2560 else 1280) }

/-- A bound for `arrayNext`: a job takes its folios, ends or begins. -/
def State.arrayFuel (s : State) : Nat := 2 * s.jrn.jobs.length + 1
def State.array (s : State) : State := s.arrayNext s.arrayFuel

/-! ### Buffers -/

/-- The pieces of places [k, k + n) of a buffer. -/
def subPieces : List (DWord × Nat) → Nat → Nat → List (DWord × Nat)
  | [], _, _ => []
  | (a, len) :: rest, k, n =>
    if n = 0 then []
    else if len ≤ k then subPieces rest (k - len) n
    else
      let m := min n (len - k)
      (DWord.plus a k, m) :: subPieces rest 0 (n - m)

/-- The check of R292 step 6 on one piece; a program-locked destination is PROTECTION_CHECK. -/
def State.jrnPiece (s : State) (sag : Nat) (a : DWord) (n : Nat) (written : Bool) : Option Status :=
  if isLs a && lsResv a then some .addressCheck
  else if written then s.checkWrite sag a n else s.checkRange sag a n

/-- The first failing piece. -/
def State.jrnPieces (s : State) (sag : Nat) (ps : List (DWord × Nat)) (written : Bool) : Option Status :=
  ps.findSome? fun p => s.jrnPiece sag p.1 p.2 written

/-- The bytes that a command's buffer covers (Table 12.2). -/
def Job.bufBytes (j : Job) : Nat :=
  if j.opc == 0x40 || j.opc == 0x41 then 4096 * j.nfol
  else if j.opc == 0x42 then (if j.coding = 0 then 4096 * j.nfol else rawLen j.coding j.samples)
  else if j.opc == 0x46 then 128 + 64 * j.nfol
  else 0

/-- The buffer is a destination. -/
def Job.isDest (j : Job) : Bool := j.opc == 0x40 || j.opc == 0x46

/-- Take a list element of a command's buffer (R122, R53). -/
def Job.addElement (j : Job) (bs : List Byte) : Option Job :=
  let a : DWord := BitVec.ofNat 64 (leAt bs 0 8)
  let n := leAt bs 8 4
  if n = 0 || decide (2 ^ 24 < n) || leAt bs 12 4 ≠ 0 then none
  else
    let ps := j.pieces ++ [(a, n)]
    if j.bufBytes ≤ coverage ps then some { j with pieces := ps, listNext := none, elems := j.elems + 1 }
    else if 256 ≤ j.elems + 1 then none
    else some { j with pieces := ps, elems := j.elems + 1, listNext := j.listNext.map fun a => DWord.plus a 16 }

/-- Read a command's list, make the checks of steps 6 and 7 of R292 (a coded append takes at least one folio), read its source data
(of a coded append once an engine has it, R330), then hand the job on to the media. `k` bounds the pieces. -/
def State.jrnPrep (s : State) (id : Nat) : Nat → State
  | 0 => s
  | k + 1 =>
    match s.job? id with
    | none => s
    | some j =>
      match j.listNext with
      | some a =>
        if isLs a then
          if lsResv a || !s.lsMapped j.sag (lsOff a) 16 then s.endJob j .addressCheck
          else if s.lsPoisoned j.sag (lsOff a) 16 then s.endJob j .dataIntegrity
          else match j.addElement (s.lsRead j.sag (lsOff a) 16) with
            | some j' => State.jrnPrep (s.updJob id fun _ => j') id k
            | none => s.endJob j .addressCheck
        else if s.shpBound j.sag then s.endJob j .addressCheck
        else if (s.fn j.sag).busMaster then s.hostRead j.sag a 16 (.jrnList id)
        else s.endJob j .dataIntegrity
      | none =>
        match s.jrnPieces j.sag (subPieces j.pieces 0 j.bufBytes) j.isDest with
        | some st => s.endJob j st
        | none =>
          match (if j.opc == 0x42 then (s.ns j.nsid).unfit (if j.coding = 0 then j.nfol else 1) else none) with
          | some st => s.endJob j st
          | none =>
            if j.coding ≠ 0 && s.health.engines.isEmpty then s.endJob j .repairExhausted
            else if j.coding ≠ 0 && j.engine.isNone then s
            else if j.data.length < j.need then
              match subPieces j.pieces j.data.length (j.need - j.data.length) with
              | [] => s.endJob j .addressCheck
              | (a, n) :: _ =>
                if isLs a then
                  if s.lsPoisoned j.sag (lsOff a) n then s.endJob j .dataIntegrity
                  else State.jrnPrep (s.updJob id fun j => { j with data := j.data ++ s.lsRead j.sag (lsOff a) n }) id k
                else if (s.fn j.sag).busMaster then s.hostRead j.sag a n (.jrnData id)
                else s.endJob j .dataIntegrity
            else if j.opc == 0x42 && j.coding ≠ 0 then s
            else if j.opc == 0x41 || j.opc == 0x42 then
              (s.updJob id fun j => { j with news := cutFolios j.nfol (zeros 32) j.data, data := [] }).jobReady id
            else s.jobReady id

/-- A bound for `jrnPrep`: 256 elements, as many pieces. -/
def jrnFuel : Nat := 520

/-! ### Engines (R329, R330) -/

/-- The engines in service that hold no block. -/
def State.freeEngines (s : State) : List Nat :=
  s.health.engines.filter fun e => !(s.jrn.jobs.any fun j => j.engine == some e)

/-- The class of R329: 0 G, 1 W, 2 B. -/
def Job.engineRank (j : Job) : Nat := if j.rank = 0 then 0 else if j.rank = 2 then 1 else 2

/-- The blocks that wait for an engine, first in the order of R329. -/
def State.waitingBlocks (s : State) : List Job :=
  let order (j : Job) : Nat := match j.who with
    | .jappend n => n
    | .entry q _ => 256 + (qref q).order
    | _ => 0
  sortBy (fun (j : Job) => (((j.engineRank * 2 ^ 128 + j.askedAt) * 1024) + order j) * 2 ^ 64 + s.jobFetch j)
    (s.jrn.jobs.filter fun j => j.opc == 0x42 && j.coding ≠ 0 && !j.ready && j.engine.isNone && j.listNext.isNone)

/-- The samples of a JAPPEND, in the layout of an APPEND: channel after channel (R317). -/
def State.gather (s : State) (j : Job) : Except Status (List Byte) :=
  let run := j.samples * (fW j.coding / 8)
  let chans := (List.range (fNch j.coding)).map fun c => DWord.plus j.srcAddr (c * j.stride)
  match chans.findSome? fun a => if isLs a then s.jrnPiece j.sag a run false else some .addressCheck with
  | some st => .error st
  | none =>
    if chans.any fun a => s.lsPoisoned j.sag (lsOff a) run then .error .dataIntegrity
    else .ok (chans.flatMap fun a => s.lsRead j.sag (lsOff a) run)

/-- Free engines take waiting blocks; `k` bounds them. -/
def State.engines (s : State) : Nat → State
  | 0 => s
  | k + 1 =>
    match s.freeEngines, s.waitingBlocks with
    | e :: _, j :: _ =>
      match j.who with
      | .jappend _ =>
        match s.gather j with
        | .error st => State.engines (s.endJob j st) k
        | .ok bs => State.engines (s.updJob j.id fun x => { x with engine := some e, data := bs }) k
      | _ => State.engines ((s.updJob j.id fun x => { x with engine := some e }).jrnPrep j.id jrnFuel) k
    | _, _ => s

/-- With no engine left, coded work ends with REPAIR_EXHAUSTED (R385). -/
def State.noEngines (s : State) : State :=
  if s.health.engines.isEmpty then
    (s.jrn.jobs.filter fun j => j.opc == 0x42 && j.coding ≠ 0 && !j.ready && j.listNext.isNone).foldl (fun s j => s.endJob j .repairExhausted) s
  else s

/-- Everything the journal does at once: FLUSHes, engines, then the array. -/
def State.jrnWork (s : State) : State := (s.flushDone.noEngines.engines (s.jrn.jobs.length + 1)).array

/-- A list element of a journal command arrives from the host (R441). -/
def State.jrnGotElement (s : State) (id : Nat) (d : Option (List Byte)) : State :=
  match s.job? id with
  | none => s
  | some j =>
    match d with
    | none => (s.endJob j .dataIntegrity).jrnWork
    | some bs =>
      match j.addElement bs with
      | some j' => ((s.updJob id fun _ => j').jrnPrep id jrnFuel).jrnWork
      | none => (s.endJob j .addressCheck).jrnWork

/-- Source data of a journal command arrives from the host. -/
def State.jrnGotData (s : State) (id : Nat) (d : Option (List Byte)) : State :=
  match s.job? id with
  | none => s
  | some j =>
    match d with
    | none => (s.endJob j .dataIntegrity).jrnWork
    | some bs => ((s.updJob id fun j => { j with data := j.data ++ bs }).jrnPrep id jrnFuel).jrnWork

/-! ### Zeroing (R176) -/

/-- Zero a namespace that leaves saggar `was`: deleted, or kept for a new owner (R155, R178, R313). -/
def State.startZero (s : State) (nsid : Nat) (deleting : Bool) (was : Nat) : State :=
  let x := s.ns nsid
  let s := s.setNs nsid { x with zeroing := true, zeroFor := was, deleting, exist := x.exist && !deleting }
  let s := (s.clearFolios nsid 0 x.nfol).tick1
  (s.updJrn fun j => { j with
    nextJob := j.nextJob + 1
    jobs := j.jobs ++ [{
      id := j.nextJob, who := .zero nsid, sag := x.owner, rank := 1, opc := 0, nsid, folio := 0, nfol := x.nfol
      total := x.nfol, ready := true, seq := s.serial }] }).jrnWork

/-- The zeroing of a namespace has written all its folios: it is gone, or it is new (R176, R313). -/
def State.zeroNsDone (s : State) (nsid : Nat) : State :=
  match s.jrn.jobs.find? fun j => j.who == .zero nsid && decide (j.total ≤ j.pos) with
  | none => s
  | some j =>
    let x := s.ns nsid
    let s := s.updJrn fun y => { y with jobs := y.jobs.filter fun z => z.id != j.id }
    let s := s.remapMany j.remaps (!x.deleting)
    if x.deleting then s.setNs nsid {}
    else s.setNs nsid { x with zeroing := false, zeroFor := 0, closed := false, seq := 0, head := [], createStime := s.stime }

end Sys2Proof.Machine
end

