-- ==== Sys2Proof/Machine/Journal.lean ====
section
/-! DEFINITION. The journal's commands (chapter 12): storage commands, JAPPEND (R75), the ends of checks and folio operations,
power states, the scrub, and the journal registers (Table 12.5). -/

namespace Sys2Proof.Machine

/-! ### Checks (R290 to R292) -/

/-- What namespace 0 permits (R290). -/
def State.ns0Ok (s : State) (sag opc folio n : Nat) : Bool :=
  let x := s.ns 0
  sag == 0 &&
    (((opc == 0x40 || opc == 0x46 || opc == 0x47) && x.rd) ||
      ((opc == 0x41 || opc == 0x44) && x.imgWr && decide (folio + n ≤ 3584)) || (opc == 0x43 && x.imgWr))

/-- The namespace type accepts the opcode (Table 12.2). -/
def typeOk (t : NsType) (opc : Nat) : Bool :=
  if opc = 0x41 then t == .linear
  else if opc = 0x42 then t != .linear
  else if opc = 0x44 then t != .sealed
  else if opc = 0x45 then t == .sealed
  else true

/-- The fields of Table 12.2 that must be zero are zero, and a coding word obeys Table 13.2 (R291, R316). -/
def JrnFields.fieldsOk (f : JrnFields) : Bool :=
  let cod := f.coding == 0
  let buf := f.buf == 0
  if f.opc = 0x40 || f.opc = 0x41 || f.opc = 0x46 then cod
  else if f.opc = 0x42 then f.folio == 0 && (cod || codingOk f.coding)
  else if f.opc = 0x43 then f.folio == 0 && f.nfol == 0 && cod && buf
  else if f.opc = 0x45 then f.nfol == 0 && cod && buf
  else cod && buf

/-- Counts and folios within their ranges (R292 step 5). -/
def JrnFields.countOk (f : JrnFields) (x : Ns) : Bool :=
  let top := f.folio.toNat + f.nfol
  if f.opc = 0x40 || f.opc = 0x41 then decide (1 ≤ f.nfol ∧ f.nfol ≤ 256 ∧ top ≤ x.nfol)
  else if f.opc = 0x42 then (if f.coding = 0 then decide (1 ≤ f.nfol ∧ f.nfol ≤ 256) else samplesOk f.coding f.nfol)
  else if f.opc = 0x44 then decide (1 ≤ f.nfol ∧ top ≤ x.nfol)
  else if f.opc = 0x46 then decide (f.nfol ≤ 256 ∧ top ≤ x.nfol)
  else if f.opc = 0x47 then decide (1 ≤ f.nfol ∧ top ≤ (if x.type == .sealed then x.seq else x.nfol))
  else true

/-- The checks of R292 that need no buffer, in order. -/
def State.jrnCheck (s : State) (sag : Nat) (f : JrnFields) : Option Status :=
  if f.opc = 0x43 ∧ f.nsid = 0xFFFFFFFF then (if f.fieldsOk then none else some .programCheck)
  else
    let x := s.ns f.nsid
    if f.nsid < 1024 && x.zeroing then some .jrnZeroing
    else if 1024 ≤ f.nsid || !x.exist then some .jrnOutOfRange
    else if f.nsid = 0 && !s.ns0Ok sag f.opc f.folio.toNat f.nfol then some .refusedRights
    else if f.nsid ≠ 0 && (x.owner != sag || !(s.sag x.owner).en) then some .refusedRights
    else if !typeOk x.type f.opc then some (if (f.opc = 0x41 || f.opc = 0x44) && x.type == .sealed then .jrnSealed else .programCheck)
    else if !f.fieldsOk then some .programCheck
    else if !f.countOk x then some .jrnOutOfRange
    else none

/-! ### Starting a command -/

/-- The rank of a queue's journal work (R301). -/
def State.jrnRank (s : State) (q : QRef) : Nat := if s.qCls q == .b then 3 else 2

/-- The job of a journal entry. -/
def State.mkJob (s : State) (q : QueueId) (e : Entry) : Job :=
  let f := e.jrn
  let coded := f.opc == 0x42 && f.coding != 0
  let j : Job := {
    id := s.jrn.nextJob, who := .entry q e.eid, sag := s.qSag (qref q), rank := s.jrnRank (qref q), opc := f.opc, nsid := f.nsid
    folio := f.folio.toNat, nfol := f.nfol, coding := f.coding, samples := if coded then f.nfol else 0, firstStime := e.fetchStime, askedAt := e.fetchAt
    total := if f.opc = 0x46 then max 1 f.nfol else if coded then 0 else f.nfol, seq := s.serial }
  { j with
    pieces := if f.sgl || j.bufBytes = 0 then [] else [(f.buf, j.bufBytes)]
    listNext := if f.sgl && j.bufBytes ≠ 0 then some f.buf else none
    need := if f.opc = 0x41 || f.opc = 0x42 then j.bufBytes else 0 }

/-- A journal entry ends without effect: RESULT names a SEALED namespace (R291). -/
def State.refuseJrn (s : State) (q : QueueId) (e : Entry) (st : Status) : State :=
  ((s.updEntry (qref q) e.eid fun x => { x with result := s.sealedBit e.jrn.nsid }).endEntry (qref q) e.eid st).flushDone

/-- SEAL compares count and head (R298). -/
def State.sealNs (s : State) (q : QueueId) (e : Entry) : State :=
  let x := s.ns e.jrn.nsid
  if e.jrn.folio.toNat = x.seq && e.jrn.chain == s.headOf e.jrn.nsid then
    (s.setNs e.jrn.nsid { x with closed := true }).refuseJrn q e .ok
  else s.refuseJrn q e .jrnChainMismatch

/-- A journal entry that passed its checks begins its work. -/
def State.beginJrn (s : State) (q : QueueId) (e : Entry) : State :=
  let f := e.jrn
  if f.opc = 0x45 then s.sealNs q e
  else if f.opc = 0x44 then (s.zeroRange f.nsid f.folio.toNat f.nfol).refuseJrn q e .ok
  else
    let s := s.tick1
    let j := s.mkJob q e
    let s := s.updEntry (qref q) e.eid fun x => { x with phase := .begun }
    let s := s.updJrn fun x => { x with nextJob := x.nextJob + 1, jobs := x.jobs ++ [j] }
    if f.opc = 0x43 then s.flushDone else (s.jrnPrep j.id jrnFuel).jrnWork

/-- Run the queue's oldest waiting journal entry if it is of the opcode (R292). -/
def State.jrnCommand (s : State) (q : QueueId) (opc : Nat) : State :=
  match (s.entries (qref q)).find? fun e => e.kind == .journal && e.phase == .waiting with
  | none => s
  | some e =>
    if (match q with | .admin _ => true | _ => false) || e.jrn.opc != opc then s
    else match s.jrnCheck (s.qSag (qref q)) e.jrn with
      | some st => s.refuseJrn q e st
      | none => s.beginJrn q e

/-- READ copies folios to a buffer (R293). -/
def execJrnRead (q : QueueId) (s : State) : Out := act (.jrnRead q) s fun s => s.jrnCommand q 0x40

/-- WRITE copies a buffer into a LINEAR namespace (R293). -/
def execJrnWrite (q : QueueId) (s : State) : Out := act (.jrnWrite q) s fun s => s.jrnCommand q 0x41

/-- APPEND appends folios or a coded block (R294). -/
def execAppend (q : QueueId) (s : State) : Out := act (.append q) s fun s => s.jrnCommand q 0x42

/-- FLUSH completes after the earlier commands of the saggar (R295). -/
def execJrnFlush (q : QueueId) (s : State) : Out := act (.jrnFlush q) s fun s => s.jrnCommand q 0x43

/-- ZERO_RANGE makes its folios unwritten (R293). -/
def execZeroRange (q : QueueId) (s : State) : Out := act (.zeroRange q) s fun s => s.jrnCommand q 0x44

/-- SEAL closes a SEALED namespace (R298). -/
def execSeal (q : QueueId) (s : State) : Out := act (.seal q) s fun s => s.jrnCommand q 0x45

/-- INFO writes a namespace's block and folio records (R300). -/
def execInfo (q : QueueId) (s : State) : Out := act (.info q) s fun s => s.jrnCommand q 0x46

/-- VERIFY recomputes chain values or checks ECC (R299). -/
def execVerify (q : QueueId) (s : State) : Out := act (.verify q) s fun s => s.jrnCommand q 0x47

/-! ### JAPPEND (R75) -/

/-- The checks of a JAPPEND's namespace (R75, R290, R292). -/
def State.jappendNs (s : State) (sag nsid : Nat) : Option Status :=
  let x := s.ns nsid
  if nsid = 0 then some .protectionCheck
  else if nsid < 1024 && x.zeroing then some .jrnZeroing
  else if 1024 ≤ nsid || !x.exist then some .jrnOutOfRange
  else if x.owner != sag then some .protectionCheck
  else if x.type == .linear then some .programCheck
  else if x.closed then some .jrnFull
  else none

/-- The descriptor of a JAPPEND. -/
def State.jappendDesc (s : State) (n : Nat) (c : Ccw) : List Byte := s.lsRead (s.schSag n) (lsOff c.addr) 32

/-- Step 2 on the descriptor: the coding word and its limits (R316). -/
def jappendOk (d : List Byte) : Bool :=
  codingOk (w32 (leAt d 4 4)) && samplesOk (w32 (leAt d 4 4)) (leAt d 16 4) &&
    !(isLs (BitVec.ofNat 64 (leAt d 24 8)) && lsResv (BitVec.ofNat 64 (leAt d 24 8)))

/-- JAPPEND hands a coding job to an engine and waits until its block is on the media (R75). -/
def execCcwJappend (sch : Nat) (s : State) : Out :=
  act (.ccwJappend sch) s fun s =>
    s.dispatch sch 0x20
      (fun s c => c.count == 32 && !(isLs c.addr && lsResv c.addr) &&
        (!s.descAt (s.schSag sch) c.addr || s.lsPoisoned (s.schSag sch) (lsOff c.addr) 32 || jappendOk (s.jappendDesc sch c)))
      (fun s c =>
        if !s.descAt (s.schSag sch) c.addr then some .addressCheck
        else if s.lsPoisoned (s.schSag sch) (lsOff c.addr) 32 then none
        else
          let a : DWord := BitVec.ofNat 64 (leAt (s.jappendDesc sch c) 24 8)
          if fld a 0 3 ≠ 0 then some .addressCheck else s.checkRange (s.schSag sch) a 8)
      (fun s c =>
        if s.lsPoisoned (s.schSag sch) (lsOff c.addr) 32 then some .dataIntegrity
        else
          let d := s.jappendDesc sch c
          match s.jappendNs (s.schSag sch) (leAt d 0 4) with
          | some st => some st
          | none => s.checkWrite (s.schSag sch) (BitVec.ofNat 64 (leAt d 24 8)) 8)
      fun s c =>
        let d := s.jappendDesc sch c
        if s.health.engines.isEmpty then s.ccwFail sch c .repairExhausted
        else
          let s := s.tick1
          let id := s.jrn.nextJob
          let rank := match s.schCls sch with | .g => 0 | .w => 2 | .b => 3
          let j : Job := {
            id, who := .jappend sch, sag := s.schSag sch, rank, opc := 0x42, nsid := leAt d 0 4, folio := 0, nfol := 0
            coding := w32 (leAt d 4 4), srcAddr := BitVec.ofNat 64 (leAt d 8 8), samples := leAt d 16 4, stride := leAt d 20 4
            res := BitVec.ofNat 64 (leAt d 24 8), firstStime := s.stime, askedAt := s.clk, seq := s.serial }
          let s := s.updJrn fun x => { x with nextJob := x.nextJob + 1, jobs := x.jobs ++ [j] }
          (s.await sch (.jappend id)).jrnWork

/-! ### Ends -/

/-- FLEOST_CHECK_END (R326 to R331, R381): a block is ready for the media; a rejected one retires its engine and restarts, to be
stored raw. -/
def execFleostCheckEnd (engine : Nat) (rejected : Bool) (s : State) : Out :=
  act (.fleostCheckEnd engine rejected) s fun s =>
    match s.jrn.jobs.find? fun j => j.engine == some engine with
    | none => s
    | some j =>
      if j.data.length < j.need then s
      else if rejected then
        let (ok, s) := s.faultUnit 2 engine 6
        let s := if ok then s else s.updHealth fun h => { h with engines := h.engines.filter (· != engine) }
        (s.updJob j.id fun x => { x with engine := none, rejected := true }).jrnWork
      else
        let b := codeBlock j.coding j.samples j.firstStime j.rejected j.data
        let n := ceilDiv b.payload.length 4096
        match (s.ns j.nsid).unfit n with
        | some st => (s.endJob j st).jrnWork
        | none =>
          let j := { j with
            engine := none, data := [], tag := b.header, rawFall := b.raw, total := n, news := cutFolios n b.header b.payload }
          ((s.updJob j.id fun _ => j).jobReady j.id).jrnWork

/-- Bytes 0 to 127 of INFO, and its records (Table 12.3). -/
def State.infoBytes (s : State) (j : Job) : List Byte :=
  let x := s.ns j.nsid
  let sealed := x.type == .sealed
  let head := leBytes 4 j.nsid ++ leBytes 1 x.type.num ++ leBytes 1 (b2n x.closed) ++
    leBytes 1 (if j.nsid = 0 then 0xFF else x.owner) ++ [0] ++ leBytes 4 x.nfol ++ leBytes 4 (x.nfol - s.writtenIn j.nsid) ++
    leBytes 8 x.seq ++ leBytes 8 x.createStime.toNat ++ leBytes 8 s.dev.uid.toNat ++ zeros 24 ++
    (if sealed then s.headOf j.nsid ++ s.genesis j.nsid else zeros 64)
  head ++ (List.range j.nfol).flatMap fun k =>
    match s.folioAt j.nsid (j.folio + k) with
    | some f => padTo 32 f.tag ++ (if sealed then padTo 32 f.chain else zeros 32)
    | none => zeros 64

/-- Deliver bytes to places [k, …) of a command's buffer; a page lost meanwhile ends the command. -/
def State.deliver (s : State) (j : Job) (k : Nat) (bs : List Byte) : Option Status × State :=
  match s.jrnPieces j.sag (subPieces j.pieces k bs.length) true with
  | some st => (some st, s)
  | none => (none, s.storePieces j.sag j.pieces k bs)

/-- The folio of a repair record (R389). -/
def recordFolio (seq : Nat) : Nat := 3600 + seq % 31744 / 64

/-- Put a record into its folio of namespace 0 and into HEALTH_LOG (R389, R390). -/
def State.putRecordAt (s : State) (r : List Byte) : State :=
  let seq := leAt r 0 4
  let i := recordFolio seq
  let f := (s.folioAt 0 i).getD { data := zeros 4096, tag := zeros 32, chain := [] }
  let s := s.setFolio 0 i (some { f with data := patch f.data (64 * (seq % 64)) r })
  s.updHealth fun h => { h with log := h.log.set [] (seq % 64) r }

/-- The oldest queued record is written; when space frees, the records lost are reported (R390). -/
def State.recordWritten (s : State) : State :=
  match s.health.recBuf with
  | [] => s
  | r :: rest =>
    let s := (s.putRecordAt r).updHealth fun h => { h with recBuf := rest }
    let lost := s.health.recLost
    if lost = 0 then s
    else
      let s := s.updHealth fun h => { h with recLost := 0 }
      (s.record 9 0xFF 0 0xFFFF 0xFFFF lost 0).raise 0 0x0207 0 0 (w32 lost)

/-- The folio operation of a job ends: what it does, and the status that ends the job early. -/
def State.folioEffect (s : State) (j : Job) (bad : Bool) : Option Status × Job × State :=
  let i := j.folio + j.pos
  if j.who == .record then (none, j, s.recordWritten)
  else if j.who == .scrub then (none, j, s)
  else if j.opc = 0x40 then
    if bad then (some .dataIntegrity, j, s)
    else
      let f := s.folioAt j.nsid i
      let (st, s) := if j.orphan then (none, s) else s.deliver j (4096 * j.pos) ((f.map Folio.data).getD (zeros 4096))
      (st, { j with unwritten := j.unwritten || f.isNone }, s)
  else if j.opc = 0x41 then (none, j, s.setFolio j.nsid i (j.news[j.pos]?))
  else if j.opc = 0x42 then
    let (j, s) := s.appendFolio j j.pos
    (none, j, s)
  else if j.opc = 0x47 then
    if bad then (some .dataIntegrity, j, s)
    else if (s.ns j.nsid).type == .sealed then
      match s.folioAt j.nsid i with
      | none => (some .jrnChainMismatch, j, s)
      | some f =>
        let prev := if j.pos ≠ 0 then j.chain else if i = 0 then s.genesis j.nsid
          else ((s.folioAt j.nsid (i - 1)).map Folio.chain).getD []
        let h := chainStep prev i f.tag f.data
        (if h == f.chain then none else some .jrnChainMismatch, { j with chain := h }, s)
    else (none, j, s)
  else if j.opc = 0x46 then
    if bad then (some .dataIntegrity, j, s)
    else if j.total ≤ j.pos + 1 && !j.orphan then
      let (st, s) := s.deliver j 0 (s.infoBytes j)
      (st, j, s)
    else (none, j, s)
  else (none, j, s)

/-- Count corrected and uncorrectable sectors of a namespace (R308). -/
def State.countSectors (s : State) (nsid c u : Nat) : State :=
  let x := s.ns nsid
  if c = 0 && u = 0 then s else s.setNs nsid { x with corr := satAdd 65535 x.corr c, uncorr := satAdd 65535 x.uncorr u }

/-- FOLIO_OP_END (R301, R308): the operation's time is over; its effect, its sector counts, and the next operation. -/
def execFolioOpEnd (sectors bits uncorrectable : Nat) (s : State) : Out :=
  act (.folioOpEnd sectors bits uncorrectable) s fun s =>
    match s.jrn.cur.bind s.job? with
    | none => s
    | some j =>
      if s.clk < s.jrn.opEnd then s
      else
        let (sectors, bits, uncorrectable) := j.found.getD (sectors, bits, uncorrectable)
        let s := s.updJrn fun x => { x with cur := none, lastOp := s.clk }
        let s := s.countSectors j.nsid sectors uncorrectable
        let at_ := if j.opc = 0x42 then (s.ns j.nsid).place (j.first + j.pos) else j.folio + j.pos
        let j := { j with remaps := if 4 < bits then j.remaps ++ [at_] else j.remaps }
        let (st, j, s) := s.folioEffect j (uncorrectable != 0)
        let j := { j with pos := j.pos + 1 }
        match st with
        | some st => (s.endJob j st).jrnWork
        | none =>
          let s := s.updJob j.id fun _ => j
          if j.pos < j.total || j.who == .zero j.nsid then s.jrnWork else (s.endJob j .ok).jrnWork

/-! ### Power states (R306, R307) -/

/-- The array is in JPS0 or JPS1 with nothing to do. -/
def State.jrnIdle (s : State) : Bool := s.jrn.cur.isNone && s.jrn.exitAt.isNone && s.nextJob.isNone

/-- JPS1_ENTRY (R306, R307). -/
def execJps1Entry (s : State) : Out :=
  act .jps1Entry s fun s =>
    let j := s.jrn
    if j.ps ≠ 0 || j.idle1 = 0 || j.maxps = 0 || !s.jrnIdle || s.clk < j.lastOp + 1000 * j.idle1 then s
    else s.updJrn fun j => { j with ps := 1 }

/-- JPS2_ENTRY (R306, R307). -/
def execJps2Entry (s : State) : Out :=
  act .jps2Entry s fun s =>
    let j := s.jrn
    if j.ps = 2 || j.idle2 = 0 || j.maxps < 2 || s.jrnCap || !s.jrnIdle || s.clk < j.lastOp + 1000 * j.idle2 then s
    else s.updJrn fun j => { j with ps := 2 }

/-- The array has left its power state (R306). -/
def State.jrnAwake (s : State) : State := (s.updJrn fun j => { j with ps := 0, exitAt := none, lastOp := s.clk }).jrnWork

/-- A folio operation of the SC900's own joins the array's work, one of its kind at a time. -/
def State.ownJob (s : State) (who : JobFor) (rank opc nsid folio : Nat) (found : Option (Nat × Nat × Nat)) : State :=
  if s.jrn.jobs.any fun j => j.who == who then s
  else
    let s := s.tick1
    (s.updJrn fun j => { j with
      nextJob := j.nextJob + 1
      jobs := j.jobs ++ [{
        id := j.nextJob, who, sag := 0, rank, opc, nsid, folio, nfol := 1, total := 1, ready := true, seq := s.serial, found }] }).jrnWork

/-- JOURNAL_SCRUB (R308): the read of a written folio is due, at the lowest media priority; FOLIO_OP_END ends it. The row says
what the read will find, as FOLIO_OP_END does for the operations that commands asked for. -/
def execJournalScrub (nsid folio sectors bits uncorrectable : Nat) (s : State) : Out :=
  act (.journalScrub nsid folio sectors bits uncorrectable) s fun s =>
    if (s.folioAt nsid folio).isNone then s
    else s.ownJob .scrub 4 0x47 nsid folio (some (sectors, bits, uncorrectable))

/-- REPAIR_RECORD_WRITE (R390): the write of the oldest queued record is due, as W-rank work (R301); FOLIO_OP_END ends it. -/
def execRepairRecordWrite (s : State) : Out :=
  act .repairRecordWrite s fun s =>
    match s.health.recBuf with
    | [] => s
    | r :: _ => s.ownJob .record 2 0 0 (recordFolio (leAt r 0 4)) none

/-! ### Registers (Table 12.5) -/

/-- A write of JRN_CTL. -/
def State.jrnCtlWrite (s : State) (w : Word) : State :=
  let m := fld w 0 2
  let s := if m = s.jrn.maxps then s else if s.dev.lock then s.errLock else if m = 3 then s.errReg
    else s.updJrn fun j => { j with maxps := m }
  if bit w 2 then (if s.jrn.ps = 0 then s.updJrn fun j => { j with lastOp := s.clk } else s.jrnExit) else s

/-- WAKE: a write of JRN_CTL with WAKE = 1 (R311). -/
def execWake (w : Word) (s : State) : Out := act (.wake w) s fun s => s.served fun s => s.jrnCtlWrite (setBit w 2 true)

/-- A write of JRN_IDLE1 or JRN_IDLE2: in range, and IDLE2 not below IDLE1. -/
def State.jrnIdleWrite (s : State) (two : Bool) (w : Word) : State :=
  let v := fld w 0 24
  let j := s.jrn
  let i1 := if two then j.idle1 else v
  let i2 := if two then v else j.idle2
  if s.dev.lock then (if v = (if two then j.idle2 else j.idle1) then s else s.errLock)
  else if 10000000 < v || (i1 ≠ 0 && i2 ≠ 0 && decide (i2 < i1)) then s.errReg
  else s.updJrn fun j => { j with idle1 := i1, idle2 := i2 }

/-- JRN_STAT as read; WAKES reads and clears. -/
def State.jrnStat (s : State) : Word × State :=
  let j := s.jrn
  (put 0 j.ps ||| putB 2 s.jrnCap ||| putB 3 (s.nss.any fun e => e.2.zeroing) ||| put 16 j.wakes,
    s.updJrn fun j => { j with wakes := 0 })

/-! ### Power loss (R285) -/

/-- The append that took its folios last and has not ended loses its effect, or keeps it: which of the two is a free value; an
earlier one keeps it with a later one, and each that a completed SEAL has counted keeps it (R285, R298). -/
def State.settleAppends (s : State) : List Nat → State
  | [] => s
  | id :: rest =>
    match s.job? id with
    | none => State.settleAppends s rest
    | some j =>
      let x := s.ns j.nsid
      let (v, s) := s.draw
      if x.seq = j.first + j.news.length && !x.closed && !bit v 0 then
        State.settleAppends ((s.unwriteAll id).setNs j.nsid { x with seq := j.first, head := j.oldHead }) rest
      else
        State.settleAppends ((j.news.zipIdx.drop j.old.length).foldl
          (fun s e => s.setFolio j.nsid (x.place (j.first + e.2)) (some e.1)) s) rest

/-- The store when the block is reset: appends whole or without effect, the folio being written old or new (R285); with `completes` the
operation in progress completes first (R454). -/
def State.journalLoss (s : State) (completes : Bool) : State :=
  let s := s.settleAppends ((sortBy Job.first (s.jrn.jobs.filter Job.took)).reverse.map Job.id)
  match s.jrn.cur.bind s.job? with
  | some j =>
    let (v, s) := s.draw
    if !completes && !bit v 0 then s
    else if j.who == .record then s.recordWritten
    else if j.opc = 0x41 then s.setFolio j.nsid (j.folio + j.pos) (j.news[j.pos]?)
    else s
  | none => s

end Sys2Proof.Machine
end

