-- ==== Sys2Proof/Machine/Bites.lean ====
section
/-! DEFINITION. The watchdogs of programs and ports: the CCW watchdog (R107, R108), the claim watchdog (R252), and the remote
timeout (R359); and how a program is stopped from outside (R108 steps 1 to 4). -/

namespace Sys2Proof.Machine

/-- The transfer of an open span stops with its FIFO emptied and DE low (R85, R108): between two of its CCWs, too. -/
def State.stopSpan (s : State) (n : Nat) : State :=
  match (s.sch n).span with
  | some (_, tgt) =>
    let p := fld tgt 0 9
    if fld tgt 9 7 == s.lnk.node && (s.port p).lineBusy == some n then (s.stopLine p).freeLine p else s
  | none => s

/-- A program in the middle of its CCW ends with a status (R108): its transfer stops at the byte boundary with what it received
stored, its wait ends, its MOVE is aborted; a JAPPEND on the media completes its write first. -/
def State.stopProgram (s : State) (n : Nat) (st : Status) : State :=
  let c := s.sch n
  match c.op with
  | some o =>
    if o.phase == .remote || o.phase == .claim || (o.phase == .prep && (s.port o.port).lineBusy != some n) || o.phase == .queued then
      (s.stopSpan n).ccwFail n o.ccw st
    else
      let (o, s) := s.cutOp n o
      ((if portKind o.port = 1 then s.stopLine o.port else s).endOp n o (some st)).work
  | none =>
    match c.wait with
    | .move ch =>
      if st == .ccwWatchdog then (s.updSch n fun x => { x with state := .halting }).abortMove n ch
      else
        let b := s.bm ch
        let s := if b.mover == some n then (s.setBm ch { b with mover := some noMover }).bmAbort ch
          else s.setBm ch { b with waiters := b.waiters.filter fun e => e.1 != n }
        s.progEnd n st
    | .jappend id =>
      match s.job? id with
      | some j =>
        if !s.revocable j then ((s.updJob id fun j => { j with forced := some st }).updSch n fun x => { x with state := .halting }).work
        else ((s.cancelJob id).report { j with forced := some st } st).flushDone.jrnWork
      | none => s.progEnd n st
    | _ => (s.stopSpan n).progEnd n st

/-- The CCW in progress is timed by the CCW watchdog (R107), which is in force from its dispatch. -/
def Sch.timed (c : Sch) : Bool :=
  (c.state == .active || c.state == .waiting || c.state == .halting) && c.cur.isSome && c.wdgInForce != 0 &&
    (match c.wait with
     | .time _ => false
     | .ticks _ => false
     | .frame _ => false
     | .cond _ _ due => due.isNone
     | _ => true)

/-- The watchdog has bitten already: a MOVE or a JAPPEND is on its way to its end. -/
def State.bitten (s : State) (n : Nat) : Bool :=
  match (s.sch n).wait with
  | .move ch => (s.bm ch).mover == some n && (s.bm ch).state == .aborting
  | .jappend id => match s.job? id with | some j => j.forced.isSome | none => false
  | _ => false

/-- A CCW is being read from host memory (R441): the watchdog times it from the request on. -/
def State.readingCcw (s : State) (n : Nat) : Bool :=
  let c := s.sch n
  (c.state == .active || c.state == .halting) && c.wait == .none && c.op.isNone && s.ccwAt n == .wait && c.ccwWdg != 0

/-- CCW_WATCHDOG (R107, R108, R407). -/
def execCcwWatchdog (sch : Nat) (s : State) : Out :=
  act (.ccwWatchdog sch) s fun s =>
    let c := s.sch sch
    if c.timed && !s.bitten sch && decide (c.dispatchedAt + 1000 * c.wdgInForce ≤ s.clk) then
      (s.pushCause 0x0108 sch (s.schSag sch) (s.schSag sch) s.kiln.frame).stopProgram sch .ccwWatchdog
    else if s.readingCcw sch && decide (c.readySince + 1000 * c.ccwWdg ≤ s.clk) then
      ((s.pushCause 0x0108 sch (s.schSag sch) (s.schSag sch) s.kiln.frame).stopSpan sch).progEnd sch .ccwWatchdog
    else s

/-- CLAIM_WDG: to saggar 0, and to the saggar of the slot's subchannel (R252, Table 16.6). -/
def State.claimEvent (s : State) (g slot sch kind : Nat) : State :=
  let x := s.claim g
  let s := s.setClaim g { x with bites := sat16 x.bites }
  let d := slot + 256 * kind
  let s := s.raiseF 0 0x0102 x.port d
  if s.schSag sch = 0 then s else s.raiseF (s.schSag sch) 0x0102 x.port d

/-- CLAIM_WATCHDOG_HOLD (R252): the transfer of the holder stops, a completed WRITE's too; its program ends, and the grant passes, to
a slot whose wait timer expires at this very instant as well (Table 10.6). -/
def execClaimWatchdogHold (group : Nat) (s : State) : Out :=
  act (.claimWatchdogHold group) s fun s =>
    let x := s.claim group
    match x.holder with
    | none => s
    | some k =>
      if !x.en || s.clk < x.holdSince + x.cwdgNs then s
      else
        let n := (x.slot k).sch
        let s := (s.claimEvent group k n 0).dropGrants n
        let p := x.port
        let sending := (s.port p).lineBusy == some n && !(match (s.sch n).op with | some o => o.port == p && o.phase != .queued | none => false)
        let s := if sending then (s.stopLine p).freeLine p else s
        let s := match s.grantFree 1 with
          | some (q, m, t) => if q == p then t.granted p m else s
          | none => s
        s.stopProgram n .claimWatchdog

/-- CLAIM_WATCHDOG_WAIT (R252): the waiting CLAIM or port CCW ends its program; nothing reaches the port. -/
def execClaimWatchdogWait (group slot : Nat) (s : State) : Out :=
  act (.claimWatchdogWait group slot) s fun s =>
    let x := s.claim group
    match (x.slot slot).reqSince with
    | none => s
    | some t =>
      if !x.en || s.clk < t + x.cwdgNs then s
      else
        let n := (x.slot slot).sch
        let s := s.claimEvent group slot n 1
        let s := s.setClaim group ((s.claim group).endReq slot s.clk false)
        s.stopProgram n .claimWatchdog

/-- REMOTE_TIMEOUT (R359): the whole response has not arrived within the remote timeout. -/
def execRemoteTimeout (sch : Nat) (s : State) : Out :=
  act (.remoteTimeout sch) s fun s =>
    match (s.sch sch).op with
    | some o => if o.phase == .remote && o.remoteSt.isNone && decide (o.deadline ≤ s.clk) then s.ccwFail sch o.ccw .linkUnreachable else s
    | none => s

end Sys2Proof.Machine
end

