-- ==== Sys2Proof/Machine/Front.lean ====
section
/-! DEFINITION. The queue front end (chapter 5): doorbell writes, entries and their validation (R119, R121,
R129, R130), the fetch rules (R496, R498, R500, R302, R447), and the admin entry's validation (R140 to R143). -/

namespace Sys2Proof.Machine

/-! ### Doorbell writes -/

/-- A doorbell write (R114, R167): of 4 or 8 bytes, by a saggar that may act, with a good index; any other is ignored and
counted. -/
def State.doorbell (s : State) (fn size : Nat) (ok : Bool) (f : State → State) : State :=
  if !s.barOn fn then s
  else if !(size == 4 || size == 8) || !(s.sag fn).en || !ok then s.errHost
  else f s

/-- The index lies in [head, tail], taken cyclically (R117). -/
def inRing (i head tail n : Nat) : Bool := decide (i < n) && decide (ringCount head i n ≤ ringCount head tail n)

/-! ### Entries (Tables 5.3 to 5.5, 5.10) -/

/-- What a host read gives its reader: `n` bytes, or nothing. -/
def hostBytes (d : HostData) (n : Nat) : Option (List Byte) :=
  match d with
  | .bytes bs => some (padTo n bs)
  | .poisoned => none
  | .unsupported => none
  | .aborted => none
  | .timeout => none

/-- The bytes of an entry: 64. -/
def entryBytes (d : HostData) : Option (List Byte) := hostBytes d 64

/-- An uncorrectable-error bit of the AER status of a function. -/
def State.aer (s : State) (fn i : Nat) : State := s.updFn fn fun f => { f with aer := setBit f.aer i true }

/-- What PCI Express records of a read that failed (Table 18.6). -/
def State.hostFault (s : State) (fn : Nat) (d : HostData) : State :=
  match d with
  | .bytes _ => s
  | .poisoned => s.aer fn 12
  | .unsupported => s.updFn fn fun f => { f with masterAbort := true }
  | .aborted => s.updFn fn fun f => { f with targetAbort := true }
  | .timeout => s.aer fn 14

/-- All bytes but those of the listed fields are zero. -/
def onlyFields (bs : List Byte) (fields : List (Nat × Nat)) : Bool :=
  (List.range bs.length).all fun i => (fields.any fun f => decide (f.1 ≤ i ∧ i < f.1 + f.2)) || bs.getD i 0 == 0

/-- A TRIGGER field is valid (R98). -/
def triggerOk (t : Word) (g : Bool) : Bool :=
  let top := if trgSource t = 1 then 32 else if trgSource t = 2 then 8 else if trgSource t = 3 then 64 else 1
  fld t 15 17 == 0 && decide (trgSource t ≤ 4) && decide (trgPolicy t ≤ 2) && decide (trgIndex t < top) && !(g && trgPolicy t == 2)

/-- A channel entry is malformed (Table 5.10); `sig` and `g` are the queue's mode and class. -/
def chanBad (bs : List Byte) (sig g : Bool) : Bool :=
  let op := leAt bs 0 1
  let fl : Byte := BitVec.ofNat 8 (leAt bs 1 1)
  let dlv := bit fl 2
  let trg := bit fl 3
  let inl := bit fl 4
  if fld fl 5 3 ≠ 0 || (sig && bit fl 1 && !bit fl 0) then true
  else if op = 2 || op = 3 then dlv || trg || inl || !onlyFields bs [(0, 4), (8, 1)] || (g && op == 2)
  else if op ≠ 1 then true
  else
    let prog := leAt bs 8 8
    let stata := leAt bs 16 8
    (trg && (dlv || sig)) || (!dlv && leAt bs 4 4 != 0) || (!trg && leAt bs 24 4 != 0) || leAt bs 28 4 != 0 ||
      (!inl && !allZero (bs.drop 32)) || prog % 16 != 0 || (prog == 0 && !inl) || stata % 16 != 0 || (g && inl) ||
      (trg && !triggerOk (w32 (leAt bs 24 4)) g)

/-- A journal entry is malformed (Table 5.10). -/
def jrnBad (bs : List Byte) (sig : Bool) : Bool :=
  let op := leAt bs 0 1
  let fl : Byte := BitVec.ofNat 8 (leAt bs 1 1)
  op < 0x40 || decide (0x47 < op) || fld fl 2 3 != 0 || fld fl 6 2 != 0 || (sig && bit fl 1 && !bit fl 0) ||
    (op != 0x45 && !allZero (bs.drop 32)) || (bit fl 5 && leAt bs 24 8 % 16 != 0)

/-- The fields of a channel entry (Table 5.3). -/
def chanEntry (bs : List Byte) (e : Entry) : Entry :=
  let fl : Byte := BitVec.ofNat 8 (leAt bs 1 1)
  let op := leAt bs 0 1
  let slot (off : Nat) : Option Ccw := some (Ccw.ofBytes ((bs.drop off).take 16))
  { e with
    kind := if op = 2 then .resume else if op = 3 then .halt else if bit fl 3 then .trg else .start
    sig := bit fl 0, irq := bit fl 1, dlv := bit fl 2, deadline := w32 (leAt bs 4 4)
    prog := if op = 1 then BitVec.ofNat 64 (leAt bs 8 8) else 0, stata := BitVec.ofNat 64 (leAt bs 16 8)
    trigger := w32 (leAt bs 24 4)
    inl0 := if bit fl 4 then slot 32 else none
    inl1 := if bit fl 4 && !allZero (bs.drop 48) then slot 48 else none
    sch := if op = 1 then 0 else leAt bs 8 1
    result := put 16 0xFFFF }

/-- The fields of a journal entry (Table 5.5). -/
def jrnEntry (bs : List Byte) (e : Entry) : Entry :=
  let fl : Byte := BitVec.ofNat 8 (leAt bs 1 1)
  { e with
    kind := .journal, sig := bit fl 0, irq := bit fl 1
    jrn := { opc := leAt bs 0 1, nsid := leAt bs 4 4, folio := BitVec.ofNat 64 (leAt bs 8 8), nfol := leAt bs 16 4
             coding := w32 (leAt bs 20 4), buf := BitVec.ofNat 64 (leAt bs 24 8), sgl := bit fl 5, chain := bs.drop 32 } }

/-! ### Taking an entry -/

/-- A malformed entry stops its SQ (R130); an IRQ flag read in it counts for its completion's message (R136). -/
def State.malformedSq (s : State) (n : Nat) (e : Entry) (st : Status) : State :=
  let q := s.sq n
  let e := { e with kind := .malformed, phase := .ended st, cid := if st == .malformedEntry then e.cid else 0, sig := true, result := 0 }
  (s.setSq n { q with state := .error, qerr := some e.slot, entries := q.entries ++ [e] }).sqFlush n

/-- An entry of an SQ that is well formed: a G entry waits in the prefetch buffer, but a HALT acts when it is read; a deadline
that is past refuses the entry (R496, R502). -/
def State.acceptSq (s : State) (n : Nat) (e : Entry) : State :=
  let q := s.sq n
  let e := { e with prefetched := q.cls == .g && e.kind != .halt }
  let s := s.setSq n { q with entries := q.entries ++ [e] }
  if q.cls != .g && s.late e then s.refuseLate (.sq n) e else s

/-- The blank of the next entry. -/
def State.blankEntry (s : State) (slot cid : Nat) : Entry :=
  { eid := s.serial, slot, cid, kind := .start, fetchAt := s.clk, fetchStime := s.stime, fetchSeq := s.serial }

/-- After a tail that moved back, whether an exposed slot is passed over is not defined (R115). -/
def State.skips (s : State) (loose : Bool) : Bool × State := if loose then s.drawBand else (false, s)

/-- Take the entry at the head of an SQ (R116, R129). Under a reset or delete only its CID is read (R150 step 3). -/
def State.takeSq (s : State) (n : Nat) (d : Option (List Byte)) : State :=
  let (skip, s) := s.skips ((s.sq n).loose && !(s.sq n).ending)
  let q := s.sq n
  let d := if (s.fn q.fn).busMaster then d else none
  let s := s.tick1
  let slot := q.head
  let head := (q.head + 1) % max 1 q.n
  let q := { q with head, loose := q.loose && head != q.tail }
  let s := s.setSq n q
  if skip then s
  else
  let bs := d.getD (zeros 64)
  let e := s.blankEntry slot (leAt bs 2 2)
  let bad := { e with irq := bit (BitVec.ofNat 8 (leAt bs 1 1)) 1 }
  if q.ending then
    (s.setSq n { s.sq n with entries := q.entries ++ [{ e with phase := .ended .aborted, result := if q.journal then 0 else put 16 0xFFFF }] }).sqFlush n
  else if d.isNone then s.malformedSq n e .dataIntegrity
  else if q.journal then (if jrnBad bs (!q.tagged) then s.malformedSq n bad .malformedEntry else s.acceptSq n (jrnEntry bs e))
  else if chanBad bs (!q.tagged) (q.cls == .g) then s.malformedSq n bad .malformedEntry
  else s.acceptSq n (chanEntry bs e)

/-- Take the entry at the front of the slim host port's queue (R447, R448). -/
def State.takeShp (s : State) : State :=
  match s.shp.waiting with
  | [] => s
  | bs :: rest =>
    let s := s.tick1
    let e := s.blankEntry 0 (leAt bs 2 2)
    let add (s : State) (e : Entry) : State := s.updShp fun p => { p with waiting := rest, entries := p.entries ++ [e] }
    let jrn := isJrnOp bs
    if (if jrn then jrnBad bs false else chanBad bs false false) then
      ((add s { e with kind := .malformed, phase := .ended .malformedEntry, result := 0 }).updShp fun p => { p with error := true }).shpFlush
    else if jrn then
      let e := jrnEntry bs e
      if s.shp.jdepth = 0 then (add s e).endEntry .shp e.eid .refusedResource else add s e
    else
      let e := chanEntry bs e
      let s := add s e
      if s.shp.cdepth = 0 then s.endEntry .shp e.eid .refusedResource
      else if s.health.failedCps.contains s.shp.cp then s.endEntry .shp e.eid .repairExhausted
      else if (e.prog != 0 && !isLs e.prog) || (e.stata != 0 && !isLs e.stata) then s.endEntry .shp e.eid .addressCheck
      else if s.late e then s.refuseLate .shp e
      else s

/-! ### Admin entries (R140 to R143, R146, R154 to R157) -/

/-- A ring base: host memory, aligned to 4 KiB (R112). -/
def baseOk (a : DWord) : Bool := !isLs a && fld a 0 12 == 0

/-- A buffer address: aligned to 16 bytes, its reserved bits zero (section 6.2, R52). -/
def bufOk (a : Nat) : Bool := a % 16 == 0

/-- CREATE_SQ fields outside Table 6.3 (R146). -/
def createSqBad (bs : List Byte) : Bool :=
  let v (off n : Nat) := leAt bs off n
  let g := v 19 1 == 0
  let w := v 19 1 == 1
  let chan := v 18 1 == 0
  decide (255 < v 4 2) || decide (255 < v 6 2) || !baseOk (BitVec.ofNat 64 (v 8 8)) || decide (v 16 2 < 2 ∨ 4096 < v 16 2) ||
    decide (1 < v 18 1) || decide (2 < v 19 1) || (g && !chan) || decide (1 < v 20 1) ||
    decide (v 21 1 < 1 ∨ (if chan then 8 else 64) < v 21 1) || (if w then v 22 1 == 0 else v 22 1 != 0) ||
    (if g then v 23 1 != 0 else decide (v 23 1 < 1 ∨ 64 < v 23 1)) || (if g then !bufOk (v 24 8) else v 24 8 != 0) ||
    (if chan then decide (31 < v 32 1) && v 32 1 != 255 else v 32 1 != 0) ||
    (if g then decide (v 34 2 < 1 ∨ 64 < v 34 2) else v 34 2 != 0) ||
    (if g then v 40 8 < 2 ^ 63 || v 40 8 % 8 != 0 else v 40 8 != 0)

/-- The fields of each admin opcode (Table 6.2), with the header; none = undefined. -/
def admFields (op : Nat) : Option (List (Nat × Nat)) :=
  let h := (0, 1) :: [(2, 2)]
  if op = 0x80 then some (h ++ [(4, 2), (8, 8), (16, 6)])
  else if op = 0x81 || op = 0x82 || op = 0x84 || op = 0x85 then some (h ++ [(4, 2)])
  else if op = 0x83 then some (h ++ [(4, 20), (24, 8), (32, 1), (34, 2), (40, 8)])
  else if op = 0x86 then some (h ++ [(8, 8), (16, 2)])
  else if op = 0x87 || op = 0x88 then some h
  else if op = 0x89 then some (h ++ [(4, 4)])
  else if op = 0x8A || op = 0x8B then some (h ++ [(4, 8)])
  else if op = 0x8C then some (h ++ [(4, 5), (16, 4)])
  else if op = 0x8D then some (h ++ [(4, 4)])
  else if op = 0x8E then some (h ++ [(4, 8)])
  else if op = 0x8F then some (h ++ [(4, 12)])
  else if op = 0x90 then some (h ++ [(24, 8)])
  else if op = 0x91 then some (h ++ [(4, 1), (6, 2), (24, 8)])
  else none

/-- An admin entry is malformed (R141): its opcode, a reserved byte, or a value outside its range. -/
def admBad (bs : List Byte) : Bool :=
  let op := leAt bs 0 1
  let v (off n : Nat) := leAt bs off n
  match admFields op with
  | none => true
  | some fs =>
    !onlyFields bs fs ||
      (if op = 0x80 then
        decide (255 < v 4 2) || !baseOk (BitVec.ofNat 64 (v 8 8)) || decide (v 16 2 < 2 ∨ 16384 < v 16 2) || decide (32 < v 18 1)
      else if op = 0x83 then createSqBad bs
      else if op = 0x86 then !baseOk (BitVec.ofNat 64 (v 8 8)) || decide (v 16 2 < 2 ∨ 16384 < v 16 2)
      else if op = 0x8A || op = 0x8B then decide (4095 < v 4 4) || decide (v 8 4 < 1 ∨ 4096 < v 8 4)
      else if op = 0x8C then decide (1023 < v 4 4) || decide (2 < v 8 1) || v 16 4 == 0
      else if op = 0x8F then
        (v 4 4 == 5 && (decide (32767 < v 12 4) || v 13 1 % 128 == 0 || decide (64 < v 13 1 % 128))) ||
          (v 4 4 == 6 && decide (16777215 < v 12 4))
      else if op = 0x90 then !bufOk (v 24 8)
      else if op = 0x91 then decide (1 < v 4 1) || !bufOk (v 24 8)
      else false)

/-- The admin entry at the head of a function's queue is due to be fetched: no command runs, and the admin CQ is not full (R139). -/
def State.adminDue (s : State) (fn : Nat) : Bool :=
  let f := s.fn fn
  f.rdy && f.en && f.running.isNone && f.sqHead != f.sqTail && (s.sag fn).en && !ringFull f.cqHead f.cqTail f.cqn

/-- Take the entry at the head of a function's admin SQ: one at a time, none while its completion is held (R139). A malformed
one completes at once and the queue goes on (R141). -/
def State.takeAdmin (s : State) (fn : Nat) (d : Option (List Byte)) : State :=
  let f := s.fn fn
  if !s.adminDue fn then s
  else
    let (skip, s) := s.skips f.loose
    let d := if f.busMaster then d else none
    let bs := d.getD (zeros 64)
    let head := (f.sqHead + 1) % max 1 f.sqn
    let f := { f with sqHead := head, loose := f.loose && head != f.sqTail }
    let s := s.setFn fn (if skip then f else { f with running := some bs })
    if skip then s
    else if d.isNone then s.admDone fn .dataIntegrity 0
    else if admBad bs then s.admDone fn .malformedEntry 0
    else s

end Sys2Proof.Machine
end

