-- ==== Sys2Proof/Machine/Doorbells.lean ====
section
/-! DEFINITION. Doorbells, heartbeat, interrupts, fetch, host reads, and the channel entries (chapters 4, 5 and 7). -/

namespace Sys2Proof.Machine

/-! ### Ring doorbells (R114 to R117) -/

/-- The index a doorbell write carries (R114). -/
def bellIndex (value : DWord) : Nat := fld value 0 16

/-- A new tail `i` moves back over unfetched entries (R115). -/
def tailBack (head tail i n : Nat) : Bool := decide (ringCount head i n < ringCount head tail n)

/-- A write of a tail doorbell: the admin SQ's, or an SQ's (R114, R115, R150, R159). A tail that moves back is taken, and which
of the exposed slots are then fetched is not defined. -/
def State.sqTail (s : State) (fn : Nat) (sq : Option Nat) (size : Nat) (value : DWord) : State :=
  let i := bellIndex value
  match sq with
  | none =>
    let f := s.fn fn
    s.doorbell fn size (f.rdy && f.en && decide (i < f.sqn)) fun s =>
      s.setFn fn { s.fn fn with sqTail := i, loose := i != f.sqHead && (f.loose || tailBack f.sqHead f.sqTail i f.sqn) }
  | some n =>
    let q := s.sq n
    s.doorbell fn size (q.state != .free && q.opened && q.fn == fn && !q.ending && decide (i < q.n)) fun s =>
      s.setSq n { s.sq n with tail := i, loose := i != q.head && (q.loose || tailBack q.head q.tail i q.n) }

/-- A write of a head doorbell: frees slots, and held completions are written into them (R117, R131). -/
def State.cqHead (s : State) (fn : Nat) (cq : Option Nat) (size : Nat) (value : DWord) : State :=
  let i := bellIndex value
  match cq with
  | none =>
    let f := s.fn fn
    s.doorbell fn size (f.rdy && inRing i f.cqHead f.cqTail f.cqn) fun s =>
      let s := s.setFn fn { f with cqHead := i }
      match f.heldAdmin with
      | some c => if ringFull i f.cqTail f.cqn then s else s.admWrite fn c
      | none => s
  | some n =>
    let q := s.cq n
    s.doorbell fn size (q.exists_ && q.fn == fn && inRing i q.head q.tail q.n) fun s =>
      (s.setCq n { q with head := i }).cqDrain n q.held.length

/-- A write of the event queue's head doorbell: EVQ_OVERFLOW follows when it frees a slot and events were lost (R117, R132). -/
def State.evqHeadWrite (s : State) (fn size : Nat) (value : DWord) : State :=
  let i := bellIndex value
  let f := s.fn fn
  s.doorbell fn size (f.evqOn && inRing i f.evqHead f.evqTail f.evqN) fun s =>
    if i = f.evqHead then s else (s.setFn fn { f with evqHead := i }).evqOverflow fn

/-- SQ_TAIL_DOORBELL. -/
def execSqTailDoorbell (fn : Nat) (sq : Option Nat) (size : Nat) (value : DWord) (s : State) : Out :=
  act (.sqTailDoorbell fn sq size value) s fun s => s.sqTail fn sq size value

/-- CQ_HEAD_DOORBELL. -/
def execCqHeadDoorbell (fn : Nat) (cq : Option Nat) (size : Nat) (value : DWord) (s : State) : Out :=
  act (.cqHeadDoorbell fn cq size value) s fun s => s.cqHead fn cq size value

/-- EVQ_HEAD_DOORBELL. -/
def execEvqHeadDoorbell (fn size : Nat) (value : DWord) (s : State) : Out :=
  act (.evqHeadDoorbell fn size value) s fun s => s.evqHeadWrite fn size value

/-! ### Heartbeat (R173 to R175) -/

/-- A heartbeat write arms or restarts the timer; after a loss it ends it (R173, R175). -/
def State.heartbeat (s : State) (sag : Nat) : State :=
  let x := s.sag sag
  if x.hbPer = 0 then s
  else
    let s := s.setSag sag { x with hbSince := some s.clk, hbDown := false }
    if x.hbDown then s.raiseF 0 0x0101 sag 0 else s

/-- Disarm a heartbeat timer (R173). -/
def State.hbDisarm (s : State) (sag : Nat) : State := s.updSag sag fun x => { x with hbSince := none, hbDown := false }

/-- The subchannels that act for a saggar. -/
def State.schsOfSag (s : State) (sag : Nat) : List Nat :=
  (s.schs.filter fun e => match e.2.owner with | some q => s.qSag q == sag | none => false).map (·.1)

/-- The ports with a SAFE entry on which a saggar holds ACTUATE. -/
def State.actPorts (s : State) (sag : Nat) : List Nat := safePorts.filter fun p => s.mayActuate sag p

/-- The loss of a heartbeat that is due (R174): reported; with HALT the saggar's programs halt and its ACTUATE ports become
safe. -/
def State.hbLose (s : State) (sag : Nat) : State :=
  let x := s.sag sag
  match x.hbSince with
  | none => s
  | some t =>
    if x.hbPer = 0 || s.clk < t + 1000000 * x.hbPer then s
    else
      let s := s.setSag sag { x with hbSince := none, hbDown := true, hbLost := sat16 x.hbLost }
      let s := s.raiseF 0 0x0100 sag (b2n x.hbHalt)
      if !x.hbHalt then s
      else
        let s : State := { s with autos := s.autos.map fun e => (e.1, e.2.map fun a => if a.sag == sag then { a with ending := true } else a) }
        let order := sortBy (fun n => ((s.sch n).owner.map QRef.order).getD 0) (s.schsOfSag sag)
        let s := order.foldl (fun (s : State) n => s.haltSch n .heartbeat) s
        let s := s.autos.foldl (fun (s : State) e => s.autoCheck (.auto e.1)) s
        s.safeApply 0 (s.actPorts sag) none

/-- HEARTBEAT_LOST (R174). -/
def execHeartbeatLost (sag : Nat) (s : State) : Out := act (.heartbeatLost sag) s fun s => s.hbLose sag

/-- A heartbeat write: a loss that is due comes first, and the write then clears it (Table 7.5). -/
def State.hbBeat (s : State) (sag : Nat) : State := (s.hbLose sag).heartbeat sag

/-- A write of the heartbeat doorbell, of any value, after RDY (R173); by a saggar that may not act it is ignored and counted
(R167). -/
def State.hbWrite (s : State) (fn : Nat) : State :=
  if !s.barOn fn then s
  else if !(s.sag fn).en then s.errHost
  else if (s.fn fn).rdy then s.hbBeat fn
  else s

/-- HEARTBEAT_DOORBELL. -/
def execHeartbeatDoorbell (fn : Nat) (s : State) : Out := act (.heartbeatDoorbell fn) s fun s => s.hbWrite fn

/-! ### Nudges, vectors, coalescing -/

/-- A nudge doorbell write for a subchannel that the function's queues reserve (R104). -/
def State.nudgeWrite (s : State) (fn sch : Nat) : State :=
  if !s.barOn fn then s
  else if !(s.sag fn).en then s.errHost
  else match (s.sch sch).owner with
    | some (.sq n) => if (s.sq n).fn == fn then s.nudgeSch sch else s.errHost
    | _ => s.errHost

/-- NUDGE. -/
def execNudge (fn sch : Nat) (s : State) : Out := act (.nudge fn sch) s fun s => s.nudgeWrite fn sch

/-- A write of a vector's mask bit: a message that became due while it was masked is sent at the unmasking (R135, R440). -/
def State.maskWrite (s : State) (fn vec : Nat) (masked : Bool) : State :=
  let m := s.msix.get {} (msixKey fn vec)
  State.flushMsix { s with msix := s.msix.set {} (msixKey fn vec) { m with masked } } fn vec

/-- MSIX_UNMASK. -/
def execMsixUnmask (fn vec : Nat) (s : State) : Out :=
  act (.msixUnmask fn vec) s fun s => if s.barOn fn then s.maskWrite fn vec false else s

/-- AGG_TIME_EXPIRY: AGG_TIME has passed since the oldest pending entry was written (R136). -/
def execAggTimeExpiry (cq : Nat) (s : State) : Out :=
  act (.aggTimeExpiry cq) s fun s =>
    let q := s.cq cq
    if q.exists_ && q.vector != 0 && q.pendCnt != 0 && q.aggTime != 0 && decide (q.pendSince + 1000 * q.aggTime ≤ s.clk) then s.cqMessage cq
    else s

/-! ### Fetch -/

/-- ENTRY_FETCH: the front end reads the next entry of a queue, if the rules of its class let it (R129, R496, R498, R500, R302,
R447, R139); a queue under reset or delete has its CIDs read (R150). -/
def execEntryFetch (q : QueueId) (d : HostData) (s : State) : Out :=
  act (.entryFetch q d) s fun s =>
    match q with
    | .admin fn => if s.adminDue fn then (s.hostFault fn d).takeAdmin fn (entryBytes d) else s
    | .shp =>
      match s.fetchTurn with
      | (some 256, s) => s.useTurn.takeShp
      | _ => s
    | .sq n =>
      let x := s.sq n
      let take (s : State) : State := (s.hostFault x.fn d).takeSq n (entryBytes d)
      if x.ending then (if x.head == x.tr then s else take s)
      else if !s.canFetchSq n then s
      else match x.cls with
        | .g => take s
        | .b => if s.bOpen n then take s else s
        | .w =>
          match s.fetchTurn with
          | (some k, s') => if k = n then take s'.useTurn else s
          | (none, _) => s

/-! ### Host reads (R109, R441) -/

/-- The host read of a FENCE has returned: every earlier write has arrived (R71); a failed read ends it (R56). -/
def State.gotFence (s : State) (n : Nat) (d : Option (List Byte)) : State :=
  if (s.sch n).wait != .fenceHost then s
  else
    let c := s.curCcw n
    match d with
    | some _ => s.ccwOk n c
    | none => s.ccwFail n c .dataIntegrity

/-- A host read ends: the waiting operation goes on (R109). -/
def State.readDone (s : State) (id : Nat) (bytes : Option (List Byte)) : State :=
  match s.takeRead id with
  | none => s
  | some (r, s) =>
    let bs := bytes.map (padTo r.len)
    match r.who with
    | .ccw n => s.updSch n fun c => { c with fetched := bs.map Ccw.ofBytes, fetchFail := bs.isNone, readySince := s.clk }
    | .element n => s.gotElement n bs
    | .data n => s.gotData n bs
    | .fence n => s.gotFence n bs
    | .bmList ch src => s.bmGotElement ch src bs
    | .bmData ch => s.bmGotData ch bs
    | .jrnList id => s.jrnGotElement id bs
    | .jrnData id => s.jrnGotData id bs

/-- HOST_READ_RETURN: a read returns its bytes, poisoned, or with UR or CA (R109, R441). -/
def execHostReadReturn (id : Nat) (d : HostData) (s : State) : Out :=
  act (.hostReadReturn id d) s fun s =>
    match s.reads.find? fun r => r.id == id with
    | none => s
    | some r => (s.hostFault r.fn d).readDone id (hostBytes d r.len)

/-- COMPLETION_TIMEOUT: a read gets no completion in time: a failed read (Table 18.6). -/
def execCompletionTimeout (id : Nat) (s : State) : Out :=
  act (.completionTimeout id) s fun s =>
    match s.reads.find? fun r => r.id == id with
    | none => s
    | some r => (s.aer r.fn 14).readDone id none

/-! ### Channel entries -/

/-- The oldest entry of a kind that waits in a queue; a G entry in its prefetch buffer waits for the tick. -/
def State.oldest (s : State) (q : QRef) (k : EntryKind) : Option Entry :=
  (s.entries q).find? fun e => e.kind == k && e.phase == .waiting && !e.prefetched

/-- The queue that a command on channel entries names; the admin queue has none. -/
def chanQueue (q : QueueId) : Option QRef :=
  match q with
  | .sq n => some (.sq n)
  | .shp => some .shp
  | .admin _ => none

/-- START: the oldest waiting START of a W or B queue begins on the lowest IDLE subchannel, under the start rules (R81, R499,
R500, R36). A G entry starts at its tick (R496). -/
def execStart (q : QueueId) (s : State) : Out :=
  act (.start q) s fun s =>
    match (chanQueue q).bind fun r => (s.oldest r .start).map fun e => (r, e) with
    | some (r, e) => s.tryStart r e.eid
    | none => s

/-- TRG: the oldest waiting TRG of a W or B queue arms the lowest IDLE subchannel (R98, R99). A G entry arms at its tick. -/
def execTrg (q : QueueId) (s : State) : Out :=
  act (.trg q) s fun s =>
    match (chanQueue q).bind fun r => (s.oldest r .trg).map fun e => (r, e) with
    | some (r, e) => if s.qCls r != .g && s.mayStart r then s.takeTrg r e else s
    | none => s

/-- RESUME: acts on a subchannel that its queue reserves, and completes with OK (R91, R92). -/
def execResume (q : QueueId) (s : State) : Out :=
  act (.resume q) s fun s =>
    match (chanQueue q).bind fun r => (s.oldest r .resume).map fun e => (r, e) with
    | some (r, e) =>
      if (s.sch e.sch).owner == some r then (s.resumeSch e.sch).endEntry r e.eid .ok
      else s.endEntry r e.eid .protectionCheck
    | none => s

/-- HALT: acts on a subchannel that its queue reserves; it completes when the subchannel is IDLE and the halted entry's
completion is written (R91, R95). -/
def execHalt (q : QueueId) (s : State) : Out :=
  act (.halt q) s fun s =>
    match (chanQueue q).bind fun r => (s.oldest r .halt).map fun e => (r, e) with
    | some (r, e) =>
      if (s.sch e.sch).owner != some r then s.endEntry r e.eid .protectionCheck
      else
        let s := (s.updEntry r e.eid fun x => { x with phase := .begun }).haltSch e.sch .halt
        if (s.sch e.sch).state == .idle then s.endHalts r e.sch else s
    | none => s

end Sys2Proof.Machine
end

