-- ==== Sys2Proof/Machine/Walk.lean ====
section
/-! DEFINITION. The walk of admission (section 2.5, R37 to R39, R50, R188, R254): what one CCW charges and where the flow goes,
and the figures of a program, path by path, each taken at its largest (log entry on R38). -/

namespace Sys2Proof.Machine

/-! ### Admission quantities (R37) -/

def State.pa (s : State) : Nat := s.kiln.perInForce * 1000 - 1000
def State.xa (s : State) : Nat := 15 * (s.pa / 16)
def State.cpLimit (s : State) : Nat := 4 * (s.xa / 10) / 5
def State.portLimit (s : State) : Nat := 4 * s.pa / 5

/-- The reasons of Table 2.7. -/
def rCpBudget : Nat := 1
def rPortTime : Nat := 2
def rLatency : Nat := 3
def rUnbounded : Nat := 4
def rStarved : Nat := 5
def rCells : Nat := 6
def rNoSubch : Nat := 7
def rLocation : Nat := 8
def rRights : Nat := 9

/-- The status of a reason (Table 2.7). -/
def reasonStatus (r : Nat) : Status :=
  if r = 0 then .ok else if r ≤ 6 then .refusedBudget else if r ≤ 8 then .refusedResource else .refusedRights

/-! ### Maps from numbers to sums -/

abbrev Sums := List (Nat × Nat)

def Sums.at (m : Sums) (k : Nat) : Nat := ((m.find? fun e => e.1 == k).map (·.2)).getD 0

/-- Put `f` of the present value at a key, the keys in rising order. -/
def Sums.upd (m : Sums) (k : Nat) (f : Nat → Nat) : Sums :=
  match m with
  | [] => [(k, f 0)]
  | (j, v) :: rest => if j < k then (j, v) :: Sums.upd rest k f else if j = k then (k, f v) :: rest else (k, f 0) :: (j, v) :: rest

def Sums.plus (a b : Sums) : Sums := b.foldl (fun m e => m.upd e.1 (· + e.2)) a
def Sums.join (a b : Sums) : Sums := b.foldl (fun m e => m.upd e.1 (max · e.2)) a
def Sums.times (a : Sums) (k : Nat) : Sums := a.map fun e => (e.1, e.2 * k)

/-! ### Segments without a break point (R247, R254) -/

/-- Along a path on one SHARED port: the longest stretch with no break point in it; and for paths with one, the stretch before
the first, the longest between two, and the stretch after the last. none = no such path. -/
structure Seg where
  whole : Option Nat := some 0
  first : Option Nat := none
  mid : Option Nat := none
  last : Option Nat := none
deriving DecidableEq, Repr

def optMax : Option Nat → Option Nat → Option Nat
  | some a, some b => some (max a b)
  | some a, none => some a
  | none, b => b
def optAdd : Option Nat → Option Nat → Option Nat
  | some a, some b => some (a + b)
  | _, _ => none

/-- One stretch after another. -/
def Seg.plus (a b : Seg) : Seg :=
  { whole := optAdd a.whole b.whole
    first := optMax a.first (optAdd a.whole b.first)
    mid := optMax (optMax a.mid b.mid) (optAdd a.last b.first)
    last := optMax b.last (optAdd a.last b.whole) }

/-- Either of two. -/
def Seg.join (a b : Seg) : Seg :=
  { whole := optMax a.whole b.whole, first := optMax a.first b.first, mid := optMax a.mid b.mid, last := optMax a.last b.last }

/-- The same stretch `k` times: two passes already show every stretch between break points. -/
def Seg.times (a : Seg) (k : Nat) : Seg :=
  if k = 0 then {}
  else if k = 1 then a
  else { whole := a.whole.map (· * k), first := optMax a.first (optAdd (a.whole.map (· * (k - 1))) a.first)
         mid := optMax a.mid (optAdd (optAdd a.last (a.whole.map (· * (k - 2)))) a.first |>.elim (optAdd a.last a.first) some)
         last := optMax a.last (optAdd a.last (a.whole.map (· * (k - 1)))) }

def Seg.longest (a : Seg) : Nat := max (max (a.whole.getD 0) (a.first.getD 0)) (max (a.mid.getD 0) (a.last.getD 0))

abbrev Segs := List (Nat × Seg)

def Segs.at (m : Segs) (k : Nat) : Seg := ((m.find? fun e => e.1 == k).map (·.2)).getD {}
def Segs.merge (f : Seg → Seg → Seg) (a b : Segs) : Segs :=
  (a.map fun e => (e.1, f e.2 (Segs.at b e.1))) ++ (b.filter fun e => !(a.any fun x => x.1 == e.1)).map fun e => (e.1, f {} e.2)

/-! ### Costs (R38) -/

/-- The figures of a path. -/
structure Cost where
  c : Nat := 0
  z : Nat := 0
  /-- the own terms of its JAPPENDs, for A_r -/
  own : Nat := 0
  /-- port time per TGT -/
  t : Sums := []
  /-- ring cells per node -/
  cells : Sums := []
  /-- requests and held time per SHARED port -/
  req : Sums := []
  held : Sums := []
  segs : Segs := []
  /-- the first offset found unboundable on some path -/
  bad : Option Nat := none
deriving DecidableEq, Repr

def optMin : Option Nat → Option Nat → Option Nat
  | some a, some b => some (min a b)
  | some a, none => some a
  | none, b => b

def Cost.plus (a b : Cost) : Cost :=
  { c := a.c + b.c, z := a.z + b.z, own := a.own + b.own, t := a.t.plus b.t, cells := a.cells.plus b.cells, req := a.req.plus b.req
    held := a.held.plus b.held, segs := Segs.merge Seg.plus a.segs b.segs, bad := optMin a.bad b.bad }
def Cost.join (a b : Cost) : Cost :=
  { c := max a.c b.c, z := max a.z b.z, own := max a.own b.own, t := a.t.join b.t, cells := a.cells.join b.cells, req := a.req.join b.req
    held := a.held.join b.held, segs := Segs.merge Seg.join a.segs b.segs, bad := optMin a.bad b.bad }
def Cost.times (a : Cost) (k : Nat) : Cost :=
  { c := a.c * k, z := a.z * k, own := a.own * k, t := a.t.times k, cells := a.cells.times k, req := a.req.times k
    held := a.held.times k, segs := a.segs.map fun e => (e.1, e.2.times k), bad := a.bad }

/-- Either of two paths, where there is one. -/
def joinCost : Option Cost → Option Cost → Option Cost
  | some a, some b => some (a.join b)
  | some a, none => some a
  | none, b => b

/-! ### One CCW (Table 2.6) -/

/-- A G queue as admission sees it. -/
structure GQueue where
  q : QRef
  sag : Nat
  cp : Nat
  depth : Nat
  schs : List Nat
  plist : List DWord
deriving DecidableEq, Repr

/-- What a CCW charges, where the flow goes, and what it names. -/
structure Step where
  succ : List Nat := []
  c : Nat := 0
  z : Nat := 0
  own : Nat := 0
  t : Option (Nat × Nat) := none
  cells : Option (Nat × Nat) := none
  /-- a line CCW on a SHARED port, and whether its end is no break point -/
  line : Option (Nat × Bool) := none
  claim : Option Nat := none
  release : Option Nat := none
  /-- a LOOP back: its body start and its counter -/
  loop : Option (Nat × Nat) := none
  setc : Option (Nat × Nat) := none
  /-- the reasons it fails, with the TGT where there is one -/
  issues : List (Nat × Option Nat) := []
  pages : List Nat := []
  port : Option Nat := none
  channel : Option Nat := none
  nsid : Option Nat := none
deriving DecidableEq, Repr

/-- The ring round trip of a remote CCW (R360). -/
def State.ringZ (s : State) (d : Nat) : Nat :=
  let peer := s.peer d
  2 * (s.kiln.perInForce * 1000 / 16 + 1000 + peer.qeff * 640) + 2 * max peer.dlyA peer.dlyB + 1000

/-- The cells of a remote CCW: the larger of its two messages (R38). -/
def Ccw.ringCells (c : Ccw) (i2c : Bool) : Nat :=
  let tx := if c.op == 0x0A then c.count.toNat else c.txLen
  let rx := if c.op == 0x0B then c.count.toNat else c.rxLen i2c
  max (1 + ceilDiv tx 64) (1 + ceilDiv rx 64)

/-- The elements of a buffer list that a transfer of `need` bytes consumes: their number, the failures, their pages (R53, R39). -/
def State.walkList (s : State) (sag : Nat) (isRead : Bool) (tgt : Nat) : Nat → DWord → Nat → Nat × List (Nat × Option Nat) × List Nat
  | 0, _, _ => (0, [], [])
  | k + 1, a, need =>
    if need = 0 then (0, [], [])
    else if !isLs a || lsResv a || !s.lsMapped sag (lsOff a) 16 then (0, [(rLocation, some tgt)], [])
    else
      let e := s.lsRead sag (lsOff a) 16
      let n := leAt e 8 4
      let here := pagesOf (lsOff a) 16
      if n = 0 || decide (2 ^ 24 < n) || leAt e 12 4 ≠ 0 then (1, [], here)
      else
        let bad := if leAt e 0 8 < 2 ^ 63 && !isRead then [(rUnbounded, some tgt)] else []
        let (m, is, ps) := State.walkList s sag isRead tgt k (DWord.plus a 16) (need - n)
        (m + 1, bad ++ is, here ++ ps)

/-- The right a condition needs (R76). -/
def State.condIssue (s : State) (sag code : Nat) : List (Nat × Option Nat) :=
  match condPort code with
  | some p => if s.mayObserve sag p then [] else [(rRights, some (512 * s.lnk.node + p))]
  | none => []

/-- A port CCW. -/
def State.walkPort (s : State) (g : GQueue) (c : Ccw) (b : Step) : Step :=
  let p := c.port
  let tgt := c.tgt.toNat
  let remote := s.isRemote c
  let i2c := s.ccwI2c c
  if !kindAccepts p c.op then { b with succ := [] }
  else
    let writes := c.op == 0x01 || c.op == 0x03 || c.op == 0x05
    let right := remote || p == 0x1FF || (if writes then s.mayActuate g.sag p else s.mayObserve g.sag p)
    let lst := if c.list && c.usesAddr then s.walkList g.sag (c.op == 0x02) tgt 256 c.addr (c.bufLen i2c) else (0, [], [])
    let hostBad := c.usesAddr && !c.list && !isLs c.addr && c.op != 0x02
    let shared := !remote && decide (portKind p ≤ 3) && s.portShared p
    { b with
      c := b.c + lst.1
      z := if remote then s.ringZ c.node else 0
      t := some (tgt, s.portCharge p c)
      cells := if remote then some (c.node, c.ringCells i2c) else none
      line := if shared then some (p, c.hold || c.span) else none
      port := if remote then none else some p
      pages := lst.2.2
      issues := b.issues ++ lst.2.1 ++ (if hostBad || (i2c && !remote && s.respNs p == 0) then [(rUnbounded, some tgt)] else []) ++
        (if right then [] else [(rRights, some tgt)]) }

/-- STAGE and SNAP. -/
def State.walkImage (s : State) (g : GQueue) (c : Ccw) (b : Step) : Step :=
  let p := c.port
  let remote := s.isRemote c
  if !kindAccepts p c.op || (c.op == 0x0A && !isLs c.addr) then { b with succ := [] }
  else
    let right := remote || p == 0x1FF || (if c.op == 0x0A then s.mayActuate g.sag p else s.mayObserve g.sag p)
    { b with
      z := if remote then s.ringZ c.node else 0
      t := if remote then some (c.tgt.toNat, 0) else none
      cells := if remote then some (c.node, c.ringCells false) else none
      port := if remote then none else some p
      issues := b.issues ++ if right then [] else [(rRights, some c.tgt.toNat)] }

/-- MOVE (R188). -/
def State.walkMove (s : State) (g : GQueue) (c : Ccw) (b : Step) : Step :=
  if !s.descAt g.sag c.addr then { b with succ := [] }
  else
    let m := moveCfg (s.lsRead g.sag (lsOff c.addr) 32) c.count.toNat
    let x := s.bm m.chan
    let srcHost := !m.sPort && (!isLs m.src || (m.sgs && (s.walkList g.sag false 0 256 m.src m.count).2.1.any fun i => i.1 == rUnbounded))
    let mine := x.en && x.sag == g.sag
    let free := decide (g.depth = 1) && (match x.gres with | some q => q == g.q | none => x.state == .idle)
    { b with
      z := 200 + ceilDiv c.count.toNat 4
      channel := some m.chan
      port := if m.sPort then some m.srcP else if m.dPort then some m.dstP else none
      issues := b.issues ++ (if srcHost || !free then [(rUnbounded, none)] else []) ++
        (if mine && s.bmRights g.sag m then [] else [(rRights, if m.sPort then some (512 * s.lnk.node + m.srcP) else if m.dPort then some (512 * s.lnk.node + m.dstP) else none)]) }

/-- JAPPEND: `jg` is the sum of d·A over the G queues, in which its own term stands for itself (R38). -/
def State.walkJappend (s : State) (g : GQueue) (jg : Nat) (c : Ccw) (b : Step) : Step :=
  if c.count ≠ 32 || !s.descAt g.sag c.addr then { b with succ := [] }
  else
    let d := s.lsRead g.sag (lsOff c.addr) 32
    let nsid := leAt d 0 4
    let coding := w32 (leAt d 4 4)
    let ns := leAt d 16 4
    if !codingOk coding || !samplesOk coding ns then { b with succ := [] }
    else
      let x := s.ns nsid
      let owned := nsid ≠ 0 && decide (nsid < 1024) && x.exist && x.owner == g.sag
      { b with
        z := 3000 + 18944 + jg
        own := 4 * (fNch coding * ns) + 2560 * ceilDiv (rawLen coding ns) 4096
        nsid := some nsid
        succ := if owned && x.type == .linear then [] else b.succ
        issues := b.issues ++ if owned then [] else [(rUnbounded, none)] }

/-- The charge and the flow of the CCW at a local-store offset. -/
def State.walkStep (s : State) (g : GQueue) (jg off : Nat) : Step :=
  if !s.lsMapped g.sag off 16 then { issues := [(rLocation, none)] }
  else
    let c := Ccw.ofBytes (s.lsRead g.sag off 16)
    let b : Step := {
      c := wuOf c.op, pages := pagesOf off 16
      succ := if c.cont || c.span then [off + 16] else []
      issues := if c.pause then [(rUnbounded, none)] else [] }
    let stop : Step := { b with succ := [] }
    let op := c.op
    let two := if c.cont then [off + 16, off + 32] else []
    let lsT := isLs c.addr && !lsResv c.addr && fld c.addr 0 4 == 0
    let t := lsOff c.addr
    if !c.step1 then stop
    else if op == 0x01 || op == 0x02 || op == 0x03 || op == 0x04 || op == 0x05 then
      let w := s.walkPort g c b
      { w with pages := b.pages ++ w.pages }
    else if op == 0x0A || op == 0x0B then s.walkImage g c b
    else if op == 0x08 then s.walkMove g c b
    else if op == 0x09 then
      if c.count = 0 then
        if s.isRemote c || !decide (1 ≤ portKind c.port ∧ portKind c.port ≤ 3) then stop
        else { b with
          z := 1000, port := some c.port
          issues := b.issues ++ if s.mayObserve g.sag c.port then [] else [(rRights, some c.tgt.toNat)] }
      else { b with z := 1000, issues := b.issues ++ if isLs c.addr then [] else [(rUnbounded, none)] }
    else if op == 0x10 then
      if !isLs c.addr then { stop with issues := [(rUnbounded, none)] }
      else if !lsT then stop
      else if t ≤ off then { stop with issues := [(rUnbounded, none)] }
      else if s.lsMapped g.sag t 16 && (s.lsRead g.sag t 1) == [0x10] then stop
      else { b with succ := [t] }
    else if op == 0x11 then
      if !condValid c.condCode then stop else { b with succ := two, issues := b.issues ++ s.condIssue g.sag c.condCode }
    else if op == 0x12 then
      if c.count = 0 then stop
      else { b with z := 1000 * c.count.toNat, issues := b.issues ++ if s.xa ≤ 1000 * c.count.toNat then [(rUnbounded, none)] else [] }
    else if op == 0x13 then
      if !condValid c.condCode then stop
      else { b with
        succ := two, z := 1000 * fld c.addr 0 32
        issues := b.issues ++ s.condIssue g.sag c.condCode ++ if fld c.addr 0 32 = 0 then [(rUnbounded, none)] else [] }
    else if op == 0x14 then { b with issues := b.issues ++ [(rUnbounded, none)] }
    else if op == 0x15 then
      if !lsT then stop
      else if !c.cont then stop
      else if t ≤ off then { b with loop := some (t, fld c.count 0 2) }
      else { b with succ := [off + 16, t] }
    else if op == 0x16 then { b with setc := some (fld c.addr 0 2, c.count.toNat) }
    else if op == 0x1C || op == 0x1D then
      if s.isRemote c || !decide (1 ≤ portKind c.port ∧ portKind c.port ≤ 3) || !s.portShared c.port then stop
      else { b with port := some c.port, claim := if op == 0x1C then some c.port else none, release := if op == 0x1D then some c.port else none }
    else if op == 0x20 then s.walkJappend g jg c b
    else if op == 0x7F then { b with succ := [] }
    else b

/-! ### Reachable CCWs -/

/-- The offsets the flow reaches. -/
def State.reach (s : State) (g : GQueue) : Nat → List Nat → List Nat → List Nat
  | 0, _, seen => seen
  | _ + 1, [], seen => seen
  | k + 1, o :: rest, seen =>
    if seen.contains o then State.reach s g k rest seen
    else
      let st := s.walkStep g 0 o
      State.reach s g k (st.succ ++ (st.loop.map (·.1)).toList ++ rest) (insertBy id o seen)

/-- A bound of the walks: more than the CCWs a view can hold, each with its two ways. -/
def walkFuel : Nat := 4194304

/-! ### Paths -/

/-- The effect of one CCW on a path that holds the grants `held`: its figures, and the grants after it (R246 to R249, R254). -/
def Step.effect (st : Step) (held : List Nat) : Cost × List Nat :=
  let base : Cost := { c := st.c, z := st.z, own := st.own, t := st.t.toList, cells := st.cells.toList }
  let waits : Cost := if st.z = 0 then {} else { held := held.map fun p => (p, st.z), segs := held.map fun p => (p, { whole := some st.z }) }
  let ask (p : Nat) : Cost := if held.contains p then {} else { req := [(p, 1)] }
  let drop (p : Nat) : List Nat := held.filter (· != p)
  match st.line, st.claim, st.release with
  | some (p, keep), _, _ =>
    let w := (st.t.map (·.2)).getD 0
    let seg : Seg := if keep then { whole := some w } else { whole := none, first := some w, last := some 0 }
    ((base.plus waits).plus ((ask p).plus { held := [(p, w)], segs := [(p, seg)] }), if keep then p :: drop p else drop p)
  | none, some p, _ => ((base.plus waits).plus (ask p), p :: drop p)
  | none, none, some p => ((base.plus waits).plus { segs := [(p, { whole := none, first := some 0, last := some 0 })] }, drop p)
  | none, none, none => (base.plus waits, held)

/-- Set a counter's value. -/
def setCtr (ctr : List (Option Nat)) : Option (Nat × Nat) → List (Option Nat)
  | some (i, v) => ctr.set i (some v)
  | none => ctr

/-- A LOOP on the flow: its offset, its body start, its counter. -/
abbrev LoopAt := Nat × Nat × Nat

/-- The LOOPs among the offsets reached. -/
def State.loops (s : State) (g : GQueue) (seen : List Nat) : List LoopAt :=
  seen.filterMap fun o => (s.walkStep g 0 o).loop.map fun l => (o, l.1, l.2)

/-- The figures from an offset to the program's end, or with `stop` to that LOOP; none = no path arrives there. A LOOP's body is
charged max(count, 1) times: at its start, all passes but the last are added, and the last one goes on past the LOOP. -/
def State.walk (s : State) (g : GQueue) (jg : Nat) (ls : List LoopAt) :
    Nat → Nat → List Nat → List (Option Nat) → List Nat → Option Nat → Option Cost
  | 0, off, _, _, _, _ => some { bad := some off }
  | k + 1, off, held, ctr, active, stop =>
    if stop == some off then some {}
    else
      let st := s.walkStep g jg off
      let rest (held : List Nat) (ctr : List (Option Nat)) (active : List Nat) : Option Cost :=
        let (e, held') := st.effect held
        let ctr' := setCtr ctr st.setc
        let next := st.succ.foldl (fun acc o => joinCost acc (State.walk s g jg ls k o held' ctr' active stop)) none
        match next with
        | some c => some (e.plus c)
        | none => if st.succ.isEmpty && stop.isNone then some e else none
      match ls.find? fun l => l.2.1 == off && !active.contains l.1 with
      | some (lo, _, i) =>
        let last := State.walk s g jg ls k off held ctr (lo :: active) stop
        match ctr.getD i none with
        | none => last.map fun c => { c with bad := optMin c.bad (some lo) }
        | some v =>
          match State.walk s g jg ls k off held ctr (lo :: active) (some lo) with
          | some body => last.map fun c => c.plus ((body.plus { c := 2 }).times (max v 1 - 1))
          | none => last
      | none => rest held ctr active

/-! ### Programs and queues -/

/-- The figures of one program, with its failures: reason, offset, TGT. -/
structure ProgFig where
  cost : Cost := {}
  issues : List (Nat × Nat × Option Nat) := []
  pages : List Nat := []
  ports : List Nat := []
  shared : List Nat := []
  channels : List Nat := []
  nsids : List Nat := []
deriving DecidableEq, Repr

/-- A LOOP body holds no SETC (Table 2.6). -/
def State.loopIssues (s : State) (g : GQueue) (seen : List Nat) (ls : List LoopAt) : List (Nat × Nat × Option Nat) :=
  (ls.filter fun l => seen.any fun o => decide (l.2.1 ≤ o ∧ o ≤ l.1) && (s.walkStep g 0 o).setc.isSome).map fun l => (rUnbounded, l.1, none)

/-- Walk a program (R38, R148). -/
def State.walkProg (s : State) (g : GQueue) (jg : Nat) (prog : DWord) : ProgFig :=
  if !isLs prog then { issues := [(rUnbounded, 0xFFFFFFFF, none)] }
  else if lsResv prog || fld prog 0 4 ≠ 0 then { issues := [(rLocation, lsOff prog, none)] }
  else
    let start := lsOff prog
    let seen := s.reach g walkFuel [start] []
    let ls := s.loops g seen
    let cost := (s.walk g jg ls walkFuel start [] [none, none, none, none] [] none).getD {}
    let steps := seen.map fun o => (o, s.walkStep g jg o)
    { cost
      issues := (steps.flatMap fun e => e.2.issues.map fun i => (i.1, e.1, i.2)) ++ s.loopIssues g seen ls ++
        cost.bad.toList.map fun o => (rUnbounded, o, none)
      pages := (steps.flatMap fun e => e.2.pages).eraseDups
      ports := (steps.filterMap fun e => e.2.port).eraseDups
      shared := (steps.filterMap fun e => (e.2.line.map (·.1)).orElse fun _ => e.2.claim.orElse fun _ => e.2.release).eraseDups
      channels := (steps.filterMap fun e => e.2.channel).eraseDups
      nsids := (steps.filterMap fun e => e.2.nsid).eraseDups }

/-- The figures of a queue (R38, R254). -/
structure QueueFig where
  g : GQueue
  progs : List ProgFig
  c : Nat := 0
  own : Nat := 0
  /-- T_q per port of this node; per remote TGT; N_q per node -/
  t : Sums := []
  remote : Sums := []
  cells : Sums := []
  held : Sums := []
  segs : Sums := []
deriving DecidableEq, Repr

/-- A TGT of this node, as its port number. -/
def State.localPort (s : State) (tgt : Nat) : Option Nat := if tgt / 512 = s.lnk.node then some (tgt % 512) else none

/-- Walk a queue. -/
def State.walkQueue (s : State) (g : GQueue) (jg : Nat) : QueueFig :=
  let ps := g.plist.map (s.walkProg g jg)
  let t := ps.foldl (fun m p => Sums.join m p.cost.t) ([] : Sums)
  { g, progs := ps
    c := ps.foldl (fun n p => max n p.cost.c) 0
    own := ps.foldl (fun n p => max n p.cost.own) 0
    t := t.filterMap fun e => (s.localPort e.1).map fun p => (p, e.2)
    remote := t.filter fun e => (s.localPort e.1).isNone
    cells := ps.foldl (fun m p => Sums.join m p.cost.cells) ([] : Sums)
    held := ps.foldl (fun m p => Sums.join m p.cost.held) ([] : Sums)
    segs := ps.foldl (fun m p => Sums.join m (p.cost.segs.map fun e => (e.1, e.2.longest))) ([] : Sums) }

/-- Walk all queues: A_r first, then everything with J_G (R38). -/
def State.walkAll (s : State) (gs : List GQueue) : List QueueFig :=
  let jg := (gs.map fun g => g.depth * (s.walkQueue g 0).own).foldl (· + ·) 0
  gs.map fun g => s.walkQueue g jg

end Sys2Proof.Machine
end

