-- ==== Sys2Proof/Machine/Admission.lean ====
section
/-! DEFINITION. Admission (section 2.5, R147 step 6, R254, R255, R360): the tests of Table 2.5 over the G queues together, their
outcome as the report of Table 6.4, what an admitted queue holds, and the check of a table write (R41). -/

namespace Sys2Proof.Machine

/-- What a remote target answered: TGT, its sum of d·T_p, its B_p (R360). -/
abbrev RemoteFig := List (Nat × Nat × Nat)

/-- A G queue under test, with its figures and its targets' answers. -/
structure Cand where
  fig : QueueFig
  far : RemoteFig := []
deriving DecidableEq, Repr

def Cand.g (c : Cand) : GQueue := c.fig.g

/-- How the tests end. -/
structure Verdict where
  reason : Nat := 0
  q : Option QRef := none
  prog : Option Nat := none
  tgt : Option Nat := none
  off : Option Nat := none
  val : Nat := 0
  lim : Nat := 0
deriving DecidableEq, Repr

/-- The G queues that exist, as admission sees them. -/
def State.existingG (s : State) : List (GQueue × RemoteFig) :=
  s.admitted.map fun a => ({ q := a.q, sag := a.sag, cp := a.cp, depth := a.depth, schs := a.schs, plist := a.plist }, a.remote)

/-- Walk G queues together. -/
def State.candidates (s : State) (gs : List (GQueue × RemoteFig)) : List Cand :=
  ((s.walkAll (gs.map (·.1))).zip gs).map fun e => { fig := e.1, far := e.2.2 }

/-! ### Boundable, rights, location (tests of single CCWs) -/

/-- SHARED ports of a program on which some subchannel of the queue has no slot (R254). -/
def State.unbound (s : State) (g : GQueue) (p : ProgFig) : Option Nat :=
  p.shared.find? fun port => g.schs.any fun n => (s.slotOn port n).isNone

/-- The first failure with a reason in a program: the lowest offset. -/
def ProgFig.first (p : ProgFig) (r : Nat) : Option (Nat × Option Nat) :=
  let hits := p.issues.filter fun i => i.1 == r
  (sortBy (fun i => i.2.1) hits).head?.map fun i => i.2

/-- The first program of a queue that fails with a reason. -/
def State.firstIssue (s : State) (c : Cand) (r : Nat) : Option Verdict :=
  (c.fig.progs.zipIdx).findSome? fun (p, i) =>
    match p.first r with
    | some (off, tgt) =>
      some { reason := r, q := some c.g.q, prog := some i, tgt := if r = rRights then tgt else none, off := if r = rRights then none else some off }
    | none =>
      if r = rRights then
        (s.unbound c.g p).map fun port => { reason := r, q := some c.g.q, prog := some i, tgt := some (512 * s.lnk.node + port) }
      else none

/-! ### Sums over the queues -/

/-- Σ d·C on a processor. -/
def cpSum (cs : List Cand) (cp : Nat) : Nat := cs.foldl (fun n c => if c.g.cp == cp then n + c.g.depth * c.fig.c else n) 0

/-- Σ d·T_p on a port of this node, remote reservations included (R427). -/
def State.portSum (s : State) (cs : List Cand) (p : Nat) : Nat :=
  cs.foldl (fun n c => n + c.g.depth * Sums.at c.fig.t p) 0 +
    s.lnk.resvs.foldl (fun n r => n + r.depth * Sums.at r.ports p) 0

/-- Σ d·N between this node and node `d`, both directions (R348). -/
def State.cellSum (s : State) (cs : List Cand) (d : Nat) : Nat :=
  cs.foldl (fun n c => n + c.g.depth * Sums.at c.fig.cells d) 0 +
    s.lnk.resvs.foldl (fun n r => if r.src == d then n + r.depth * r.cells else n) 0

/-- B_p: SEG_NS, or 0 on a SHARED port (Table 2.5). -/
def State.bp (s : State) (p : Nat) : Nat := if s.portShared p then 0 else s.segNs p

/-- Ports with a sum. -/
def sumPorts (cs : List Cand) : List Nat := (cs.foldl (fun m c => Sums.plus m c.fig.t) ([] : Sums)).map (·.1)

/-- Nodes with a cell sum. -/
def sumNodes (cs : List Cand) : List Nat := (cs.foldl (fun m c => Sums.plus m c.fig.cells) ([] : Sums)).map (·.1)

/-! ### Claims (R40, R254) -/

/-- The G queue that reserves a subchannel. -/
def gOfSch (cs : List Cand) (n : Nat) : Option Cand := cs.find? fun c => c.g.schs.contains n

/-- K_s of slot `k` of a group on port `p`; none = the claim is starved. -/
def slotWait (cs : List Cand) (x : ClaimGroup) (p k : Nat) : Option Nat :=
  let others := (List.range 16).filter fun j => j != k && (x.slot j).bound
  let starves (j : Nat) : Bool := (gOfSch cs (x.slot j).sch).isNone && (decide (k < j) || (x.slot j).seglim == 0)
  if others.any starves then none
  else
    let seg (j : Nat) : Nat := match gOfSch cs (x.slot j).sch with
      | some c => Sums.at c.fig.segs p
      | none => (x.slot j).seglim
    let held (j : Nat) : Nat := match gOfSch cs (x.slot j).sch with
      | some c => Sums.at c.fig.held p
      | none => 0
    some (((others.filter (· < k)).foldl (fun n j => max n (seg j)) 0) + ((others.filter fun j => decide (k < j)).foldl (fun n j => n + held j) 0))

/-- The largest K of a queue's slots on a port; none = starved. A queue without a slot there fails with RIGHTS before. -/
def State.claimWait (s : State) (cs : List Cand) (c : Cand) (p : Nat) : Option Nat :=
  match s.groupOf p with
  | none => some 0
  | some g =>
    let x := s.claim g
    c.g.schs.foldl (fun acc n =>
      match acc, x.slotOf n with
      | some k, some slot => (slotWait cs x p slot).map (max k)
      | acc, _ => acc) (some 0)

/-- The SHARED ports on which a queue requests. -/
def Cand.claims (c : Cand) : List Nat := ((c.fig.progs.foldl (fun m p => Sums.plus m p.cost.req) ([] : Sums)).filter fun e => e.2 != 0).map (·.1)

/-- A queue with a starved claim. -/
def State.starvedClaim (s : State) (cs : List Cand) : Option Verdict :=
  cs.findSome? fun c => (c.claims.find? fun p => (s.claimWait cs c p).isNone).map fun p =>
    { reason := rStarved, q := some c.g.q, tgt := some (512 * s.lnk.node + p) }

/-- K(π). -/
def State.progK (s : State) (cs : List Cand) (c : Cand) (p : ProgFig) : Nat :=
  p.cost.req.foldl (fun n e => n + e.2 * (s.claimWait cs c e.1).getD 0) 0

/-! ### Latency (Table 2.5) -/

/-- The latency sum of a program. -/
def State.latency (s : State) (cs : List Cand) (c : Cand) (p : ProgFig) : Nat :=
  let ports := p.cost.t.foldl (fun n e => n +
    match s.localPort e.1 with
    | some port => s.portSum cs port + s.bp port
    | none => match c.far.find? fun f => f.1 == e.1 with
      | some (_, sum, b) => sum + b
      | none => 0) 0
  1020 + 10 * cpSum cs c.g.cp + ports + p.cost.z + s.progK cs c p

/-- The ports of this node that a queue's programs address, charged or not: a CLAIM or a FENCE addresses its port too. -/
def Cand.ports (c : Cand) : List Nat := c.fig.progs.flatMap (·.ports)

/-- Is a queue tested for latency when `q` is created? It shares a processor or a port with it, or both contain a JAPPEND. -/
def touches (q c : Cand) : Bool :=
  c.g.q == q.g.q || c.g.cp == q.g.cp || (c.ports.any fun p => q.ports.contains p) ||
    (c.fig.remote.any fun e => q.fig.remote.any fun f => f.1 == e.1) || (decide (c.fig.own ≠ 0) && decide (q.fig.own ≠ 0))

/-- The programs whose latency sum fails: one that waits for claims first, whose claims are then starved (R40). -/
def State.lateProg (s : State) (cs tested : List Cand) : Option Verdict :=
  let tooLate := tested.flatMap fun c => (c.fig.progs.zipIdx).filterMap fun (p, i) =>
    let l := s.latency cs c p
    if s.xa < l then some (c, p, i, l) else none
  match tooLate.find? fun e => s.progK cs e.1 e.2.1 ≠ 0 with
  | some (c, p, i, l) =>
    let port := p.cost.req.foldl (fun b e =>
      let k := e.2 * (s.claimWait cs c e.1).getD 0
      if b.2 < k then (e.1, k) else b) (0, 0)
    some { reason := rStarved, q := some c.g.q, prog := some i, tgt := some (512 * s.lnk.node + port.1), val := l, lim := s.xa }
  | none => tooLate.head?.map fun (c, _, i, l) => { reason := rLatency, q := some c.g.q, prog := some i, val := l, lim := s.xa }

/-! ### All tests, in the order of R147 -/

/-- The first test that fails over the queues `cs`; `new` is the queue being created, and without it every queue is tested in
full (R41). -/
def State.admitTests (s : State) (cs : List Cand) (new : Option Cand) : Verdict :=
  let own := match new with | some c => [c] | none => cs
  let single := [rUnbounded, rRights, rLocation].findSome? fun r => own.findSome? fun c => s.firstIssue c r
  let cps := (match new with | some c => [c.g.cp] | none => List.range 32)
  let cpFail := (cps.find? fun cp => decide (s.cpLimit < cpSum cs cp)).map fun cp =>
    ({ reason := rCpBudget, q := (own.find? fun c => c.g.cp == cp).map fun c => c.g.q, val := cpSum cs cp, lim := s.cpLimit } : Verdict)
  let whose (f : Cand → Bool) : Option QRef := ((own.find? f).orElse fun _ => cs.find? f).map fun c => c.g.q
  let portFail := ((sumPorts cs).find? fun p => decide (s.portLimit < s.portSum cs p)).map fun p =>
    ({ reason := rPortTime, q := whose fun c => Sums.at c.fig.t p != 0, tgt := some (512 * s.lnk.node + p), val := s.portSum cs p, lim := s.portLimit } : Verdict)
  let cellFail := ((sumNodes cs).find? fun d => decide ((s.peer d).qeff < s.cellSum cs d)).map fun d =>
    ({ reason := rCells, q := whose fun c => Sums.at c.fig.cells d != 0, val := s.cellSum cs d, lim := (s.peer d).qeff } : Verdict)
  let tested := match new with | some q => q :: cs.filter fun c => c.g.q != q.g.q && touches q c | none => cs
  (single.orElse fun _ => cpFail.orElse fun _ => portFail.orElse fun _ => cellFail.orElse fun _ =>
    (s.starvedClaim cs).orElse fun _ => s.lateProg cs tested).getD {}

/-! ### The report (R149, Table 6.4) -/

/-- The number of a queue in FAIL_SQ. -/
def QRef.failSq : QRef → Nat
  | .sq n => n
  | .shp => 0xFFFF
  | .auto k => 0xFF00 + k

/-- How far the tests came: the reason's place in the order of R147. -/
def reasonRank (r : Nat) : Nat :=
  if r = rUnbounded then 1 else if r = rRights then 2 else if r = rLocation then 3 else if r = rCpBudget then 4
  else if r = rPortTime then 5 else if r = rCells then 6 else if r = rStarved then 7 else if r = rLatency then 8 else 9

/-- The report. A quantity that no test reached reads zero; one reached without a failure reads its value for none. -/
def State.report256 (s : State) (cs : List Cand) (c : Cand) (v : Verdict) : List Byte :=
  let r := reasonRank v.reason
  let reached (k n : Nat) : Nat := if k ≤ r then n else 0
  let z := c.fig.progs.foldl (fun n p => max n p.cost.z) 0
  let k := c.fig.progs.foldl (fun n p => max n (s.progK cs c p)) 0
  let cells := c.fig.cells.foldl (fun n e => max n e.2) 0
  let lat := c.fig.progs.foldl (fun n p => max n (s.latency cs c p)) 0
  let claimed := v.reason = rStarved ∧ v.prog.isSome
  let none16 (o : Option Nat) (from_ : Nat) : Nat := match o with | some n => n | none => reached from_ 0xFFFF
  let t := sortBy (·.1) ((c.fig.t.map fun e => (512 * s.lnk.node + e.1, e.2)) ++ c.fig.remote.filter fun e => e.2 != 0)
  leBytes 1 v.reason ++ leBytes 1 c.g.cp ++ leBytes 2 (reached 4 t.length) ++ leBytes 4 (reached 4 c.fig.c) ++ leBytes 4 (reached 4 z) ++
    leBytes 4 (if decide (claimed) || 8 ≤ r then k else 0) ++ leBytes 4 (reached 4 cells) ++
    leBytes 4 (if decide (claimed) || 8 ≤ r then lat else 0) ++ leBytes 4 (reached 4 (cpSum cs c.g.cp)) ++ leBytes 4 s.cpLimit ++
    leBytes 4 s.xa ++ leBytes 2 (none16 v.prog 9) ++ leBytes 2 (none16 v.tgt 8) ++
    leBytes 4 (match v.off with | some n => n | none => reached 4 0xFFFFFFFF) ++ leBytes 4 v.val ++ leBytes 4 v.lim ++
    leBytes 2 (match v.q with | some q => q.failSq | none => 0xFFFF) ++ zeros 10 ++
    padTo 192 ((if 4 ≤ r then t.take 24 else []).flatMap fun e => leBytes 2 e.1 ++ zeros 2 ++ leBytes 4 e.2)

/-! ### Holding an admitted queue -/

/-- What admission keeps of a queue. -/
def State.hold (s : State) (cs : List Cand) (c : Cand) : Admitted :=
  let f := c.fig
  { q := c.g.q, sag := c.g.sag, cp := c.g.cp, depth := c.g.depth, schs := c.g.schs, plist := c.g.plist, c := f.c
    z := f.progs.foldl (fun n p => max n p.cost.z) 0
    k := f.progs.foldl (fun n p => max n (s.progK cs c p)) 0
    lat := f.progs.foldl (fun n p => max n (s.latency cs c p)) 0
    ports := f.t, addressed := (f.progs.flatMap (·.ports)).eraseDups, cells := f.cells, jappend := f.own
    jnsids := (f.progs.flatMap (·.nsids)).eraseDups, channels := (f.progs.flatMap (·.channels)).eraseDups, remote := c.far }

/-- Form the figures of every admitted queue anew (after a create, a release or a table write). -/
def State.refigure (s : State) : State :=
  if s.admitted.isEmpty then s
  else
    let cs := s.candidates s.existingG
    { s with admitted := cs.map (s.hold cs) }

/-- A queue is admitted: its figures count, its pages are program-locked (R39), its channels are reserved (R188). -/
def State.commitG (s : State) (cs : List Cand) (c : Cand) : State :=
  let a := s.hold cs c
  let pages := (c.fig.progs.flatMap (·.pages)).eraseDups
  let s := { s with
    admitted := s.admitted ++ [a]
    ls := { s.ls with locks := s.ls.locks ++ pages.map fun v => { q := a.q, sag := a.sag, view := v } } }
  let s := a.channels.foldl (fun (s : State) ch => s.updBm ch fun b => { b with gres := some a.q, spos := 0, dpos := 0 }) s
  s.refigure

/-- R41: with a changed table in `s`, does every admitted G queue still pass? -/
def State.recheck (s : State) : Verdict :=
  if s.admitted.isEmpty then {} else s.admitTests (s.candidates s.existingG) none

/-! ### Reserving subchannels (R147 step 5, R255) -/

/-- R255: a slot of the subchannel stands above a G slot, or below one with no segment limit. -/
def State.wbExcluded (s : State) (n : Nat) : Bool :=
  (List.range 16).any fun g =>
    let x := s.claim g
    x.en && match x.slotOf n with
      | none => false
      | some k => (List.range 16).any fun j =>
          j != k && (x.slot j).bound && s.schCls (x.slot j).sch == .g && (s.sch (x.slot j).sch).owner.isSome && (decide (j < k) || (x.slot k).seglim == 0)

/-- The first `d` contexts of a processor that qualify for a queue of the class. -/
def State.freeSchs (s : State) (cls : Cls) (cp d : Nat) : Option (List Nat) :=
  if s.health.failedCps.contains cp then none
  else
    let fit := ((List.range 8).map (· + 8 * cp)).filter fun n =>
      (s.sch n).owner.isNone && (s.sch n).state == .idle && (cls == .g || !s.wbExcluded n)
    if d ≤ fit.length then some (fit.take d) else none

/-- The processor and the contexts for a queue: the named processor, or with 0xFF the lowest that qualifies. -/
def State.placeQueue (s : State) (cls : Cls) (cp d : Nat) : Option (Nat × List Nat) :=
  if cp = 0xFF then (List.range 32).findSome? fun c => (s.freeSchs cls c d).map fun l => (c, l)
  else (s.freeSchs cls cp d).map fun l => (cp, l)

/-- The subchannels a saggar holds. -/
def State.schsHeld (s : State) (sag : Nat) : Nat := (s.schsOfSag sag).length

/-- The context mask of a list of subchannels: bit k is SCH 8·CP + k. -/
def ctxMask (l : List Nat) : BitVec 8 := l.foldl (fun m n => setBit m (n % 8) true) 0

/-- Reserve subchannels for a queue. -/
def State.reserve (s : State) (q : QRef) (l : List Nat) : State := l.foldl (fun s n => s.updSch n fun c => { c with owner := some q }) s

end Sys2Proof.Machine
end

