-- ==== Sys2Proof/Machine/Admin.lean ====
section
/-! DEFINITION. The admin queue and its commands (chapter 6): enabling, creates, resets and deletes, abort by CID, pages, namespaces,
features and queries. A command row acts on the running entry of its function's admin queue; with another opcode running, or
none, it has no effect. -/

namespace Sys2Proof.Machine

/-! ### Page pool (R154, R171, R176) -/

/-- Pages mapped in a saggar's view. -/
def State.pagesMapped (s : State) (sag : Nat) : Nat := (s.ls.view.filter fun e => e.1 / 4096 == sag).length

/-- Physical pages for `n` view pages: free ones first, then ones being zeroed, lowest first (log entry on R154). -/
def State.pickPages (s : State) (n : Nat) : Option (List Nat) :=
  let open_ := (List.range 4096).filter fun p => !s.promised.contains p
  let free := open_.filter fun p => s.pageState p == .free
  let zeroing := open_.filter fun p => !s.ls.retiring.contains p && (match s.pageState p with | .zeroing _ => true | _ => false)
  let all := free ++ zeroing
  if n ≤ all.length then some (all.take n) else none

/-- The physical pages that an ALLOC_PAGES takes; none = refused (R154). -/
def State.allocPages (s : State) (sag first n : Nat) : Option (List Nat) :=
  if 4096 < first + n || ((List.range n).any fun i => (s.viewPage sag (first + i)).isSome) || (s.sag sag).pageLim < s.pagesMapped sag + n then none
  else s.pickPages n

/-- Pages promised to a command that waits: one that has left the pool meanwhile is replaced by another (R154, Table 15.4); none =
too few are left. -/
def State.repick (s : State) (ps : List Nat) : Option (List Nat) :=
  let keep := ps.filter fun p => s.pageState p != .retired
  if keep.length = ps.length then some ps else (s.pickPages (ps.length - keep.length)).map (keep ++ ·)

/-- Are all these pages zeroed? -/
def State.pagesFree (s : State) (ps : List Nat) : Bool := ps.all fun p => s.pageState p == .free

/-- Unmap a view page; its zeroing begins. -/
def State.unmapPage (s : State) (sag v : Nat) : State :=
  match s.viewPage sag v with
  | none => s
  | some p =>
    let s := s.setPage p (.zeroing sag)
    { s with ls := { s.ls with view := s.ls.view.set none (4096 * sag + v) none } }

/-- FREE_PAGES (R154). -/
def State.freePages (s : State) (sag first n : Nat) : Status × State :=
  if 4096 < first + n || ((List.range n).any fun i => (s.viewPage sag (first + i)).isNone || s.ls.locks.any fun l => l.sag == sag && l.view == first + i) then
    (.refusedResource, s)
  else (.ok, (List.range n).foldl (fun s i => s.unmapPage sag (first + i)) s)

/-! ### Namespaces (R155) -/

/-- Namespaces and folios that a saggar owns; one being zeroed is nobody's (R178). -/
def State.nsOwned (s : State) (sag : Nat) : List (Nat × Ns) := s.nss.filter fun e => e.1 != 0 && e.2.exist && !e.2.zeroing && e.2.owner == sag
def State.foliosOwned (s : State) (sag : Nat) : Nat := (s.nsOwned sag).foldl (fun n e => n + e.2.nfol) 0

/-- `n` more folios and one more namespace stay within a saggar's limits (R155, R313). -/
def State.nsFits (s : State) (sag n : Nat) : Bool :=
  decide ((s.nsOwned sag).length + 1 ≤ (s.sag sag).nsLim) && decide (s.foliosOwned sag + n ≤ (s.sag sag).folioLim)

/-- An uncompleted journal command names the namespace: fetched, and its completion neither written nor covered (R155, R313). -/
def State.nsEntry (s : State) (nsid : Nat) : Bool :=
  let names (e : Entry) : Bool := e.kind == .journal && e.jrn.nsid == nsid
  (s.sqs.any fun e => (s.uncompleted e.1).any names) || s.shp.entries.any names

/-- An uncompleted journal command names the namespace, or a JAPPEND in progress. -/
def State.nsNamed (s : State) (nsid : Nat) : Bool :=
  s.nsEntry nsid || s.jrn.jobs.any fun j => j.nsid == nsid && match j.who with | .entry _ _ => true | .jappend _ => true | _ => false

/-- A JAPPEND of an admitted G program names it. -/
def State.nsAdmitted (s : State) (nsid : Nat) : Bool := s.admitted.any fun a => a.jnsids.contains nsid

/-- CREATE_NS (R155). -/
def State.createNs (s : State) (sag nsid typ n : Nat) : Status × State :=
  let x := s.ns nsid
  if nsid = 0 then (.refusedRights, s)
  else if x.exist then (.refusedResource, s)
  else if x.zeroing then (.jrnZeroing, s)
  else if !s.nsFits sag n || s.jrnFree < n then (.refusedResource, s)
  else (.ok, s.setNs nsid { owner := sag, exist := true, type := .ofNum typ, nfol := n, createStime := s.stime })

/-- DELETE_NS (R155, R289). -/
def State.deleteNs (s : State) (sag nsid : Nat) : Status × State :=
  let x := s.ns nsid
  if 1023 < nsid then (.jrnOutOfRange, s)
  else if x.zeroing then (.jrnZeroing, s)
  else if !x.exist then (.jrnOutOfRange, s)
  else if nsid = 0 || x.owner != sag || (x.type == .sealed && !x.delOk) then (.refusedRights, s)
  else if s.nsAdmitted nsid || s.nsNamed nsid then (.refusedResource, s)
  else (.ok, s.startZero nsid true sag)

/-! ### Enabling (R138) -/

/-- Objects of a saggar still being zeroed (Table 7.1). -/
def State.zbusy (s : State) (sag : Nat) : Nat :=
  (s.ls.pages.filter fun e => e.2 == .zeroing sag).length + (s.sqs.filter fun e => e.2.zeroing && e.2.fn == sag).length +
    (s.bms.filter fun e => e.2.zeroing && e.2.zeroFor == sag).length +
    (s.ports.filter fun e => e.2.zeroFor == some sag).length +
    (s.nss.filter fun e => e.2.zeroing && e.2.zeroFor == sag).length

/-- The admin registers are valid (Table 6.1). -/
def Fn.regsOk (f : Fn) : Bool :=
  baseOk f.sqb && baseOk f.cqb && decide (2 ≤ f.sqn ∧ f.sqn ≤ 256) && decide (2 ≤ f.cqn ∧ f.cqn ≤ 256)

/-- EN is 1 and is acted on: RDY, or CFG_ERR; held until READY and until the zeroing of an FLR has ended (R138, R161, R167, R177,
R436). -/
def State.admTryEnable (s : State) (fn : Nat) : State :=
  let f := s.fn fn
  if !s.dev.ready then s.setFn fn { f with enHeld := true }
  else if !(s.sag fn).en || s.shpBound fn || !f.regsOk then s.setFn fn { f with enHeld := false, cfgErr := true, rdy := false }
  else if s.zbusy fn ≠ 0 then s.setFn fn { f with enHeld := true, cfgErr := false }
  else s.setFn fn { f with enHeld := false, cfgErr := false, rdy := true, sqHead := 0, sqTail := 0, loose := false, cqHead := 0, cqTail := 0, cqPhase := true }

/-- A write of ADM_CTL.EN (R138). -/
def State.admEn (s : State) (fn : Nat) (en : Bool) : State :=
  let f := s.fn fn
  if en then
    if f.en then s else (s.setFn fn { f with en := true }).admTryEnable fn
  else if !f.en then s
  else (s.setFn fn { f with en := false, enHeld := false, draining := f.running.isSome, rdy := f.rdy && f.running.isSome }).hbDisarm fn

/-- ADM_CTL_ENABLE: a function writes ADM_CTL.EN = 1. -/
def execAdmCtlEnable (fn : Nat) (s : State) : Out :=
  act (.admCtlEnable fn) s fun s => if s.barOn fn then s.admEn fn true else s

/-- ADM_CTL_DISABLE: a function writes ADM_CTL.EN = 0. -/
def execAdmCtlDisable (fn : Nat) (s : State) : Out :=
  act (.admCtlDisable fn) s fun s => if s.barOn fn then s.admEn fn false else s

/-! ### The running command -/

/-- The admin opcodes that touch shared state: admission, the page pool, the folio pool, the limits (R159). -/
def sharedOp (op : Nat) : Bool := [0x83, 0x84, 0x8A, 0x8B, 0x8C, 0x8D].contains op

/-- A command that touches shared state has begun and is not applied yet; others that do so wait for it (R159). -/
def State.sharedHeld (s : State) : Bool := s.fns.any fun e => e.2.applying

/-- The admin command may act: one that has begun goes on; another waits while a table change is being checked (R424), and where it
touches shared state, for the command that began before it (R159 item 3). It begins with a later row. -/
def State.mayApply (s : State) (x : Fn) (op : Nat) : Bool :=
  x.applying || (s.msp.busy.isNone && !(sharedOp op && s.sharedHeld))

/-- Run the admin command of a function if its opcode is this one and its completion is still due. -/
def State.admin (s : State) (fn op : Nat) (f : Fn → State → State) : State :=
  let x := s.fn fn
  if x.opc = some op && x.heldAdmin.isNone && s.mayApply x op then f x s else s

/-- The status of a buffer of an admin command (section 6.2, R39). -/
def State.admBuf (s : State) (sag : Nat) (a : DWord) (len : Nat) : Option Status :=
  if (s.checkRange sag a len).isSome then some .addressCheck
  else if isLs a && s.lsLocked sag (lsOff a) len then some .protectionCheck
  else none

/-! ### Completion and event queues (R143 to R145) -/

/-- An SQ names the CQ. -/
def State.cqUsed (s : State) (n : Nat) : Bool := s.sqs.any fun e => e.2.state != .free && e.2.cq == n

/-- CREATE_CQ (R143). -/
def execCreateCq (fn : Nat) (s : State) : Out :=
  act (.createCq fn) s fun s => s.admin fn 0x80 fun f s =>
    let n := f.arg 4 2
    if !bit (s.sag fn).cqGrant n then s.admDone fn .refusedRights 0
    else if (s.cq n).exists_ then s.admDone fn .refusedResource 0
    else
      (s.setCq n { exists_ := true, fn, base := BitVec.ofNat 64 (f.arg 8 8), n := f.arg 16 2, vector := f.arg 18 1, aggCnt := f.arg 19 1, aggTime := f.arg 20 2 }).admDone fn .ok 0

/-- The CQ is the function's and no SQ names it (R144). -/
def State.cqFree (s : State) (fn n : Nat) : Bool := decide (n < 256) && (s.cq n).exists_ && (s.cq n).fn == fn && !s.cqUsed n

/-- DELETE_CQ (R144). -/
def execDeleteCq (fn : Nat) (s : State) : Out :=
  act (.deleteCq fn) s fun s => s.admin fn 0x81 fun f s =>
    let n := f.arg 4 2
    if s.cqFree fn n then (s.setCq n {}).admDone fn .ok 0 else s.admDone fn .refusedResource 0

/-- RESET_CQ (R144). -/
def execResetCq (fn : Nat) (s : State) : Out :=
  act (.resetCq fn) s fun s => s.admin fn 0x82 fun f s =>
    let n := f.arg 4 2
    if s.cqFree fn n then (s.updCq n fun q => { q with head := 0, tail := 0, phase := true, stallFr := 0, heldInFrame := false }).admDone fn .ok 0
    else s.admDone fn .refusedResource 0

/-- CREATE_EVQ (R145); events lost before are reported in its first entry (R132). -/
def execCreateEvq (fn : Nat) (s : State) : Out :=
  act (.createEvq fn) s fun s => s.admin fn 0x86 fun f s =>
    if f.evqOn then s.admDone fn .refusedResource 0
    else
      let s := s.setFn fn { f with evqOn := true, evqBase := BitVec.ofNat 64 (f.arg 8 8), evqN := f.arg 16 2, evqHead := 0, evqTail := 0, evqPhase := true }
      (s.evqOverflow fn).admDone fn .ok 0

/-- DELETE_EVQ (R145); without an event queue it is refused as CREATE_EVQ with one is, for which the spec names no status (log
entry 88). -/
def execDeleteEvq (fn : Nat) (s : State) : Out :=
  act (.deleteEvq fn) s fun s => s.admin fn 0x87 fun f s =>
    if f.evqOn then (s.setFn fn { f with evqOn := false, evqBase := 0, evqN := 0, evqHead := 0, evqTail := 0, evqPhase := true }).admDone fn .ok 0
    else s.admDone fn .refusedResource 0

/-- RESET_EVQ (R145): it runs until its completion is written, and events raised meanwhile are counted as lost. -/
def execResetEvq (fn : Nat) (s : State) : Out :=
  act (.resetEvq fn) s fun s => s.admin fn 0x88 fun f s =>
    if f.evqOn then (s.setFn fn { f with evqHead := 0, evqTail := 0, evqPhase := true, evqLost := 0 }).admDone fn .ok 0
    else s.admDone fn .refusedResource 0

/-! ### CREATE_SQ (R146 to R149, R360) -/

/-- The new context of an SQ. -/
def Fn.newSq (f : Fn) (fn cp : Nat) (schs : List Nat) (progs : List DWord) : Sq :=
  { state := .active, fn, cq := f.arg 6 2, base := BitVec.ofNat 64 (f.arg 8 8), n := f.arg 16 2
    journal := f.arg 18 1 == 1, cls := .ofNum (f.arg 19 1), tagged := f.arg 20 1 == 1, depth := f.arg 21 1
    weight := f.arg 22 1, burst := f.arg 23 1, cp, mask := ctxMask schs, progs }

/-- Bytes 8 to 11 of the completion (Table 6.2). -/
def createInfo (reason cp : Nat) (mask : BitVec 8) : Word := put 0 reason ||| put 8 cp ||| put 16 mask.toNat

/-- The nodes that a queue's CCWs address on the ring, with the query for each (R360). -/
def State.queries (s : State) (c : Cand) (sq : Nat) : List (Nat × MailMsg) :=
  c.fig.cells.map fun e =>
    (e.1, .query s.lnk.node c.g.sag sq c.g.depth e.2 ((c.fig.remote.filter fun t => t.1 / 512 == e.1).map fun t => (t.1 % 512, t.2)))

/-- Release at every target what it reserved for a refused queue (R360). -/
def State.unquery (s : State) (sq : Nat) (nodes : List Nat) : State :=
  s.updLnk fun l => { l with mailOut := l.mailOut ++ nodes.map fun d => (d, MailMsg.release l.node sq) }

/-- Write the report of a G queue (R149). -/
def State.writeReport (s : State) (sag : Nat) (a : DWord) (bs : List Byte) : State := if a = 0 then s else s.memWrite sag a bs

/-- The program addresses at PLIST; none = outside the saggar's pages (R148). -/
def State.plist (s : State) (sag : Nat) (a : DWord) (n : Nat) : Option (List DWord) :=
  if lsResv a || !s.lsMapped sag (lsOff a) (8 * n) then none
  else some ((List.range n).map fun i => BitVec.ofNat 64 (leNat (s.lsRead sag (lsOff a + 8 * i) 8)))

/-- A G queue is admitted: reserved, locked, and completed once the array has left JPS2, if it contains a JAPPEND (R147, R307). -/
def State.createdG (s : State) (fn sq : Nat) (cs : List Cand) (c : Cand) : State :=
  let f := s.fn fn
  let s := s.commitG cs c
  let s := (s.reserve (.sq sq) c.g.schs).setSq sq (f.newSq fn c.g.cp c.g.schs c.g.plist)
  if s.jrnCap && s.jrn.ps == 2 then s.jrnExit else s.admDone fn .ok (createInfo 0 c.g.cp (ctxMask c.g.schs))

/-- The targets' answers as figures (R360). -/
def Fn.answers (f : Fn) : RemoteFig := f.replies.flatMap fun r => r.2.2.map fun p => (512 * r.1 + p.1, p.2.1, p.2.2)

/-- A target has answered. -/
def Fn.answered (f : Fn) (d : Nat) : Bool := f.replies.any fun r => r.1 == d

/-- A target's reason: its answer's, and RIGHTS for one that has not replied (R360). -/
def Fn.targetReason (f : Fn) (d : Nat) : Nat := ((f.replies.find? fun r => r.1 == d).map fun r => r.2.1).getD rRights

/-- The targets have had 4 frames to reply (R360). -/
def State.queryLate (s : State) (f : Fn) : Bool :=
  match f.queryFrame with
  | some t => decide (4 ≤ (s.kiln.frame - w32 t).toNat)
  | none => false

/-- The first reason that fails in the order of R147: the issuer's own tests and the targets' refusals together. -/
def firstFail (v : Verdict) (q : QRef) (rs : List Nat) : Verdict :=
  rs.foldl (fun v r => if r ≠ 0 && (v.reason == 0 || decide (reasonRank r < reasonRank v.reason)) then { reason := r, q := some q } else v) v

/-- Admit or refuse a G queue on its context choice (R147 step 6, R360): queries go out first, and the tests run when every target
has answered or its time is over; with the ring down no target can answer. -/
def State.createG (s : State) (fn sq cp : Nat) (schs : List Nat) : State :=
  let f := s.fn fn
  let report := BitVec.ofNat 64 (f.arg 24 8)
  let g : GQueue := { q := .sq sq, sag := fn, cp, depth := f.arg 21 1, schs, plist := [] }
  let refuse (s : State) (cs : List Cand) (c : Cand) (v : Verdict) : State :=
    let s := s.writeReport fn report (s.report256 cs c v)
    let asked := if f.queryFrame.isSome then (c.fig.cells.map (·.1)).filter fun d => !f.answered d || f.targetReason d == 0 else []
    (s.unquery sq asked).admDone fn (reasonStatus v.reason) (createInfo v.reason cp 0)
  match s.plist fn (BitVec.ofNat 64 (f.arg 40 8)) (f.arg 34 2) with
  | none =>
    let c : Cand := { fig := { g, progs := [] } }
    refuse s [c] c { reason := rLocation, q := some g.q, off := some (lsOff (BitVec.ofNat 64 (f.arg 40 8))) }
  | some progs =>
    let cs := s.candidates (s.existingG ++ [({ g with plist := progs }, f.answers)])
    match cs.getLast? with
    | none => s
    | some c =>
      let far := c.fig.cells.map (·.1)
      if far ≠ [] && f.queryFrame.isNone && s.ringUp then
        { s with
          fns := s.fns.set {} fn { f with applying := true, queryFrame := some s.kiln.frame.toNat, replies := [] }
          lnk := { s.lnk with mailOut := s.lnk.mailOut ++ s.queries c sq } }
      else if f.queryFrame.isSome && !s.queryLate f && far.any fun d => !f.answered d then s
      else
        let v := firstFail (s.admitTests cs (some c)) g.q (far.map f.targetReason)
        if v.reason ≠ 0 then refuse s cs c v
        else
          let s := s.writeReport fn report (s.report256 cs c v)
          s.createdG fn sq cs c

/-- CREATE_SQ: the checks of R147 in their order. It waits while a prefetch buffer of its number is being zeroed (R176), and for a
G queue while a written period is not yet in force (R21). -/
def State.createSq (s : State) (fn : Nat) : State :=
  let f := s.fn fn
  let n := f.arg 4 2
  let cls := Cls.ofNum (f.arg 19 1)
  let journal := f.arg 18 1 == 1
  let depth := f.arg 21 1
  let cpB := if journal then 0xFF else f.arg 32 1
  let sag := s.sag fn
  let q := s.sq n
  let report := BitVec.ofNat 64 (f.arg 24 8)
  let refuse (st : Status) (r : Nat) : State :=
    let v : List Byte := leBytes 1 r ++ leBytes 1 cpB ++ zeros 34 ++ zeros 220
    let v := patch (patch (patch v 28 (leBytes 4 s.cpLimit)) 32 (leBytes 4 s.xa)) 52 (leBytes 2 0xFFFF)
    (if cls == .g then s.writeReport fn report v else s).admDone fn st (createInfo r cpB 0)
  if q.state == .active && !q.opened && q.fn == fn then
    if s.jrn.ps == 2 || s.jrn.exitAt.isSome then s else s.admDone fn .ok (createInfo 0 (if q.journal then 0xFF else q.cp) q.mask)
  else if cls == .g && report ≠ 0 && (s.admBuf fn report 256).isSome then
    s.admDone fn ((s.admBuf fn report 256).getD .ok) (createInfo 0 cpB 0)
  else if !bit sag.sqGrant n then refuse .refusedRights 0
  else if q.state != .free then refuse .refusedResource 0
  else if !((s.cq (f.arg 6 2)).exists_ && (s.cq (f.arg 6 2)).fn == fn) then refuse .refusedResource 0
  else if !(match cls with | .g => sag.clsG | .w => sag.clsW | .b => sag.clsB) then refuse .refusedRights 0
  else if q.zeroing || (cls == .g && !s.kiln.perPend.isEmpty) then s.updFn fn fun f => { f with applying := true }
  else if journal then (s.setSq n (f.newSq fn 0 [] [])).admDone fn .ok (createInfo 0 0xFF 0)
  else if sag.subLim < s.schsHeld fn + depth then refuse .refusedResource rNoSubch
  else match s.placeQueue cls (f.arg 32 1) depth with
    | none => refuse .refusedResource rNoSubch
    | some (cp, schs) =>
      if cls == .g then s.createG fn n cp schs
      else ((s.reserve (.sq n) schs).setSq n (f.newSq fn cp schs [])).admDone fn .ok (createInfo 0 cp (ctxMask schs))

/-- CREATE_SQ. -/
def execCreateSq (fn : Nat) (s : State) : Out := act (.createSq fn) s fun s => s.admin fn 0x83 fun _ s => s.createSq fn

/-- ADMISSION_QUERY_TIMEOUT: a target has not replied within 4 frames; that counts as a refusal with RIGHTS (R360). -/
def execAdmissionQueryTimeout (fn : Nat) (s : State) : Out :=
  act (.admissionQueryTimeout fn) s fun s => s.admin fn 0x83 fun f s =>
    if s.queryLate f then s.createSq fn else s

/-! ### Reset, delete, abort (R150 to R153) -/

/-- Entries of a queue that have not begun end without running, and one that has ended but whose own completion still waits for
an earlier entry completes with ABORTED too (R150 steps 2 and 4); a malformed entry's keeps its place. -/
def State.dropWaiting (s : State) (n : Nat) : State :=
  s.updSq n fun q => { q with entries := q.entries.map fun e =>
    if e.phase == .waiting || (e.endStatus.isSome && e.owes q.tagged && e.kind != .malformed) then
      { e with phase := .ended .aborted, prefetched := false }
    else e }

/-- RESET_SQ and DELETE_SQ (R150, R151). -/
def State.endSq (s : State) (fn : Nat) (del : Bool) : State :=
  let n := (s.fn fn).arg 4 2
  let q := s.sq n
  if 255 < n || q.state == .free || q.fn != fn || (!del && q.state == .stopped) then s.admDone fn .refusedResource 0
  else if q.ending then s.resetCheck n
  else
    let s := (s.setSq n { q with state := if del then .deleting else .resetting, tr := q.tail, aborted := 0, loose := false }).dropWaiting n |>.flushDone
    let s := (s.schsOf (.sq n)).foldl (fun s k => s.haltSch k .reset) s
    s.sqFlush n

/-- DELETE_SQ. -/
def execDeleteSq (fn : Nat) (s : State) : Out := act (.deleteSq fn) s fun s => s.admin fn 0x84 fun _ s => s.endSq fn true

/-- RESET_SQ. -/
def execResetSq (fn : Nat) (s : State) : Out := act (.resetSq fn) s fun s => s.admin fn 0x85 fun _ s => s.endSq fn false

/-- The job of a journal entry. -/
def State.jobOf (s : State) (q : QRef) (eid : Nat) : Option Job :=
  s.jrn.jobs.find? fun j => match j.who with | .entry x e => qref x == q && e == eid | _ => false

/-- An ABORT catches the entry: a START or TRG not started, or a journal command without media access (R153, R304). A RESUME or HALT
that is fetched and not yet applied, which R153 does not name, is not caught (DESIGN CHOICE, log entry 88). -/
def State.abortCatches (s : State) (n : Nat) (e : Entry) : Bool :=
  if e.kind == .journal then
    e.endStatus.isNone && match s.jobOf (.sq n) e.eid with
      | none => true
      | some j => s.revocable j
  else (e.kind == .start || e.kind == .trg) && e.phase == .waiting

/-- The entry that an ABORT acts on: where several carry the CID, which one is not defined (R126). -/
def State.pickCid (s : State) : List Entry → Option Entry × State
  | [] => (none, s)
  | [e] => (some e, s)
  | es => let (v, s) := s.draw; (es[v.toNat % es.length]?, s)

/-- ABORT (R153): the reply is written at the decision, before the entry's own completion. -/
def execAbort (fn : Nat) (s : State) : Out :=
  act (.abort fn) s fun s => s.admin fn 0x89 fun f s =>
    let n := f.arg 4 2
    let q := s.sq n
    if 255 < n || q.state == .free || q.fn != fn then s.admDone fn .abortNotFound 0
    else match s.pickCid ((s.uncompleted n).filter fun e => e.cid == f.arg 6 2) with
      | (none, s) => s.admDone fn .abortNotFound 0
      | (some e, s) =>
        if s.abortCatches n e then
          let job := s.jobOf (.sq n) e.eid
          let s := s.admDone fn .abortCaught 0
          let s := match job with | some j => s.cancelJob j.id | none => s
          ((s.endEntry (.sq n) e.eid .aborted).jrnWork).work
        else s.admDone fn .abortMissed 0

/-! ### Pages and namespaces (R154, R155) -/

/-- ALLOC_PAGES: completes when the pages it chose are zeroed, and its completion maps them (R154). -/
def State.allocStep (s : State) (fn : Nat) : State :=
  let f := s.fn fn
  let chosen := match f.pagesWait with
    | some ps => s.repick ps
    | none => s.allocPages fn (f.arg 4 4) (f.arg 8 4)
  let s := s.updFn fn fun f => { f with pagesWait := chosen }
  match chosen with
  | none => s.admDone fn .refusedResource 0
  | some ps => if s.pagesFree ps then s.admDone fn .ok 0 else s

/-- ALLOC_PAGES. -/
def execAllocPages (fn : Nat) (s : State) : Out := act (.allocPages fn) s fun s => s.admin fn 0x8A fun _ s => s.allocStep fn

/-- FREE_PAGES. -/
def execFreePages (fn : Nat) (s : State) : Out :=
  act (.freePages fn) s fun s => s.admin fn 0x8B fun f s =>
    let (st, s) := s.freePages fn (f.arg 4 4) (f.arg 8 4)
    s.admDone fn st 0

/-- CREATE_NS. -/
def execCreateNs (fn : Nat) (s : State) : Out :=
  act (.createNs fn) s fun s => s.admin fn 0x8C fun f s =>
    let (st, s) := s.createNs fn (f.arg 4 4) (f.arg 8 1) (f.arg 16 4)
    s.admDone fn st 0

/-- DELETE_NS. -/
def execDeleteNs (fn : Nat) (s : State) : Out :=
  act (.deleteNs fn) s fun s => s.admin fn 0x8D fun f s =>
    let (st, s) := s.deleteNs fn (f.arg 4 4)
    s.admDone fn st 0

/-! ### Features and queries (R156, R157) -/

/-- The object of a feature is the function's (R156). -/
def State.featObj (s : State) (fn fid obj : Nat) : Bool :=
  if fid = 5 then decide (obj < 256) && (s.sq obj).state != .free && (s.sq obj).fn == fn && (s.sq obj).cls != .g
  else if fid = 6 then decide (obj < 256) && (s.cq obj).exists_ && (s.cq obj).fn == fn
  else obj == 0

/-- The value of a feature (Table 6.5); an SQ_ARB value not yet in force reads as set. -/
def State.featValue (s : State) (fn fid obj : Nat) : Word :=
  if fid = 1 then put 0 3 ||| put 12 120
  else if fid = 2 then w32 s.kiln.per
  else if fid = 3 then w32 (s.sag fn).hbPer
  else if fid = 4 then w32 s.lnk.node
  else if fid = 5 then
    let (w, b) := (s.sq obj).arbNext.getD ((s.sq obj).weight, (s.sq obj).burst)
    put 0 w ||| put 8 b
  else if fid = 6 then put 0 (s.cq obj).aggCnt ||| put 8 (s.cq obj).aggTime
  else w32 (s.fn fn).evqLost

/-- GET_FEATURE. -/
def execGetFeature (fn : Nat) (s : State) : Out :=
  act (.getFeature fn) s fun s => s.admin fn 0x8E fun f s =>
    let fid := f.arg 4 4
    let obj := f.arg 8 4
    if fid = 0 || 7 < fid || !s.featObj fn fid obj then s.admDone fn .refusedResource 0
    else s.admDone fn .ok (s.featValue fn fid obj)

/-- SET_FEATURE. -/
def execSetFeature (fn : Nat) (s : State) : Out :=
  act (.setFeature fn) s fun s => s.admin fn 0x8F fun f s =>
    let fid := f.arg 4 4
    let obj := f.arg 8 4
    let v := f.arg 12 4
    if fid = 0 || 7 < fid then s.admDone fn .refusedResource 0
    else if fid ≠ 5 && fid ≠ 6 then s.admDone fn .refusedRights 0
    else if !s.featObj fn fid obj then s.admDone fn .refusedResource 0
    else if fid = 5 then
      if (v % 256 == 0) == ((s.sq obj).cls == .w) then s.admDone fn .malformedEntry 0
      else (s.updSq obj fun q => { q with arbNext := some (v % 256, v / 256 % 128) }).admDone fn .ok 0
    else (s.updCq obj fun q => { q with aggCnt := v % 256, aggTime := v / 256 % 65536 }).admDone fn .ok 0

/-- DEV_ID (R2). -/
def devId : Nat := 0x5C900001

/-- The IDENTIFY block of a saggar (Table 6.6). -/
def State.identifyBlock (s : State) (sag : Nat) : List Byte :=
  let x := s.sag sag
  leBytes 4 devId ++ leBytes 4 s.dev.rev.toNat ++ leBytes 1 sag ++ leBytes 1 s.lnk.node ++
    leBytes 1 (b2n x.clsG + 2 * b2n x.clsW + 4 * b2n x.clsB) ++ zeros 1 ++ leBytes 4 s.kiln.per ++
    leBytes 2 x.subLim ++ leBytes 2 (s.schsHeld sag) ++ leBytes 2 x.pageLim ++ leBytes 2 (s.pagesMapped sag) ++
    leBytes 2 x.nsLim ++ leBytes 2 (s.nsOwned sag).length ++ leBytes 4 x.folioLim ++ zeros 32 ++
    leBytes 64 x.observe.toNat ++ leBytes 64 x.actuate.toNat ++ leBytes 32 x.sqGrant.toNat ++ leBytes 32 x.cqGrant.toNat

/-- IDENTIFY. -/
def execIdentify (fn : Nat) (s : State) : Out :=
  act (.identify fn) s fun s => s.admin fn 0x90 fun f s =>
    let a := BitVec.ofNat 64 (f.arg 24 8)
    match s.admBuf fn a 256 with
    | some st => s.admDone fn st 0
    | none => (s.memWrite fn a (s.identifyBlock fn)).admDone fn .ok 0

/-- STATE of a CQ context (Table 6.8). -/
def Cq.stateNum (q : Cq) : Nat := if !q.exists_ then 0 else if q.held.isEmpty then 1 else 2

/-- The GET_QUEUE block of an SQ, with its entries fetched and not completed (Table 6.7). -/
def Sq.block (q : Sq) (left : Nat) : List Byte :=
  if q.state == .free then patch (zeros 32) 8 (leBytes 2 0xFFFF)
  else
    leBytes 1 q.state.num ++ leBytes 1 (b2n q.journal) ++ leBytes 1 q.cls.num ++ leBytes 1 (b2n q.tagged) ++ leBytes 2 q.head ++ leBytes 2 q.tail ++
      leBytes 2 (q.qerr.getD 0xFFFF) ++ leBytes 2 q.cq ++ leBytes 1 q.depth ++ leBytes 1 (min 255 left) ++
      leBytes 1 (if q.journal then 0xFF else q.cp) ++ zeros 17

/-- The GET_QUEUE block of a CQ. -/
def Cq.block (q : Cq) : List Byte :=
  leBytes 1 q.stateNum ++ leBytes 1 q.vector ++ leBytes 2 q.head ++ leBytes 2 q.tail ++ leBytes 2 q.held.length ++ leBytes 4 q.stallFr ++ zeros 20

/-- GET_QUEUE: the block of an SQ or CQ; STALL_FR is cleared (R157). -/
def execGetQueue (fn : Nat) (s : State) : Out :=
  act (.getQueue fn) s fun s => s.admin fn 0x91 fun f s =>
    let a := BitVec.ofNat 64 (f.arg 24 8)
    let n := f.arg 6 2
    match s.admBuf fn a 32 with
    | some st => s.admDone fn st 0
    | none =>
      if 255 < n then s.admDone fn .refusedResource 0
      else if f.arg 4 1 = 0 then
        let q := s.sq n
        if q.state != .free && q.fn != fn then s.admDone fn .refusedResource 0
        else (s.memWrite fn a (q.block (s.uncompleted n).length)).admDone fn .ok 0
      else
        let q := s.cq n
        if q.exists_ && q.fn != fn then s.admDone fn .refusedResource 0
        else ((s.memWrite fn a q.block).setCq n { q with stallFr := 0 }).admDone fn .ok 0

end Sys2Proof.Machine
end

