-- ==== Sys2Proof/Machine/Revoke.lean ====
section
/-! DEFINITION. The treatment of an FLR and of a revocation (R152, R167, R177, R451, R467), the end of zeroing (R176) and of a power state (R306), and the
PCI Express events that give it (R433, R434). -/

namespace Sys2Proof.Machine

/-! ### Ending work without a trace -/

/-- An operation leaves its port: a transfer on the line stops at the next byte boundary with DE low (R152). -/
def State.dropOp (s : State) (n : Nat) : State :=
  match (s.sch n).op with
  | none => s
  | some o =>
    let s := s.updSch n fun x => { x with op := none }
    let s := if o.phase != .remote && (s.port o.port).lineBusy == some n then (s.stopLine o.port).freeLine o.port else s
    let head := (s.mdio.head?.map MdioOp.sch) == some n
    let s := { s with mdio := s.mdio.filter fun m => m.sch != n }
    let s := if head then match s.mdio with
        | [] => s
        | h :: _ => s.updOp h.sch fun o => { o with t1 := s.clk }
      else s
    s.liveCheck o.port

/-- The journal work of an issuer that has gone: jobs without media access end without effect, the others run to their end and
report nothing (R152, R305). -/
def State.orphanJobs (s : State) (mine : JobFor → Bool) : State :=
  let s := (s.jrn.jobs.filter fun j => mine j.who && s.revocable j).foldl (fun s j => s.cancelJob j.id) s
  s.updJrn fun y => { y with jobs := y.jobs.map fun j => if mine j.who then { j with orphan := true } else j }

/-- A subchannel goes IDLE with no status word (R79, R152). -/
def State.killSch (s : State) (n : Nat) : State :=
  let s := (s.dropOp n).orphanJobs fun w => w == .jappend n
  let s := ((s.endReqs n).dropGrants n)
  let s : State := { s with
    reads := s.reads.filter fun r => !(r.who == .ccw n || r.who == .element n || r.who == .data n || r.who == .fence n)
    bms := s.bms.map fun e => (e.1, { e.2 with waiters := e.2.waiters.filter fun w => w.1 != n }) }
  s.updSch n Sch.unreserved

/-- Every subchannel of a queue goes IDLE and is unreserved; what admission held is released. -/
def State.killQueue (s : State) (q : QRef) : State :=
  let jobs (w : JobFor) : Bool := match w with | .entry x _ => qref x == q | _ => false
  (((s.schsOf q).foldl (fun s n => s.killSch n) s).orphanJobs jobs).releaseG q

/-! ### FLR treatment -/

/-- The ports on which a saggar has a transfer (Table 7.3): an operation of one of its subchannels that has the line, listens,
receives or has ended there, a span between two CCWs, or bytes and frames of its completed WRITEs waiting to be transmitted. -/
def State.fifosOf (s : State) (sag : Nat) : List Nat :=
  let mine (n : Nat) : Bool := decide (n < 256) && (s.sch n).owner.isSome && s.schSag n == sag
  let held (e : Nat × Port) : Bool :=
    (e.2.lineBusy.toList ++ s.txByNow e.1 ++ e.2.waitBy ++ (match e.2.segment with | some g => g.by_ | none => []) ++
      ((e.2.mbs.filter fun m => m.2.kind == 2 && m.2.full).map fun m => m.2.sch) ++ e.2.ethTx.map EthTx.sch).any mine
  let moving (p n : Nat) : Bool := mine n && match (s.sch n).op with
    | some o => o.port == p && (match o.phase with | .line => true | .listen => true | .receive => true | .ended => true | _ => false)
    | none => false
  (s.ports.filter fun e => (portKind e.1 ≤ 4 || portKind e.1 == 6) && (held e || (List.range 256).any (moving e.1))).map (·.1)

/-- The FIFOs that a saggar was using are emptied and zeroed (R176, R177). -/
def State.killFifos (s : State) (sag : Nat) (used : List Nat) : State :=
  used.foldl (fun s p =>
    let k := portKind p
    let s := s.updPort p fun x => { x with rx := [], tx := [], txBy := [], waitTx := [], waitBy := [], segment := none, ethTx := [], ethRx := [], zeroFor := some sag }
    if k = 2 then s.updPort p fun x =>
      let x := x.withdrawAll
      { x with abandon := [], mbs := x.mbs.map fun e => if e.2.kind == 1 then (e.1, { e.2 with full := false, record := [], stime := 0 }) else e }
    else if k = 4 then { s with gpio := { s.gpio with capture := [], snaps := [] } }
    else if k = 6 then s.setEnc (p - 0x80) { s.enc (p - 0x80) with capture := [] }
    else s) s

/-- The queues, subchannels and admin queue of a function (R152). -/
def State.killFn (s : State) (fn : Nat) : State :=
  let f := s.fn fn
  let s := if f.opc == some 0x83 then s.unquery (f.arg 4 2) ((f.replies.filter fun r => r.2.1 == 0).map (·.1)) else s
  let s := (s.sqs.filter fun e => e.2.state != .free && e.2.fn == fn).foldl (fun s e =>
    let s := s.killQueue (.sq e.1)
    s.setSq e.1 { fn, zeroing := true }) s
  let s := (s.cqs.filter fun e => e.2.exists_ && e.2.fn == fn).foldl (fun s e => s.setCq e.1 {}) s
  let f := s.fn fn
  { s with
    fns := s.fns.set {} fn { f with
      en := false, rdy := false, enHeld := false, draining := false, sqHead := 0, sqTail := 0, loose := false, cqHead := 0, cqTail := 0
      running := none, applying := false, queryFrame := none, replies := [], heldAdmin := none, pagesWait := none
      evqOn := false, evqBase := 0, evqN := 0, evqHead := 0, evqTail := 0, evqPhase := true, evqLost := 0 }
    reads := s.reads.filter fun r => r.fn != fn
    msix := s.msix.map fun e => if e.1 / 33 == fn then (e.1, { e.2 with pending := false }) else e }

/-- The queue of the slim host port (R451). -/
def State.killShp (s : State) : State :=
  let s := s.killQueue .shp
  (s.updFn s.shp.sag fun f => { f with pagesWait := none }).updShp fun p => { p with
    waiting := [], entries := [], comps := [], events := [], evLost := 0, error := false, qresetting := false, ctl := none
    ctlDone := false, cdepth := 0, jdepth := 0, cp := 0xFF, mask := 0 }

/-- The autonomous queues of a saggar end (R467). -/
def State.killAutos (s : State) (sag : Nat) : State :=
  (s.autos.filter fun e => (e.2.map Auto.sag) == some sag).foldl (fun s e =>
    let s := s.killQueue (.auto e.1)
    { s with autos := s.autos.set none e.1 none }) s

/-- The treatment of an FLR: of a saggar's function, or of the slim host port bound to it. -/
def State.flrTreat (s : State) (sag : Nat) : State :=
  let used := s.fifosOf sag
  let s := if s.shp.en && s.shp.sag == sag then s.killShp else s
  let s := (s.killFn sag).killAutos sag
  let s := (s.bms.filter fun e => e.2.sag == sag && e.2.en).foldl (fun s e =>
    let (gone, s) := s.bmTake e.1
    s.endMoves (gone.filter fun m => (s.sch m.1).owner.isSome) .protectionCheck) s
  let s := (s.ls.view.filter fun e => e.1 / 4096 == sag).foldl (fun s e => s.unmapPage sag (e.1 % 4096)) s
  let s := (s.killFifos sag used).hbDisarm sag
  let s := s.safeApply 0 (s.actPorts sag) (some sag)
  (s.updFn sag fun f => { f with evqLost := 0 }).jrnWork.work

/-! ### The end of zeroing -/

/-- Commands and enables that waited for zeroing go on (R154, R176, R436). -/
def State.afterZero (s : State) : State :=
  let s := (s.fns.filter fun e => e.2.opc == some 0x8A && e.2.pagesWait.isSome && e.2.heldAdmin.isNone).foldl (fun s e => s.allocStep e.1) s
  let s := (s.fns.filter fun e => e.2.opc == some 0x83 && e.2.heldAdmin.isNone && (s.sq (e.2.arg 4 2)).state == .free).foldl (fun s e => s.createSq e.1) s
  (s.fns.filter fun e => e.2.enHeld).foldl (fun s e => s.admTryEnable e.1) s

/-- The bytes of a physical page read zero, with consistent ECC (R176). -/
def State.clearPage (s : State) (p : Nat) : State :=
  { s with ls := { s.ls with
      mem := s.ls.mem.clearRange (4096 * p) 4096
      poison := s.ls.poison.filter fun u => u / 512 != p } }

/-- ZEROING_DONE: the resource is free, or its new owner's (R176 to R179); a retired page leaves the pool (Table 15.4). -/
def execZeroingDone (o : ZeroObj) (s : State) : Out :=
  act (.zeroingDone o) s fun s =>
    match o with
    | .page p =>
      match s.pageState p with
      | .zeroing _ =>
        let s := s.clearPage p
        let out := s.ls.retiring.contains p
        let s := s.setPage p (if out then .retired else .free)
        let s := { s with ls := { s.ls with retiring := s.ls.retiring.filter fun x => x != p } }
        s.afterZero
      | _ => s
    | .fifo p => (s.updPort p fun x => { x with zeroFor := none }).afterZero
    | .prefetch n => if (s.sq n).zeroing then (s.setSq n {}).afterZero else s
    | .bmSet ch => if (s.bm ch).zeroing then (s.updBm ch fun b => { b with zeroing := false, zeroFor := 0 }).afterZero else s
    | .ns nsid => if (s.ns nsid).zeroing then (s.zeroNsDone nsid).afterZero else s

/-- JPS_EXIT_DONE (R306): the array is in JPS0, the due operation begins, and a CREATE_SQ that waited for it completes (R307). -/
def execJpsExitDone (s : State) : Out :=
  act .jpsExitDone s fun s =>
    match s.jrn.exitAt with
    | none => s
    | some t =>
      if s.clk < t then s
      else
        let s := s.jrnAwake
        (s.fns.filter fun e => e.2.opc == some 0x83 && e.2.heldAdmin.isNone && !(s.sq (e.2.arg 4 2)).opened).foldl
          (fun s e => let q := s.sq ((s.fn e.1).arg 4 2); if q.state == .active && q.fn == e.1 then s.createSq e.1 else s) s

/-! ### PCI Express events (R433, R434) -/

/-- The configuration registers and the MSI-X table of a function take their PCI Express reset values. -/
def State.cfgReset (s : State) (fn : Nat) : State :=
  let s := s.updFn fn fun f => { f with
    busMaster := false, msixEn := false, fnMask := false, d3 := false, masterAbort := false, targetAbort := false }
  { s with
    msix := s.msix.filter fun e => e.1 / 33 != fn
    pcie := { s.pcie with cfg := s.pcie.cfg.filter fun e => e.1 / 4096 != fn } }

/-- The functions on the bus when the link is up. -/
def State.enabledFns (s : State) : List Nat := 0 :: (if s.pcie.vfEnable then (List.range s.pcie.numVfs).map (· + 1) else [])

/-- The treatment of the PF and of every enabled VF. -/
def State.treatAll (s : State) (reset : Bool) : State :=
  s.enabledFns.foldl (fun s fn => if reset then (s.flrTreat fn).cfgReset fn else s.flrTreat fn) s

/-- The virtual functions that leave when NumVFs and VF Enable change. -/
def State.setVfs (s : State) (n : Nat) (en : Bool) : State :=
  let old := s.enabledFns
  let s := { s with pcie := { s.pcie with numVfs := n, vfEnable := en } }
  (old.filter fun fn => !s.enabledFns.contains fn).foldl (fun s fn => (s.flrTreat fn).cfgReset fn) s

/-- PE_PERST_N_ASSERT (Table 18.3). -/
def execPePerstNAssert (s : State) : Out :=
  always s fun s =>
    if s.pcie.perst then s
    else if s.power.porst then { s with pcie := { perst := true } }
    else
      let s := s.treatAll true
      { s with pcie := { perst := true }, fns := s.fns.map fun e => (e.1, { e.2 with aer := 0 }) }

/-- PE_PERST_N_RELEASE: the link trains (R435). -/
def execPePerstNRelease (s : State) : Out :=
  always s fun s => { s with pcie := { s.pcie with perst := false } }

/-- DL_DOWN: as PE_PERST_N, but configuration space keeps its values (Table 18.3). -/
def execDlDown (s : State) : Out :=
  act .dlDown s fun s =>
    if !s.pcie.linkUp then s
    else
      let s := s.treatAll false
      { s with pcie := { s.pcie with linkUp := false } }

/-- DL_UP: the link has trained (R435). -/
def execDlUp (s : State) : Out :=
  act .dlUp s fun s => if s.pcie.perst then s else { s with pcie := { s.pcie with linkUp := true } }

/-- The effect of Initiate FLR: of the PF, also on every enabled VF, with VF Enable cleared (Table 18.3). -/
def State.initiateFlr (s : State) (fn : Nat) : State :=
  if fn = 0 then
    let s := s.treatAll true
    { s with pcie := { s.pcie with vfEnable := false } }
  else (s.flrTreat fn).cfgReset fn

/-- FLR. -/
def execFlr (fn : Nat) (s : State) : Out := act (.flr fn) s fun s => if s.fnOn fn && s.dev.ready then s.initiateFlr fn else s

/-- A function enters D3hot. -/
def State.enterD3 (s : State) (fn : Nat) : State := (s.flrTreat fn).updFn fn fun f => { f with d3 := true }

/-- D3HOT. -/
def execD3hot (fn : Nat) (s : State) : Out :=
  act (.d3hot fn) s fun s => if s.fnOn fn && s.dev.ready && !(s.fn fn).d3 then s.enterD3 fn else s

/-- VF_ENABLE: NumVFs and VF Enable as written (R433). -/
def execVfEnable (numVfs : Nat) (enable : Bool) (s : State) : Out :=
  act (.vfEnable numVfs enable) s fun s => if s.pcie.linkUp && s.dev.ready then s.setVfs numVfs enable else s

end Sys2Proof.Machine
end

