-- ==== Sys2Proof/Machine/TableWords.lean ====
section
/-! DEFINITION. The tables behind the table window (R425, Table 17.9): their shapes, what each word reads, the fields that a
read clears (R422), the fields that software may write, and the reserved and read-only words. -/

namespace Sys2Proof.Machine

/-- Entries and words per entry of a table (Table 17.9); no other number names a table. -/
def tblShape (t : Nat) : Option (Nat × Nat) :=
  if t = 0x01 then some (64, 64) else if t = 0x02 then some (256, 8) else if t = 0x03 then some (256, 8)
  else if t = 0x04 then some (256, 4) else if t = 0x05 then some (512, 16) else if t = 0x06 then some (16, 128)
  else if t = 0x07 then some (32, 8) else if t = 0x08 then some (1, 8) else if t = 0x09 then some (16, 1)
  else if t = 0x0A then some (1024, 8) else if t = 0x0B then some (128, 8) else if t = 0x0C then some (128, 4)
  else if t = 0x0D then some (256, 4) else if t = 0x0E then some (367, 4) else if t = 0x0F then some (64, 16)
  else if t = 0x10 then some (144, 8) else if t = 0x11 then some (544, 4) else if t = 0x12 then some (512, 8)
  else none

/-- The port whose entry this is, in the tables that have one entry per port. -/
def tblPort (t e : Nat) : Option Nat :=
  if t = 0x05 ∨ t = 0x10 ∨ t = 0x12 then some e else if t = 0x11 ∧ 32 ≤ e then some (e - 32) else none

/-- The entry exists: the table has it, and it is not that of a reserved port (R209, R402, R427, R428). -/
def tblHas (t e : Nat) : Bool :=
  match tblShape t with
  | none => false
  | some (n, _) => decide (e < n) && match tblPort t e with | some p => portKind p != 0 | none => true

/-! ### Words -/

/-- 32 bits of a bitmap. -/
def mapWord {w : Nat} (m : BitVec w) (k : Nat) : Word := w32 (fld m (32 * k) 32)

/-- The upper and the lower half of a 64-bit field. -/
def loWord (v : DWord) : Word := w32 (fld v 0 32)
def hiWord (v : DWord) : Word := w32 (fld v 32 32)

/-- A SAGGAR word (Table 7.1). -/
def State.sagWord (s : State) (e w : Nat) : Word :=
  let x := s.sag e
  if w = 0 then putB 0 x.en ||| putB 1 x.clsG ||| putB 2 x.clsW ||| putB 3 x.clsB
  else if w = 1 then put 0 x.subLim ||| put 16 x.pageLim
  else if w = 2 then put 0 x.nsLim
  else if w = 3 then put 0 x.folioLim
  else if w = 4 then put 0 x.hbPer ||| putB 16 x.hbHalt
  else if w = 5 then put 0 x.hbLost ||| putB 16 x.hbDown
  else if w = 6 then put 0 (min 65535 (s.zbusy e)) ||| put 16 (s.pagesMapped e)
  else if 8 ≤ w ∧ w < 16 then mapWord x.sqGrant (w - 8)
  else if 16 ≤ w ∧ w < 24 then mapWord x.cqGrant (w - 16)
  else if 24 ≤ w ∧ w < 40 then mapWord x.observe (w - 24)
  else if 40 ≤ w ∧ w < 56 then mapWord x.actuate (w - 40)
  else 0

/-- A word of SQ_CTX (Table 17.10). -/
def State.sqWord (s : State) (e w : Nat) : Word :=
  let q := s.sq e
  if q.state == .free then 0
  else if w = 0 then
    put 0 q.state.num ||| putB 3 q.journal ||| put 4 q.cls.num ||| putB 6 q.tagged ||| put 8 q.fn |||
      put 16 (if q.journal then 0xFF else q.cp) ||| put 24 q.depth
  else if w = 1 then put 0 q.head ||| put 16 q.tail
  else if w = 2 then put 0 q.n ||| put 16 (q.qerr.getD 0xFFFF)
  else if w = 3 then put 0 q.cq ||| put 8 q.weight ||| put 16 q.burst ||| put 24 (min 255 (s.uncompleted e).length)
  else if w = 4 then loWord q.base
  else if w = 5 then hiWord q.base
  else if w = 6 then w32 q.defers
  else 0

/-- A word of CQ_CTX. -/
def State.cqWord (s : State) (e w : Nat) : Word :=
  let q := s.cq e
  if !q.exists_ then 0
  else if w = 0 then put 0 q.stateNum ||| put 8 q.fn ||| put 16 q.vector
  else if w = 1 then put 0 q.head ||| put 16 q.tail
  else if w = 2 then put 0 q.n ||| put 16 (min 65535 q.held.length)
  else if w = 3 then put 0 q.aggCnt ||| put 16 q.aggTime
  else if w = 4 then w32 q.stallFr
  else if w = 5 then loWord q.base
  else if w = 6 then hiWord q.base
  else 0

/-- SQID of a reserving queue; the queues that are no SQ read 0xFE and 0xFF (log entry on Table 17.10). -/
def QRef.sqid : QRef → Nat
  | .sq n => n
  | .shp => 0xFE
  | .auto _ => 0xFF

/-- A word of SUBCH. -/
def State.subchWord (s : State) (e w : Nat) : Word :=
  let x := s.sch e
  if w = 0 then
    put 0 x.state.num ||| match x.owner with
      | some q => put 8 (s.qSag q) ||| putB 15 true ||| put 16 q.sqid ||| put 24 (s.qCls q).num
      | none => 0
  else if w = 1 then w32 x.ccwWdg
  else if w = 2 then
    put 0 x.trgOvr ||| put 16 ((x.trigger.map trgPolicy).getD 0) ||| putB 18 x.startL ||| putB 19 x.nudgeL ||| putB 20 x.resumeL
  else if w = 3 then x.ccwa
  else 0

/-- A word of CLAIM (Tables 10.1, 10.2). -/
def State.claimWord (s : State) (e w : Nat) : Word :=
  let g := s.claim e
  if w = 0 then put 0 g.port ||| putB 15 g.en
  else if w = 1 then w32 g.cwdg
  else if w = 2 then
    put 0 (g.holder.getD 0) ||| putB 4 g.holder.isSome ||| put 16 (g.requesters.foldl (fun n k => n + 2 ^ k) 0)
  else if w = 3 then put 0 g.bites
  else if w < 8 ∨ 120 ≤ w then 0
  else
    let x := g.slot ((w - 8) / 7)
    let k := (w - 8) % 7
    if k = 0 then put 0 x.sch ||| putB 8 x.bound ||| putB 9 ((s.sch x.sch).owner.isSome && s.schCls x.sch == .g)
    else if k = 1 then w32 x.seglim
    else if k = 2 then w32 x.grants
    else if k = 3 then w32 (x.countWait s.clk).waits
    else if k = 4 then w32 x.longest
    else if k = 5 then w32 (x.total % 2 ^ 32)
    else w32 (x.total / 2 ^ 32)

/-- A word of WINMON (Table 11.1). -/
def State.wmWord (s : State) (e w : Nat) : Word :=
  let m := s.wm e
  let c := m.cfg
  if w = 0 then
    putB 0 c.en ||| put 1 c.mode ||| put 4 c.rate ||| putB 8 c.uen ||| putB 9 c.len ||| put 10 c.hyst ||| putB 13 c.latchPeriod
  else if w = 1 then put 0 c.upper ||| put 16 c.lower
  else if w = 2 then
    putB 0 c.aEvt ||| putB 1 c.aFire ||| putB 2 c.aLine ||| put 8 c.evtSag ||| put 16 c.tsch ||| putB 24 c.hostwin
  else if w = 3 then put 0 m.trips ||| put 16 m.fdrop
  else if w = 4 then loWord m.last
  else if w = 5 then hiWord m.last
  else 0

/-- A word of ADC (Table 11.4). -/
def State.adcWord (s : State) (w : Nat) : Word :=
  let c := s.adc.cfg
  if w = 0 then putB 0 c.en ||| putB 1 c.free ||| put 8 c.sag
  else if w = 1 then put 0 c.chmask.toNat
  else if w = 2 then put 0 c.npf
  else if w = 3 then put 0 c.freeNs
  else if w = 4 then put 0 c.base
  else if w = 5 then put 0 c.nrec
  else if w = 6 then put 0 s.adc.drops ||| put 16 s.adc.clips
  else if w = 7 then put 0 s.adc.slot
  else 0

/-- The word of BM_ASSIGN (Table 8.1). -/
def State.bmWord (s : State) (e : Nat) : Word :=
  let b := s.bm e
  put 0 b.sag ||| put 8 b.slot ||| putB 16 b.en ||| putB 24 b.gres.isSome ||| putB 25 (b.state != .idle) ||| putB 26 b.zeroing

/-- A word of JNS (Table 12.6). -/
def State.jnsWord (s : State) (e w : Nat) : Word :=
  let x := s.ns e
  let seq : DWord := BitVec.ofNat 64 x.seq
  if w = 0 then
    (if e = 0 then 0 else put 0 x.owner) ||| putB 8 x.exist ||| put 9 x.type.num ||| putB 11 x.closed ||| putB 12 x.zeroing |||
      putB 13 x.delOk ||| putB 16 (x.rd && e == 0) ||| putB 17 (x.imgWr && e == 0)
  else if w = 1 then put 0 x.nfol
  else if w = 2 then loWord seq
  else if w = 3 then hiWord seq
  else if w = 4 then put 0 x.corr ||| put 16 x.uncorr
  else if w = 5 then loWord x.createStime
  else if w = 6 then hiWord x.createStime
  else 0

/-- A word of LNK_NODE (Table 14.9). -/
def State.nodeWord (s : State) (e w : Nat) : Word :=
  let p := s.peer e
  if w = 0 then putB 0 (s.lnk.en && bit s.lnk.pres e) ||| putB 1 p.mcap ||| put 8 p.hopsA ||| put 16 p.hopsB
  else if w = 1 then w32 p.dlyA
  else if w = 2 then w32 p.dlyB
  else if w = 3 then put 0 p.lost ||| put 16 p.denied
  else if w = 4 then putB 0 p.sub ||| put 8 p.subSag
  else if w = 5 then put 0 p.subOff
  else if w = 6 then put 0 p.imgRx ||| put 16 p.imgMiss
  else 0

/-- GUSE: the G cells per segment reserved on a pair, in both directions (R348). -/
def State.guse (s : State) (d : Nat) : Nat :=
  s.admitted.foldl (fun n a => n + a.depth * (a.cells.foldl (fun m e => if e.1 == d then m + e.2 else m) 0)) 0 +
    s.lnk.resvs.foldl (fun n r => if r.src == d then n + r.depth * r.cells else n) 0

/-- A word of LNK_CELL (Table 14.9); the entry of the node's own number holds the publication and block fields. -/
def State.cellWord (s : State) (e w : Nat) : Word :=
  let l := s.lnk
  let p := s.peer e
  if e = l.node then
    if w = 0 then put 0 l.imgCells ||| put 8 l.imgSag
    else if w = 1 then put 0 l.imgOff
    else if w = 2 then put 0 l.blkStart ||| put 16 l.blkSize
    else put 0 s.nSeg
  else
    if w = 0 then put 0 p.quota ||| put 8 (min 255 (s.guse e)) ||| put 16 p.qeff
    else if w = 2 then w32 p.txCells
    else if w = 3 then w32 p.rxCells
    else 0

def State.grant (s : State) (e : Nat) : LnkGrant := s.lnk.grants.get {} e

/-- The first enabled grant that matches a source node and saggar (R357 step 2). -/
def State.grantOf (s : State) (src rsag : Nat) : Option Nat :=
  (List.range 256).find? fun e => let g := s.grant e; g.en && g.rnode == src && g.rsag == rsag

/-- Table 14.7: the right of a remote saggar on a port of this node: granted, and held by the local saggar (R170). -/
def State.remoteObserve (s : State) (src rsag p : Nat) : Bool :=
  match s.grantOf src rsag with
  | none => false
  | some e =>
    let g := s.grant e
    (g.obs || g.act) && decide (g.plo ≤ p ∧ p ≤ g.phi) && ((g.obs && bit (s.sag g.lsag).observe p) || (g.act && bit (s.sag g.lsag).actuate p))
def State.remoteActuate (s : State) (src rsag p : Nat) : Bool :=
  match s.grantOf src rsag with
  | none => false
  | some e =>
    let g := s.grant e
    g.act && decide (g.plo ≤ p ∧ p ≤ g.phi) && bit (s.sag g.lsag).actuate p

/-- The reservations under a grant entry. -/
def State.resvsOf (s : State) (e : Nat) : List LnkResv := s.lnk.resvs.filter fun r => s.grantOf r.src r.sag == some e

/-- A word of LNK_GRANT (Table 14.7). -/
def State.grantWord (s : State) (e w : Nat) : Word :=
  let g := s.grant e
  if w = 0 then
    putB 0 g.en ||| putB 1 g.obs ||| putB 2 g.act ||| put 8 g.rnode ||| put 16 g.rsag ||| put 24 g.lsag
  else if w = 1 then put 0 g.plo ||| put 16 g.phi
  else if w = 2 then w32 ((s.resvsOf e).foldl (fun n r => n + r.depth * r.ports.foldl (fun m t => m + t.2) 0) 0)
  else if w = 3 then put 0 (min 255 (s.resvsOf e).length)
  else 0

/-- A word of REPAIR (R391). -/
def State.repairWord (s : State) (e w : Nat) : Word :=
  if e < 111 then
    let u := s.unit e
    if w = 0 then put 0 u.logical ||| put 8 u.state.num ||| putB 11 u.factory
    else if w = 1 then w32 u.tests
    else if w = 2 then put 0 (min 65535 u.faults) ||| put 16 (u.testFrame % 65536)
    else if e < 36 then put 0 (u.slow % 65536)
    else 0
  else
    let a := s.subarray (e - 111)
    if w = 0 then put 0 a.spares ||| put 2 a.factoryUsed
    else if w = 1 then put 0 a.retired
    else if w = 2 then put 0 (min 65535 a.corrected)
    else 0

/-- A word of SAFE (Table 16.4). -/
def State.safeTblWord (s : State) (p w : Nat) : Word :=
  let x := s.port p
  if w < 6 then s.safeWord p w
  else if w = 6 then put 0 x.applies
  else putB 0 x.cSag ||| putB 1 x.cOvr ||| putB 2 x.cDwdg ||| putB 3 x.cSup ||| putB 8 x.pend

/-- The queues of a class on a processor (Table 17.11): SQs, the slim host port's queue, autonomous queues. -/
def State.queuesOn (s : State) (cp : Nat) (c : Cls) : Nat :=
  (s.sqs.filter fun e => e.2.state != .free && !e.2.journal && e.2.cp == cp && e.2.cls == c).length +
    (if s.shp.cdepth ≠ 0 ∧ s.shp.cp = cp ∧ c = .w then 1 else 0) +
    (s.autos.filter fun e => match e.2 with | some a => a.cp == cp && a.cls == c | none => false).length

/-- The sum of d·T_p on a port, remote reservations included (R427). -/
def State.gsum (s : State) (p : Nat) : Nat :=
  s.admitted.foldl (fun n a => n + a.depth * (a.ports.foldl (fun m t => if t.1 == p then m + t.2 else m) 0)) 0 +
    s.lnk.resvs.foldl (fun n r => n + r.depth * (r.ports.foldl (fun m t => if t.1 == p then m + t.2 else m) 0)) 0

/-- A word of SCHED (Table 17.11). -/
def State.schedWord (s : State) (e w : Nat) : Word :=
  if e < 32 then
    let mine := s.admitted.filter fun a => a.cp == e
    if w = 0 then w32 (mine.foldl (fun n a => n + a.depth * a.c) 0)
    else if w = 1 then put 0 (s.queuesOn e .g) ||| put 8 (s.queuesOn e .w) ||| put 16 (s.queuesOn e .b)
    else if w = 2 then w32 (mine.foldl (fun n a => max n a.lat) 0)
    else put 0 (s.cpAcct e).overruns
  else
    let p := e - 32
    if w = 0 then w32 (s.gsum p)
    else if w = 1 then w32 s.portLimit
    else if w = 2 then w32 (s.bp p)
    else
      put 0 (s.admitted.filter fun a => a.addressed.contains p).length |||
        put 8 (min 255 (s.lnk.resvs.filter fun r => r.ports.any fun t => t.1 == p).length)

/-- A word of PORT (Table 9.2). -/
def State.portTblWord (s : State) (p w : Nat) : Word :=
  if 8 ≤ portKind p then 0
  else if w < 14 then s.portWord p w
  else if w = 15 then put 0 (s.port p).errs ||| put 16 (s.port p).drops
  else 0

/-- A word of PORT_TIMING (R428). -/
def State.timingWord (s : State) (p w : Nat) : Word :=
  if portKind p ≤ 3 then s.tables.timing.get 0 (8 * p + w) else if w = 0 then 400 else 0

/-- The word of a table that exists at entry `e`, word `w`. -/
def State.tblWord (s : State) (t e w : Nat) : Word :=
  if !tblHas t e then 0
  else if t = 0x01 then s.sagWord e w
  else if t = 0x02 then s.sqWord e w
  else if t = 0x03 then s.cqWord e w
  else if t = 0x04 then s.subchWord e w
  else if t = 0x05 then s.portTblWord e w
  else if t = 0x06 then s.claimWord e w
  else if t = 0x07 then s.wmWord e w
  else if t = 0x08 then s.adcWord w
  else if t = 0x09 then s.bmWord e
  else if t = 0x0A then s.jnsWord e w
  else if t = 0x0B then s.nodeWord e w
  else if t = 0x0C then s.cellWord e w
  else if t = 0x0D then s.grantWord e w
  else if t = 0x0E then s.repairWord e w
  else if t = 0x0F then w32 (leAt (s.health.log.get [] e) (4 * w) 4)
  else if t = 0x10 then s.safeTblWord e w
  else if t = 0x11 then s.schedWord e w
  else s.timingWord e w

/-! ### What a read clears (R6, R422) -/

/-- Clear the RC fields of a word that was read. -/
def State.tblClear (s : State) (t e w : Nat) : State :=
  if !tblHas t e then s
  else if t = 0x01 ∧ w = 5 then s.updSag e fun x => { x with hbLost := 0 }
  else if t = 0x02 ∧ w = 6 then s.updSq e fun q => { q with defers := 0 }
  else if t = 0x03 ∧ w = 4 then s.updCq e fun q => { q with stallFr := 0 }
  else if t = 0x04 ∧ w = 2 then s.updSch e fun x => { x with trgOvr := 0 }
  else if t = 0x05 ∧ w = 15 ∧ portKind e < 8 then s.updPort e fun x => { x with errs := 0, drops := 0 }
  else if t = 0x06 ∧ w = 3 then s.setClaim e { s.claim e with bites := 0 }
  else if t = 0x06 ∧ 8 ≤ w ∧ w < 120 then
    let g := s.claim e
    let x := g.slot ((w - 8) / 7)
    let k := (w - 8) % 7
    s.setClaim e (g.setSlot ((w - 8) / 7)
      (if k = 2 then { x with grants := 0 } else if k = 3 then { x.countWait s.clk with waits := 0 } else if k = 4 then { x with longest := 0 }
       else if k = 5 then { x with total := 0 } else x))
  else if t = 0x07 ∧ w = 3 then s.updWm e fun m => { m with trips := 0, fdrop := 0 }
  else if t = 0x08 ∧ w = 6 then { s with adc := { s.adc with drops := 0, clips := 0 } }
  else if t = 0x0A ∧ w = 4 then s.setNs e { s.ns e with corr := 0, uncorr := 0 }
  else if t = 0x0B ∧ w = 3 then s.updPeer e fun p => { p with lost := 0, denied := 0 }
  else if t = 0x0B ∧ w = 6 then s.updPeer e fun p => { p with imgRx := 0, imgMiss := 0 }
  else if t = 0x0C ∧ e ≠ s.lnk.node ∧ w = 2 then s.updPeer e fun p => { p with txCells := 0 }
  else if t = 0x0C ∧ e ≠ s.lnk.node ∧ w = 3 then s.updPeer e fun p => { p with rxCells := 0 }
  else if t = 0x10 ∧ w = 6 then s.updPort e fun x => { x with applies := 0 }
  else if t = 0x11 ∧ e < 32 ∧ w = 3 then s.setCpAcct e { s.cpAcct e with overruns := 0 }
  else s

/-- Read a word of a table with its side effects: RC fields clear, and the lower half of a 64-bit counter leaves its upper half
in a shadow that the next read of the upper half returns (R253, R312). -/
def State.tblRead (s : State) (t addr : Nat) : Word × State :=
  match tblShape t with
  | none => (0, s)
  | some (_, n) =>
    let e := addr / n
    let w := addr % n
    let v := s.tblWord t e w
    let lo := (t == 0x0A && w == 2) || (t == 0x06 && decide (8 ≤ w ∧ w < 120) && (w - 8) % 7 == 5)
    let hi := (t == 0x0A && w == 3) || (t == 0x06 && decide (8 ≤ w ∧ w < 120) && (w - 8) % 7 == 6)
    if !tblHas t e then (0, s)
    else if lo then
      let h := s.tblWord t e (w + 1)
      let s := s.updMsp fun m =>
        if t = 0x0A then { m with seqShadow := m.seqShadow.set none (addr + 1) (some h) }
        else { m with totalShadow := m.totalShadow.set none (addr + 1) (some h) }
      (v, s.tblClear t e w)
    else if hi then
      let m := s.msp
      let sh := if t = 0x0A then m.seqShadow.get none addr else m.totalShadow.get none addr
      (sh.getD v, s.updMsp fun m =>
        if t = 0x0A then { m with seqShadow := m.seqShadow.set none addr none }
        else { m with totalShadow := m.totalShadow.set none addr none })
    else (v, s.tblClear t e w)

/-! ### What software may write -/

/-- The bits of a rights bitmap word that name a port other than node services (Table 7.1). -/
def rightsMask (k : Nat) : Word :=
  (List.range 32).foldl (fun m b => setBit m b (portKind (32 * k + b) != 0 && portKind (32 * k + b) != 10)) 0

/-- The options of a PORT word by kind (Table 9.2 and chapter 9). -/
def portMask (k w : Nat) : Word :=
  if w = 0 then 0xF3 ||| (if k = 1 then 0x100 else if k = 2 then 0xF00 else if k = 3 then 0x700 else if k = 5 then 0x300 else if k = 6 then 0x100 else 0)
  else if k = 1 then (if w = 1 then 0x7FFFFF else if w = 2 then 0xFFFFFF7F else if w = 3 then 0xFFFFFFFF else 0)
  else if k = 2 then (if w = 1 then 0x7F7FFFFF else if w = 2 then 0x0F0F1F1F else 0)
  else if k = 3 then (if w = 1 ∨ w = 3 ∨ w = 4 then 0xFFFFFFFF else if w = 2 then 0xFFFF else if w = 5 then 0xFF else 0)
  else if k = 4 then (if 1 ≤ w ∧ w ≤ 8 then 0xFFFFFFFF else if w = 9 then 1 else if w = 10 then 0xFFFFF else 0)
  else if k = 5 then (if w = 1 ∨ w = 2 then 0xFFFFFF else 0)
  else if k = 6 then (if w = 1 then 0xFF else 0)
  else 0

/-- The RWL bits of a word. -/
def State.tblMask (s : State) (t e w : Nat) : Word :=
  if t = 0x01 then
    if w = 0 then 0xF else if w = 1 then 0x1FFF01FF else if w = 2 then 0x7FF else if w = 3 then 0x1FFFFF else if w = 4 then 0x1FFFF
    else if 8 ≤ w ∧ w < 24 then 0xFFFFFFFF else if 24 ≤ w ∧ w < 40 then rightsMask (w - 24)
    else if 40 ≤ w ∧ w < 56 then rightsMask (w - 40) else 0
  else if t = 0x04 then (if w = 1 then 0x3FFFFFF else 0)
  else if t = 0x05 then (if w < 14 then portMask (portKind e) w else 0)
  else if t = 0x06 then
    if w = 0 then 0x81FF else if w = 1 then 0xFFFFFF
    else if 8 ≤ w ∧ w < 120 then (if (w - 8) % 7 = 0 then 0x1FF else if (w - 8) % 7 = 1 then 0xFFFFFFFF else 0) else 0
  else if t = 0x07 then (if w = 0 then 0x3F77 else if w = 1 then 0x03FF03FF else if w = 2 then 0x01FF3F07 else 0)
  else if t = 0x08 then
    if w = 0 then 0x3F03 else if w = 1 ∨ w = 2 ∨ w = 5 then 0xFFFF else if w = 3 then 0xFFFFF else if w = 4 then 0xFFFFFF else 0
  else if t = 0x09 then 0x10F3F
  else if t = 0x0A then (if w = 0 then (if e = 0 then 0x32000 else 0x203F) else 0)
  else if t = 0x0B then (if w = 4 then 0x3F01 else if w = 5 then 0xFFFFFF else 0)
  else if t = 0x0C then
    if e = s.lnk.node then (if w = 0 then 0x3F1F else if w = 1 then 0xFFFFFF else 0) else (if w = 0 then 0xFF else 0)
  else if t = 0x0D then (if w = 0 then 0x3F3F7F07 else if w = 1 then 0x01FF01FF else 0)
  else if t = 0x10 then
    if w = 0 then 0x703
    else if w = 1 then (if portKind e = 5 then 0x1FFFF else if portKind e = 7 then 0xFFFF else 0)
    else if w < 6 then (if portKind e = 4 then 0xFFFFFFFF else 0)
    else 0
  else if t = 0x12 then (if w < 3 then 0xFFFFFF else if w < 5 then 0xFFFFFFFF else 0)
  else 0

/-- A word that a field map marks RO or RC as a whole, or a word of a table that is RO (Table 17.8, RO). A word that no map lists
is reserved: what is written there is ignored, and nothing is refused (R5, R209, R402; log entry 62). -/
def tblRo (t e w : Nat) : Bool :=
  if t = 0x01 then (decide (5 ≤ w) && decide (w < 8)) || decide (56 ≤ w)
  else if t = 0x04 then w != 1
  else if t = 0x05 then decide (8 ≤ portKind e ∨ 14 ≤ w)
  else if t = 0x06 then (decide (2 ≤ w) && decide (w < 8)) || (decide (8 ≤ w ∧ w < 120) && decide (2 ≤ (w - 8) % 7))
  else if t = 0x07 then decide (3 ≤ w)
  else if t = 0x08 then decide (6 ≤ w)
  else if t = 0x09 then false
  else if t = 0x0A then w != 0
  else if t = 0x0B then decide (w < 4) || w == 6
  else if t = 0x0C ∨ t = 0x0D then decide (2 ≤ w)
  else if t = 0x10 then decide (6 ≤ w)
  else if t = 0x12 then decide (3 < portKind e)
  else true

end Sys2Proof.Machine
end

