-- ==== Sys2Proof/Machine/Ring.lean ====
section
/-! DEFINITION. The Uamond Link (chapter 14): LNK_CTL, insertion and training, slots, SYNC, election, blocks, MAIL, remote port CCWs at
both ends, publication, wraps. -/

namespace Sys2Proof.Machine

/-! ### Off and on the ring (R333 to R336, R341) -/

/-- The node is inserted: its relay is driven (R336). -/
def State.inserted (s : State) : Bool := s.lnk.en && s.pins.lkInsert

/-- Off the ring: nothing is sent, presence and blocks are gone; the issuer's remote CCWs end (R333, R359). -/
def State.lnkOff (s : State) : State :=
  let ops := s.lnk.remotes.map RemoteOp.sch
  let s := (s.updLnk fun l => { l with en := false }).endRemotes
  let s := { s with schs := s.schs.filter fun e => !ops.contains e.1, pins := { s.pins with lkInsert := false } }
  s.updLnk fun l => { l with
    state := 0, master := false, dup := false, oversub := false, locked := false, masterValid := false, testAt := none, retryAt := none
    faultRaised := false, insertAt := 0, east := {}, west := {}, pres := 0, presAcc := 0, presSeen := false, generation := 0, nextGeneration := 0
    blkStart := 0, blkSize := 0, nextBlkStart := 0, nextBlkSize := 0, ownedEnd := 1, nextOwnedEnd := 1, lastSync := none, missedTicks := 0
    electing := false, candidate := false, wrapWest := 0xFF, wrapEast := 0xFF, wrapped := false, outA := [], outB := [], slotOutA := none
    slotOutB := none, remotes := [], mailOut := [] }

/-- EN is set: the bypass loops are tested, unless a frame has too few slots (R336, R341). -/
def State.lnkOn (s : State) : State :=
  let s := s.updLnk fun l => { l with en := true, runSince := s.clk, lastSync := none }
  if s.nSeg < 3 then (s.updLnk fun l => { l with state := 6 }).raiseF 0 0x0317 0 3
  else s.updLnk fun l => { l with testAt := some s.clk }

/-- Both sides train anew (Table 14.8 RETRAIN). -/
def State.retrain (s : State) : State :=
  if !s.inserted then s
  else
    let again (x : LnkSide) : LnkSide := { x with
      up := false, training := true, trainAt := s.clk, downAt := s.clk, downTicks := 0, upTicks := 0, exchanges := 0, sum := 0 }
    (s.updLnk fun l => { l with east := again l.east, west := again l.west, state := 2, wrapped := false, wrapWest := 0xFF, wrapEast := 0xFF }).endRemotes

/-- A write of LNK_CTL (Table 14.8, R334). -/
def State.lnkCtlWrite (s : State) (w : Word) : State :=
  let l := s.lnk
  let differs := bit w 0 != l.en || bit w 1 != l.mcap || bit w 2 != l.mtick || bit w 3 != l.tsync || fld w 8 16 ≠ l.rto
  if s.dev.lock then
    let s := if differs then s.errLock else s
    if bit w 24 then s.retrain else s
  else if bit w 0 && s.kiln.src ≠ 2 then s.errReg
  else
    let s := s.updLnk fun l => { l with mcap := bit w 1, mtick := bit w 2, tsync := bit w 3, rto := fld w 8 16 }
    let s := if bit w 0 && !l.en then s.lnkOn else if !bit w 0 && l.en then s.lnkOff else s
    if bit w 24 then s.retrain else s

/-- LNK_ENABLE, LNK_DISABLE and RETRAIN: a write of LNK_CTL with EN set, with EN clear, with RETRAIN set. -/
def execLnkEnable (w : Word) (s : State) : Out := act (.lnkEnable w) s fun s => s.served fun s => s.lnkCtlWrite (setBit w 0 true)
def execLnkDisable (w : Word) (s : State) : Out := act (.lnkDisable w) s fun s => s.served fun s => s.lnkCtlWrite (setBit w 0 false)
def execRetrain (w : Word) (s : State) : Out := act (.retrain w) s fun s => s.served fun s => s.lnkCtlWrite (setBit w 24 true)

/-- A write of LNK_NODE (R333). -/
def State.lnkNodeWrite (s : State) (w : Word) : State :=
  let v := fld w 0 7
  if s.dev.lock then (if v = s.lnk.node then s else s.errLock)
  else if s.lnk.en then s.errReg
  else s.updLnk fun l => { l with node := v }

/-- LNK_STAT and LNK_MASTER as read (Table 14.8). -/
def State.lnkStat (s : State) : Word × State :=
  let l := s.lnk
  (put 0 l.state ||| putB 3 l.east.up ||| putB 4 l.west.up ||| putB 5 l.master ||| putB 6 l.dup ||| putB 7 l.oversub ||| putB 8 l.locked |||
    put 16 l.crcErr, s.updLnk fun l => { l with crcErr := 0 })
def State.lnkMaster (s : State) : Word × State :=
  let l := s.lnk
  let n := ((List.range 128).filter fun i => bit l.pres i).length
  (put 0 l.masterNode ||| putB 7 l.masterValid ||| put 8 n ||| put 16 l.mchg, s.updLnk fun l => { l with mchg := 0 })

/-- BYPASS_TEST_END: 100 µs after its start the bypass test ends; LK_INSERT rises, or the test is repeated (R336). -/
def execBypassTestEnd (passed : Bool) (s : State) : Out :=
  act (.bypassTestEnd passed) s fun s =>
    match s.lnk.testAt with
    | none => s
    | some t =>
      if !s.lnk.en || s.clk < t + 100000 then s
      else if passed then
        let s : State := { s with pins := { s.pins with lkInsert := true } }
        s.updLnk fun l => { l with testAt := none, retryAt := none, faultRaised := false, state := 1, insertAt := s.clk }
      else
        let first := !s.lnk.faultRaised
        let s := s.updLnk fun l => { l with testAt := none, retryAt := some (t + 100000000), faultRaised := true }
        if first then s.raiseF 0 0x0311 0 0 else s

/-- BYPASS_TEST_REPEAT: every 100 ms after a failure (R336). -/
def execBypassTestRepeat (s : State) : Out :=
  act .bypassTestRepeat s fun s =>
    match s.lnk.retryAt with
    | none => s
    | some t => if s.lnk.en && decide (t ≤ s.clk) then s.updLnk fun l => { l with retryAt := none, testAt := some s.clk } else s

/-! ### Sides (R338 to R340) -/

/-- SIDE_TRAINING_START: LK_INSERT has been high for 5 ms, or a side that is down regains signal. -/
def execSideTrainingStart (side : Side) (s : State) : Out :=
  act (.sideTrainingStart side) s fun s =>
    let x := s.lnk.side side
    if !s.inserted || x.up || x.training || s.clk < s.lnk.insertAt + 5000000 then s
    else
      let s := s.updSide side fun x => { x with training := true, trainAt := s.clk, exchanges := 0, sum := 0 }
      if s.lnk.state = 1 then s.updLnk fun l => { l with state := 2 } else s

/-- SIDE_TRAINING_RETRY: a step of the training failed, and it begins again. -/
def execSideTrainingRetry (side : Side) (s : State) : Out :=
  act (.sideTrainingRetry side) s fun s =>
    if (s.lnk.side side).training then s.updSide side fun x => { x with trainAt := s.clk, exchanges := 0, sum := 0 } else s

/-- The mean link delay of 64 exchanges (R339). -/
def LnkSide.mean (x : LnkSide) : Nat := (x.sum / 128).toNat

/-- TRAIN: one exchange of four timestamps (R339). While the side is up, a measurement of 64 replaces the delay at the next tick. -/
def execTrain (side : Side) (ta tb tc td : Nat) (s : State) : Out :=
  act (.train side ta tb tc td) s fun s =>
    let x := s.lnk.side side
    if !x.up && !x.training || 64 ≤ x.exchanges then s
    else
      let x := { x with exchanges := x.exchanges + 1, sum := x.sum + (((td : Int) - ta) - ((tc : Int) - tb)) }
      let x := if x.up && x.exchanges == 64 then { x with delayNext := some x.mean, exchanges := 0, sum := 0 } else x
      s.updSide side fun _ => x

/-- SIDE_UP: 64 exchanges are complete and the delay is computed (Table 14.3). -/
def execSideUp (side : Side) (s : State) : Out :=
  act (.sideUp side) s fun s =>
    let x := s.lnk.side side
    if !x.training || x.exchanges < 64 then s
    else
      let none' := !s.lnk.east.up && !s.lnk.west.up
      let s := s.updSide side fun x => { x with
        up := true, training := false, delay := x.mean, exchanges := 0, sum := 0, upAt := s.clk, upTicks := 0, downTicks := 0, badCells := 0 }
      let s := if none' then s.updLnk fun l => { l with runSince := s.clk } else s
      if s.lnk.east.up && s.lnk.west.up && !s.lnk.wrapped then s.updLnk fun l => { l with state := 3 }
      else if s.lnk.state = 5 then s.updLnk fun l => { l with state := 2 } else s

/-- A side goes down (R340). -/
def State.sideDown (s : State) (side : Side) : State :=
  let s := s.updSide side fun x => { x with up := false, training := false, downAt := s.clk, downTicks := 0, upTicks := 0, badCells := 0 }
  let s := s.raiseF 0 0x0310 (sideNum side) 0
  if !s.lnk.east.up && !s.lnk.west.up then (s.updLnk fun l => { l with state := 5, locked := false }).endRemotes else s

/-- SIDE_DOWN: alignment was lost for 512 ns, or eight bad cells came in a row. -/
def execSideDown (side : Side) (s : State) : Out :=
  act (.sideDown side) s fun s => if (s.lnk.side side).up then s.sideDown side else s

/-- The other side of a node. -/
def otherSide : Side → Side
  | .east => .west
  | .west => .east

/-- LINK_WRAP: a side still down at the second tick; `other` wraps at the far end of the cut (R364). -/
def execLinkWrap (side : Side) (other : Nat) (s : State) : Out :=
  act (.linkWrap side other) s fun s =>
    let x := s.lnk.side side
    if !s.inserted || x.up || x.downTicks < 2 || !(s.lnk.side (otherSide side)).up || s.lnk.wrapped && x.wrapped then s
    else
      let s := s.updSide side fun x => { x with wrapped := true }
      let s := s.updLnk fun l => { l with
        state := 4, wrapped := true
        wrapWest := if side == .west then l.node else other
        wrapEast := if side == .east then l.node else other }
      (s.raiseF 0 0x0312 other (sideNum side)).endRemotes

/-- LINK_UNWRAP: the down side has been up and free of CRC errors for 5 ms and for two frames (R365). -/
def execLinkUnwrap (side : Side) (s : State) : Out :=
  act (.linkUnwrap side) s fun s =>
    let x := s.lnk.side side
    if !x.wrapped || !x.up || s.clk < x.upAt + 5000000 || (x.crcAt ≠ 0 && decide (s.clk < x.crcAt + 5000000)) || x.upTicks < 2 then s
    else
      let s := s.updSide side fun x => { x with wrapped := false }
      let s := s.updLnk fun l => { l with state := 3, wrapped := false, wrapWest := 0xFF, wrapEast := 0xFF }
      (s.raiseF 0 0x0313 0 0).endRemotes

/-! ### Blocks and joins (R345, R346, R366) -/

/-- The sizes that nodes declared, with this node's own, in increasing node number. -/
def State.blockAsks (s : State) : List (Nat × Nat) :=
  sortBy (·.1) ((s.lnk.node, s.blockNeed) ::
    s.lnk.peers.filterMap fun e => if e.1 = s.lnk.node then none else e.2.blk.map fun b => (e.1, b))

/-- Blocks from slot 1 on; one that would pass the last slot gets size 0 (R346). Answers (node, start, size) and the first slot above
every block. -/
def assignBlocks (nSeg : Nat) : List (Nat × Nat) → Nat → List (Nat × Nat × Nat) × Nat
  | [], at_ => ([], at_)
  | (n, k) :: rest, at_ =>
    let k' := if at_ + k ≤ nSeg then k else 0
    let r := assignBlocks nSeg rest (at_ + k')
    ((n, at_, k') :: r.1, r.2)

/-- The blocks of a message are this node's next assignment; start 0 marks a node excluded for its number (R346, R367). -/
def State.takeBlocks (s : State) (gen : Nat) (sizes : List (Nat × Nat × Nat)) : State :=
  let top := sizes.foldl (fun m e => max m (e.2.1 + e.2.2)) 1
  match sizes.find? fun e => e.1 == s.lnk.node with
  | none => s.updLnk fun l => { l with nextGeneration := gen, nextBlkStart := 0, nextBlkSize := 0, nextOwnedEnd := top }
  | some (_, at_, k) =>
    if at_ = 0 then
      let was := s.lnk.dup
      let s := s.updLnk fun l => { l with
        nextGeneration := gen, nextBlkStart := 0, nextBlkSize := 0, nextOwnedEnd := top, blkSize := 0, dup := true, state := 6 }
      if was then s else (s.raiseF 0 0x0317 0 1).endRemotes
    else s.updLnk fun l => { l with nextGeneration := gen, nextBlkStart := at_, nextBlkSize := k, nextOwnedEnd := top }

/-- The master assigns blocks anew and sends them to the nodes that joined (R346). `dups`: numbers presented twice. -/
def State.newBlocks (s : State) (dups : List Nat) : State :=
  let asks := s.blockAsks.filter fun e => !dups.contains e.1
  let sizes := (assignBlocks s.nSeg asks 1).1 ++ dups.map fun n => (n, 0, 0)
  let gen := s.lnk.nextGeneration + 1
  let dests := (s.blockAsks.map (·.1)).filter fun n => n != s.lnk.node
  let s := s.updLnk fun l => { l with mailOut := l.mailOut ++ dests.map fun n => (n, MailMsg.blocks gen sizes) }
  s.takeBlocks gen sizes

/-- Tell the other nodes this node's block size and quotas, and send the queries of its G queues again (R361, R366). A master assigns
blocks itself. -/
def State.announce (s : State) : State :=
  if !s.lnk.en then s
  else
    let nodes := (List.range 128).filter fun n => n != s.lnk.node && (bit s.lnk.pres n || (s.lnk.masterValid && s.lnk.masterNode == n))
    let need := s.lnk.peers.foldl (fun n e => if e.1 = s.lnk.node then n else n + min e.2.quota e.2.remoteQuota) s.lnk.imgCells
    let joins := nodes.map fun n =>
      let p := s.peer n
      (n, MailMsg.join s.lnk.node need p.quota p.hopsB p.hopsA p.dlyB p.dlyA s.lnk.mcap)
    let asks := (s.candidates s.existingG).flatMap fun c => match c.g.q with | .sq n => s.queries c n | _ => []
    let s := s.updLnk fun l => { l with mailOut := l.mailOut ++ joins ++ asks }
    if s.lnk.master then s.newBlocks [] else s

/-! ### Slots (R342 to R347) -/

/-- The number of free bytes: the layout of a MAIL cell is the ring's own (Table 14.5). -/
def State.freeBytes (s : State) : Nat → List Byte × State
  | 0 => ([], s)
  | k + 1 =>
    let (v, s) := s.draw
    let (bs, s) := State.freeBytes s k
    (leBytes 8 v.toNat ++ bs, s)

/-- The messages of a lane. -/
def State.laneOut (s : State) : Lane → List LnkMsg
  | .a => s.lnk.outA
  | .b => s.lnk.outB
def State.setLaneOut (s : State) (lane : Lane) (ms : List LnkMsg) : State :=
  match lane with
  | .a => s.updLnk fun l => { l with outA := ms }
  | .b => s.updLnk fun l => { l with outB := ms }

/-- The message whose next cell fills a slot: the lowest rank allowed, oldest first, whose destination has quota left (R345,
R347). -/
def State.pickMsg (s : State) (lane : Lane) (seg : Nat) (own : Bool) : Option (Nat × LnkMsg) :=
  let ok := (s.laneOut lane).zipIdx.filter fun e =>
    let m := e.1
    let d := (m.cells.head?.map (·.dst)).getD 0
    if own then (if m.rank = 1 then seg == 0 else decide ((s.peer d).segCells < (s.peer d).qeff)) else decide (2 ≤ m.rank)
  (sortBy (fun e => e.1.rank) ok).head?.map fun e => (e.2, e.1)

/-- Take the next cell of a message off a lane. -/
def State.popCell (s : State) (lane : Lane) (own : Bool) (i : Nat) (m : LnkMsg) : Option Cell × State :=
  match m.cells with
  | [] => (none, s.setLaneOut lane ((s.laneOut lane).eraseIdx i))
  | c :: rest =>
    let ms := if rest.isEmpty then (s.laneOut lane).eraseIdx i else (s.laneOut lane).set i { m with cells := rest }
    let s := s.setLaneOut lane ms
    let s := if c.dst < 128 then s.updPeer c.dst fun p => { p with
        txCells := sat32 p.txCells, segCells := if own then p.segCells + 1 else p.segCells } else s
    (some c, s)

/-- What the node puts into a slot that reaches it empty (R344, R347). -/
def State.fillSlot (s : State) (lane : Lane) (seg slot : Nat) : Option Cell × State :=
  let l := s.lnk
  if slot = 0 then
    if seg = 0 then
      -- the master's or a candidate's SYNC, formed at the tick
      ((match lane with | .a => l.slotOutA | .b => l.slotOutB).filter fun c => c.type == 1 && c.src == l.node, s)
    else if seg = 15 then
      (some { type := 2, lane, last := true, src := l.node, dst := 0xFF, payload := padTo 64 (leBytes 8 s.stime.toNat) }, s)
    else match l.mailOut with
      | [] => (none, s)
      | (d, _) :: rest =>
        if s.laneTo d != lane then (none, s)
        else
          let (bs, s) := s.freeBytes 8
          let s := s.updLnk fun l => { l with mailOut := rest }
          let s := s.updPeer d fun p => { p with txCells := sat32 p.txCells }
          (some { type := 6, lane, last := true, src := l.node, dst := d, payload := bs }, s)
  else
    let own := decide (l.blkStart ≤ slot ∧ slot < l.blkStart + l.blkSize)
    if !own && decide (slot < l.ownedEnd) then (none, s)
    else match s.pickMsg lane seg own with
      | some (i, m) => s.popCell lane own i m
      | none => (none, s)

/-- The payload of a SYNC with this node's mark, as it is forwarded: ACC_DLY grows by the delay of the link it came over and 180 ns
(R349). -/
def State.markSync (s : State) (d : Nat) (payload : List Byte) : List Byte :=
  patch (patch payload 16 (leBytes 4 (leAt payload 16 4 + d + 180))) 24 (leBytes 16 (leAt payload 24 16 ||| 2 ^ s.lnk.node))

/-- What remains of an arriving cell to be forwarded, with its counts (R344, Table 14.5). -/
def State.stripCell (s : State) (side : Side) (arrives : SlotIn) : Option Cell × State :=
  let bad (s : State) : State := s.updLnk fun l => { l with crcErr := sat16 l.crcErr }
  match arrives with
  | .empty => (none, s.updSide side fun x => { x with badCells := 0 })
  | .badCrc =>
    let s := (bad s).updSide side fun x => { x with badCells := x.badCells + 1, crcAt := s.clk }
    (none, if 8 ≤ (s.lnk.side side).badCells then s.sideDown side else s)
  | .cell c =>
    let s := s.updSide side fun x => { x with badCells := 0 }
    if 6 < c.type then (none, bad s)
    else if c.src = s.lnk.node then
      (none, if c.type = 4 ∨ c.type = 5 then s.updPeer c.dst fun p => { p with lost := sat16 p.lost } else s)
    else if c.type = 0 ∨ c.type = 2 then (none, s)
    else if c.dst = s.lnk.node then (none, s.updPeer c.src fun p => { p with rxCells := sat32 p.rxCells })
    else if c.type = 1 then
      (if s.lnk.master then none else some { c with payload := s.markSync (s.lnk.side side).delay (padTo 64 c.payload) }, s)
    else (some c, s)

/-- A segment begins: no cell of it has been sent to any node yet, on either lane (R345). -/
def State.newSegment (s : State) (segment : Nat) : State :=
  if s.lnk.segment = some segment then s
  else s.updLnk fun l => { l with segment := some segment, peers := l.peers.map fun e => (e.1, { e.2 with segCells := 0 }) }

/-- SLOT_START: a slot begins on a lane; what arrives is stripped or forwarded, and an empty slot is filled. A wrapped node turns the
lane of its good side back on that side (R364). -/
def execSlotStart (lane : Lane) (segment slot : Nat) (arrives : SlotIn) (s : State) : Out :=
  act (.slotStart lane segment slot arrives) s fun s =>
    if !s.inserted || s.nSeg ≤ slot || 16 ≤ segment then s
    else
      let from' : Side := match lane with | .a => .west | .b => .east
      let exit := otherSide from'
      let s := s.newSegment segment
      let (fwd, s) := if (s.lnk.side from').up then s.stripCell from' arrives else (none, s)
      let (out, s) := match fwd with
        | some c => (some c, s)
        | none => s.fillSlot lane segment slot
      let put' (s : State) (ln : Lane) (o : Option Cell) : State := match ln with
        | .a => s.updLnk fun l => { l with slotOutA := o }
        | .b => s.updLnk fun l => { l with slotOutB := o }
      let x := s.lnk.side exit
      if x.up then put' s lane out
      else if x.wrapped then put' (put' s lane none) (match lane with | .a => .b | .b => .a) out
      else put' s lane none

/-! ### SYNC (R348 to R355) -/

/-- A candidate that hears a lower-numbered candidate withdraws (R352). -/
def State.electHeard (s : State) (n : Nat) : State :=
  if s.lnk.candidate && decide (n < s.lnk.node) then s.updLnk fun l => { l with candidate := false } else s

/-- ELECTION: an ELECT SYNC of node `candidate` is received. -/
def execElection (candidate : Nat) (s : State) : Out :=
  act (.election candidate) s fun s => if s.inserted then s.electHeard candidate else s

/-- Follow a master's SYNC whose tick lay at `at_` and opened `frame` (R351, R354, R367). -/
def State.followSync (s : State) (at_ : Nat) (frame : Word) (mst : DWord) (now : DWord) : State :=
  if s.kiln.src ≠ 2 then s
  else
    let s := s.updKiln fun k => { k with lastEdge := s.clk, awaitFirst := false }
    let off : Int := (now.toNat : Int) - (s.stime.toNat : Int)
    let s := s.updLnk fun l => { l with masterStime := mst }
    if !s.kiln.frameRuns then
      let s := if s.lnk.tsync then s.stimeAdjust off else s
      if s.kiln.run then s.openFrame frame true else s
    else
      let k := s.kiln
      let late := decide (k.frameLen < 2 * (at_ - k.tickAt))
      let s := s.follow at_
      let s := if late then (if k.frame + 1 = frame then s else s.updKiln fun k => { k with frameNext := some frame })
        else if k.frame = frame then s else s.updKiln fun k => { k with frameNext := some (frame + 1) }
      let locked := decide ((s.kiln.phaseOf at_).natAbs ≤ 5)
      let s := s.updLnk fun l => { l with locked }
      if s.lnk.tsync && locked then s.stimeAdjust off else s

/-- The SYNC with this node's mark, as it is forwarded: ACC_DLY grows by the link delay and 180 ns (R349). -/
def State.forwardSync (s : State) (lane : Lane) (d : Nat) (payload : List Byte) : State :=
  let c : Cell := { type := 1, lane, last := true, src := leAt payload 12 1, dst := 0x80, payload := s.markSync d payload }
  match lane with
  | .a => s.updLnk fun l => { l with slotOutA := some c }
  | .b => s.updLnk fun l => { l with slotOutB := some c }

/-- SYNC: a SYNC cell arrives; the first of a frame locks the tick, a master takes back its own (R349 to R351, R367). -/
def execSync (lane : Lane) (payload : List Byte) (s : State) : Out :=
  act (.sync lane payload) s fun s =>
    let side : Side := match lane with | .a => .west | .b => .east
    let x := s.lnk.side side
    let m := leAt payload 12 1
    let flags := BitVec.ofNat 8 (leAt payload 13 1)
    let acc := leAt payload 16 4 + x.delay
    if !s.inserted || !x.up || payload.length ≠ 64 then s
    else if m = s.lnk.node then
      if s.lnk.master && !bit flags 0 then
        s.updLnk fun l => { l with presAcc := l.presAcc ||| BitVec.ofNat 128 (leAt payload 24 16), presSeen := true }
      else s
    else if bit flags 0 then
      if s.lnk.master then s else (s.electHeard m).forwardSync lane x.delay payload
    else if s.lnk.master && decide (s.lnk.node < m) then s
    else
      let s := s.forwardSync lane x.delay payload
      let dup := match s.lnk.lastSync with | some t => decide (2 * (s.clk - t) < s.periodNs) | none => false
      if dup && s.lnk.masterValid && s.lnk.masterNode == m then s
      else
        let joining := s.lnk.lastSync.isNone || !s.lnk.masterValid || s.lnk.masterNode ≠ m
        let s := s.updLnk fun l => { l with master := false, candidate := false, electing := false, missedTicks := 0, lastSync := some s.clk }
        let s := s.setMaster m
        let s := s.setPres (BitVec.ofNat 128 (leAt payload 40 16))
        let wrapped := bit flags 1
        let keep := !wrapped && (s.lnk.east.wrapped || s.lnk.west.wrapped)
        let changed := wrapped != s.lnk.wrapped || leAt payload 14 1 ≠ s.lnk.wrapWest || leAt payload 15 1 ≠ s.lnk.wrapEast
        let s := if keep || !changed then s
          else (s.updLnk fun l => { l with wrapped, wrapWest := leAt payload 14 1, wrapEast := leAt payload 15 1 }).endRemotes
        let gen := leAt payload 20 4
        let s := if gen ≠ s.lnk.generation && gen == s.lnk.nextGeneration then s.applyBlocks else s
        let s := if joining then s.announce else s
        let mst := BitVec.ofNat 64 (leAt payload 0 8)
        s.followSync (s.clk - acc) (w32 (leAt payload 8 4)) mst (mst + BitVec.ofNat 64 acc)

/-- MASTER_SELF_START: a master-capable node that has seen no SYNC for 2·P opens its own frames (R353). -/
def execMasterSelfStart (s : State) : Out :=
  act .masterSelfStart s fun s =>
    let l := s.lnk
    let quiet := match l.lastSync with | some t => decide (t + 2 * s.periodNs ≤ s.clk) | none => true
    if !s.inserted || !l.mcap || s.kiln.src ≠ 2 || !s.kiln.run || s.kiln.frameRuns || !(l.east.up || l.west.up) ||
        s.clk < l.runSince + 2 * s.periodNs || !quiet then s
    else if l.mtick then s.updKiln fun k => { k with zeroByEdge := true }
    else s.openFrame 0 true

/-! ### MAIL (R346, R360, R361, R366) -/

/-- A target judges an admission query (R348, R358, R360): its reason, 0 when the demand is reserved. -/
def State.judgeQuery (s : State) (src sag depth cells : Nat) (ports : List (Nat × Nat)) : Nat :=
  let lsag := (s.grantOf src sag).map fun e => (s.grant e).lsag
  let deny := match lsag with
    | none => true
    | some k => !(s.sag k).en || ports.any fun t => s.portShared t.1 || !(s.remoteObserve src sag t.1 || s.remoteActuate src sag t.1)
  if deny then rRights
  else if (s.peer src).qeff < s.guse src + depth * cells then rCells
  else if ports.any fun t => decide (s.portLimit < s.gsum t.1 + depth * t.2) then rPortTime
  else 0

/-- An admission query arrives (R360). A query of a reservation that stands replaces it. -/
def State.mailQuery (s : State) (src sag sq depth cells : Nat) (ports : List (Nat × Nat)) : State :=
  let s := s.updLnk fun l => { l with resvs := l.resvs.filter fun r => !(r.src == src && r.sq == sq) }
  let reason := s.judgeQuery src sag depth cells ports
  let s := if reason = 0 then s.updLnk fun l => { l with resvs := l.resvs ++ [{ src, sag, sq, depth, cells, ports }] } else s
  let sums := if reason = 0 then ports.map fun t => (t.1, s.gsum t.1, s.bp t.1) else []
  s.updLnk fun l => { l with mailOut := l.mailOut ++ [(src, MailMsg.reply l.node sq reason sums)] }

/-- A target's answer arrives: to a CREATE_SQ that waits, or to a query sent again (R360, R361). -/
def State.mailReply (s : State) (src sq reason : Nat) (sums : List (Nat × Nat × Nat)) : State :=
  let waiting := s.fns.filter fun e => e.2.opc == some 0x83 && e.2.queryFrame.isSome && e.2.heldAdmin.isNone && e.2.arg 4 2 == sq &&
    !e.2.replies.any fun r => r.1 == src
  let s := waiting.foldl (fun (s : State) e =>
    (s.updFn e.1 fun f => { f with replies := f.replies ++ [(src, reason, sums)] }).createSq e.1) s
  if !waiting.isEmpty || reason ≠ 0 then s
  else if !s.admitted.any fun a => a.q == .sq sq then s.unquery sq [src]
  else { s with admitted := s.admitted.map fun a =>
      if a.q == .sq sq then
        { a with remote := (a.remote.filter fun e => e.1 / 512 != src) ++ sums.map fun t => (512 * src + t.1, t.2.1, t.2.2) }
      else a }

/-- A node joins (R366): its quota and path are taken; its reservations made before are released, since it sends its queries again
(R361); the master assigns blocks, and none to a number presented twice (R367). -/
def State.mailJoin (s : State) (n size quota hopsA hopsB dlyA dlyB : Nat) (mcap : Bool) : State :=
  let p := s.peer n
  let twice := n == s.lnk.node || (p.blk.isSome && bit s.lnk.pres n && (p.hopsA != hopsA || p.hopsB != hopsB))
  if twice then (if s.lnk.master then (s.updPeer n fun p => { p with blk := none }).newBlocks [n] else s)
  else
    let s := s.updPeer n fun p => { p with remoteQuota := quota, hopsA, hopsB, dlyA, dlyB, mcap, blk := some size }
    let s := s.updLnk fun l => { l with resvs := l.resvs.filter fun r => r.src != n }
    if s.lnk.master then s.newBlocks [] else s

/-- MAIL: a control message of the link arrives. -/
def execMail (m : MailMsg) (s : State) : Out :=
  act (.mail m) s fun s =>
    if !s.inserted then s
    else match m with
      | .join n size quota hopsA hopsB dlyA dlyB mcap => s.mailJoin n size quota hopsA hopsB dlyA dlyB mcap
      | .blocks gen sizes => if s.lnk.master then s else s.takeBlocks gen sizes
      | .query src sag sq depth cells ports => s.mailQuery src sag sq depth cells ports
      | .reply src sq reason sums => s.mailReply src sq reason sums
      | .release src sq =>
        (s.updLnk fun l => { l with resvs := l.resvs.filter fun r => !(r.src == src && r.sq == sq) }).refigure

/-! ### Remote port CCWs at the target (R357, R358) -/

/-- The operation number of a remote CCW. -/
def remoteNum (src tag : Nat) : Nat := 256 + 65536 * src + tag

/-- Places among the 64 remote operations that a W or B request finds (R358): G reservations keep theirs. -/
def State.remoteRoom (s : State) : Bool :=
  let g := (s.lnk.remotes.filter fun r => r.cls == 0).length
  let held := s.lnk.resvs.foldl (fun n r => n + r.depth) 0
  decide ((s.lnk.remotes.length - g) + max g held < 64)

/-- The right a remote CCW needs on its port (R55, R170). -/
def State.remoteRight (s : State) (src sag : Nat) (c : Ccw) : Bool :=
  match s.grantOf src sag with
  | none => false
  | some e =>
    let g := s.grant e
    (s.sag g.lsag).en &&
      (if c.port = 0x1FF then (g.obs || g.act) && decide (g.plo ≤ 0x1FF ∧ 0x1FF ≤ g.phi)
       else if c.op == 0x01 || c.op == 0x03 || c.op == 0x05 || c.op == 0x0A then s.remoteActuate src sag c.port
       else s.remoteObserve src sag c.port)

/-- RPORT_REQ: a complete request is judged and carried out under the mapped local saggar. -/
def execRportReq (src saggar cls tag frame : Nat) (ccw data : List Byte) (s : State) : Out :=
  act (.rportReq src saggar cls tag frame ccw data) s fun s =>
    let c := { Ccw.ofBytes (padTo 16 ccw) with flags := 0 }
    let p := c.port
    let n := remoteNum src tag
    let answer (st : Status) : State := s.sendRsp src tag cls st 0 0 s.kiln.frame []
    if !s.inserted || src = s.lnk.node || (s.remoteOf n).isSome then s
    else if !s.kiln.run then answer .linkUnreachable
    else if !s.remoteRight src saggar c || (decide (portKind p ≤ 3) && s.portShared p) then answer .protectionCheck
    else if cls ≠ 0 && !s.remoteRoom then answer .linkUnreachable
    else
      let lsag := ((s.grantOf src saggar).map fun e => (s.grant e).lsag).getD 0
      let s := s.tick1
      let s := s.updLnk fun l => { l with remotes := l.remotes ++ [{ src, tag, cls, sch := n, sag := lsag, frame := s.kiln.frame }] }
      let o : PortOp := {
        seq := s.serial, respNs := s.respNs p, byteNs := s.byteNs p, turnNs := s.turnNs p, ovhNs := s.ovhNs p, ccw := c, port := p
        node := s.lnk.node, phase := .queued, tx := data, t0 := s.clk }
      let bad := !s.portStep2 n c || (c.op == 0x03 && !s.controlOk p data) || (c.op == 0x0A && !stageOk p data) ||
        (c.op == 0x03 && lineCode (leAt data 0 2) && cls ≠ 0 && s.gOnPort p && decide (s.segNs p < s.portCharge p c))
      if bad then s.endRemote n .programCheck 0 0 []
      else if c.op == 0x03 && leAt data 0 2 == 0x0071 && !(s.wm (p - 0xA0)).cfg.hostwin then s.endRemote n .protectionCheck 0 0 []
      else if c.op == 0x0A then
        (if s.portEn p then s.stageHere n p data else s).instantCcw n c []
      else if c.op == 0x0B then s.instantCcw n c (s.snapPart lsag p)
      else (s.setSch n { state := .waiting, op := some o }).work

/-! ### Remote port CCWs at the issuer (R357, R359) -/

/-- The node-service block of another node, with the loop counters of the subchannel that asked (R74; log entry 85). -/
def State.ownCounters (s : State) (n : Nat) (bs : List Byte) : List Byte :=
  let c := s.sch n
  patch bs 16 (leBytes 4 c.lc0.toNat ++ leBytes 4 c.lc1.toNat ++ leBytes 4 c.lc2.toNat ++ leBytes 4 c.lc3.toNat)

/-- RPORT_RSP: the whole response has arrived; received data is written and the CCW completes. One that comes too late, or for no
CCW, is counted in LOST (R359). -/
def execRportRsp (src tag status : Nat) (dstat : BitVec 16) (residual frame : Nat) (data : List Byte) (s : State) : Out :=
  act (.rportRsp src tag status dstat residual frame data) s fun s =>
    let n := tag % 256
    let lost (s : State) : State := s.updPeer src fun p => { p with lost := sat16 p.lost }
    match (s.sch n).op with
    | none => lost s
    | some o =>
      if o.phase != .remote || o.node ≠ src || o.seq ≠ tag / 256 || o.remoteSt.isSome then lost s
      else if o.deadline ≤ s.clk then (lost s).ccwFail n o.ccw .linkUnreachable
      else
        let c := o.ccw
        let st := Status.ofCode status
        let s := if st == .protectionCheck then s.updPeer src fun p => { p with denied := sat16 p.denied } else s
        let data := if c.op == 0x04 && c.port = 0x1FF then s.ownCounters n data else data
        let s := (s.updOp n fun o => { o with rx := data, rxCount := data.length, remoteSt := some (st, dstat, residual, frame) }).coverRx n
        match (s.sch n).op with
        | some o => if o.rxPlaced then s.remoteEnd n o else s
        | none => s

/-! ### Publication (R363) -/

/-- IMAGE: a cell of a publisher this node subscribes to; the header follows the last cell when none was lost. -/
def execImage (c : Cell) (pubStime : DWord) (s : State) : Out :=
  act (.image c pubStime) s fun s =>
    let n := c.src
    let p := s.peer n
    if !s.inserted || !p.sub || p.rxDone || p.rxSeen.contains c.index then s
    else
      let off := p.subOff + 16 + 64 * c.index
      let len := 16 + 64 * c.index + 64
      let s := if s.lsMapped p.subSag p.subOff len && !s.lsLocked p.subSag p.subOff len then s.lsWrite p.subSag off (padTo 64 c.payload) else s
      let s := s.updPeer n fun p => { p with rxGot := p.rxGot + 1, rxSeen := c.index :: p.rxSeen, rxStime := some pubStime }
      if c.last && (s.peer n).rxGot == c.index + 1 then s.subHeader n false else s

end Sys2Proof.Machine
end

