-- ==== Sys2Proof/Machine/Tables.lean ====
section
/-! DEFINITION. Writes to tables (R421 to R424): how a word is stored, the checks of the owning chapters, the checks against
admitted queues (R41), what an accepted write does, and the table window with its hold buffer. -/

namespace Sys2Proof.Machine

/-- A refusal: its code (Table 17.8), and with ADMIT or STATE its reason and SQ. -/
structure TblFail where
  code : Nat
  reason : Nat := 0
  sq : Nat := 0
deriving DecidableEq, Repr

def tRange : TblFail := { code := 1 }
def tState : TblFail := { code := 3 }

/-! ### Storing a word -/

/-- Replace 32 bits of a bitmap. -/
def setMapWord {w : Nat} (m : BitVec w) (k : Nat) (v : Word) : BitVec w :=
  BitVec.ofNat w (m.toNat - fld m (32 * k) 32 * 2 ^ (32 * k) + v.toNat * 2 ^ (32 * k))

/-- Replace 16 pins' two-bit fields of a store. -/
def State.setSagWord (s : State) (e w : Nat) (v : Word) : State :=
  s.updSag e fun x =>
    if w = 0 then { x with en := bit v 0, clsG := bit v 1, clsW := bit v 2, clsB := bit v 3 }
    else if w = 1 then { x with subLim := fld v 0 9, pageLim := fld v 16 13 }
    else if w = 2 then { x with nsLim := fld v 0 11 }
    else if w = 3 then { x with folioLim := fld v 0 21 }
    else if w = 4 then { x with hbPer := fld v 0 16, hbHalt := bit v 16 }
    else if 8 ≤ w ∧ w < 16 then { x with sqGrant := setMapWord x.sqGrant (w - 8) v }
    else if 16 ≤ w ∧ w < 24 then { x with cqGrant := setMapWord x.cqGrant (w - 16) v }
    else if 24 ≤ w ∧ w < 40 then { x with observe := setMapWord x.observe (w - 24) v }
    else if 40 ≤ w ∧ w < 56 then { x with actuate := setMapWord x.actuate (w - 40) v }
    else x

def State.setClaimWord (s : State) (e w : Nat) (v : Word) : State :=
  let g := s.claim e
  if w = 0 then s.setClaim e { g with port := fld v 0 9, en := bit v 15 }
  else if w = 1 then s.setClaim e { g with cwdg := fld v 0 24 }
  else if 8 ≤ w ∧ w < 120 then
    let i := (w - 8) / 7
    let x := g.slot i
    if (w - 8) % 7 = 0 then s.setClaim e (g.setSlot i { x with sch := fld v 0 8, bound := bit v 8 })
    else if (w - 8) % 7 = 1 then s.setClaim e (g.setSlot i { x with seglim := v.toNat })
    else s
  else s

def State.setWmWord (s : State) (e w : Nat) (v : Word) : State :=
  s.updWm e fun m =>
    let c := m.cfg
    { m with
      enAt := if w = 0 ∧ bit v 0 && !c.en then s.clk else m.enAt
      cfg :=
        if w = 0 then { c with
          en := bit v 0, mode := fld v 1 2, rate := fld v 4 3, uen := bit v 8, len := bit v 9, hyst := fld v 10 3, latchPeriod := bit v 13 }
        else if w = 1 then { c with upper := fld v 0 10, lower := fld v 16 10 }
        else if w = 2 then { c with
          aEvt := bit v 0, aFire := bit v 1, aLine := bit v 2, evtSag := fld v 8 6, tsch := fld v 16 8, hostwin := bit v 24 }
        else c }

def State.setAdcWord (s : State) (w : Nat) (v : Word) : State :=
  let a := s.adc
  let c := a.cfg
  let c' :=
    if w = 0 then { c with en := bit v 0, free := bit v 1, sag := fld v 8 6 }
    else if w = 1 then { c with chmask := v.setWidth 16 }
    else if w = 2 then { c with npf := fld v 0 16 }
    else if w = 3 then { c with freeNs := fld v 0 20 }
    else if w = 4 then { c with base := fld v 0 24 }
    else if w = 5 then { c with nrec := fld v 0 16 }
    else c
  { s with adc := { a with cfg := c', resetNext := a.resetNext || (w == 0 && bit v 0) || w == 1 || w == 4 || w == 5 } }

/-- Store the RWL fields of a word, without further effects; `v` holds no bit outside them. -/
def State.tblPut (s : State) (t e w : Nat) (v : Word) : State :=
  if t = 0x01 then s.setSagWord e w v
  else if t = 0x04 then s.updSch e fun x => { x with ccwWdg := fld v 0 26 }
  else if t = 0x05 then { s with tables := { s.tables with port := s.tables.port.set 0 (16 * e + w) v } }
  else if t = 0x06 then s.setClaimWord e w v
  else if t = 0x07 then s.setWmWord e w v
  else if t = 0x08 then s.setAdcWord w v
  else if t = 0x09 then s.updBm e fun b => { b with sag := fld v 0 6, slot := fld v 8 4, en := bit v 16 }
  else if t = 0x0A then
    let x := s.ns e
    s.setNs e (if e = 0 then { x with delOk := bit v 13, rd := bit v 16, imgWr := bit v 17 } else { x with owner := fld v 0 6, delOk := bit v 13 })
  else if t = 0x0B then
    s.updPeer e fun p => if w = 4 then { p with sub := bit v 0, subSag := fld v 8 6 } else { p with subOff := fld v 0 24 }
  else if t = 0x0C then
    if e = s.lnk.node then
      s.updLnk fun l => if w = 0 then { l with imgCells := fld v 0 5, imgSag := fld v 8 6 } else { l with imgOff := fld v 0 24 }
    else s.updPeer e fun p => { p with quota := fld v 0 8 }
  else if t = 0x0D then
    let g := s.grant e
    let g' : LnkGrant :=
      if w = 0 then { g with
        en := bit v 0, obs := bit v 1, act := bit v 2, rnode := fld v 8 7, rsag := fld v 16 6, lsag := fld v 24 6 }
      else { g with plo := fld v 0 9, phi := fld v 16 9 }
    s.updLnk fun l => { l with grants := l.grants.set {} e g' }
  else if t = 0x10 then { s with tables := { s.tables with safe := s.tables.safe.set 0 (8 * e + w) v } }
  else if t = 0x12 then { s with tables := { s.tables with timing := s.tables.timing.set 0 (8 * e + w) v } }
  else s

/-- A word of a change: entry, word, the RWL value it takes. -/
abbrev TblWrite := Nat × Nat × Word

/-- Store every word of a change. -/
def State.tblPutAll (s : State) (t : Nat) (ws : List TblWrite) : State := ws.foldl (fun s x => s.tblPut t x.1 x.2.1 x.2.2) s

/-- The RWL fields of a word as they stand. -/
def State.tblHeld (s : State) (t e w : Nat) : Word := s.tblWord t e w &&& s.tblMask t e w

/-- The words of an entry that a change writes. -/
def wordsOf (ws : List TblWrite) (e : Nat) : List Nat := (ws.filter fun x => x.1 == e).map fun x => x.2.1

/-- The entries a change writes. -/
def entriesOf (ws : List TblWrite) : List Nat := (ws.map (·.1)).eraseDups

/-! ### Ranges (Table 17.8, RANGE): `s` is the state as it would stand -/

/-- The bit period and word 2 of a serial port in a mode (Table 9.6). -/
def serialRange (mode : Nat) (w : Nat) (v : Word) : Bool :=
  if w = 1 then
    let b := fld v 0 23
    if mode = 1 ∨ mode = 2 then decide (50 ≤ b ∧ b ≤ 3333333)
    else if mode = 3 then decide (40 ≤ b ∧ b ≤ 1000000 ∧ b % 2 = 0)
    else if mode = 4 then decide (b = 10000 ∨ b = 2500 ∨ b = 1000)
    else if mode = 5 then decide (500 ≤ b ∧ b ≤ 100000)
    else true
  else if w = 2 then
    if mode = 1 ∨ mode = 2 then decide (fld v 1 2 ≠ 3)
    else if mode = 3 then decide (fld v 16 8 ≤ 63 ∨ fld v 16 8 = 255)
    else if mode = 5 then decide (1 ≤ fld v 0 6 ∧ fld v 0 6 ≤ 32)
    else true
  else true

/-- The bit timing of a CAN FD entry as it would stand, whatever its MODE; that of word 2 only while BRS_EN is 1 (R229). -/
def State.canRange (s : State) (p : Nat) : Bool :=
  let w1 := s.portWord p 1
  let w2 := s.portWord p 2
  decide (1 ≤ fld w1 8 8 ∧ 1 ≤ fld w1 16 7 ∧ 80 ≤ (fld w1 0 8 + 1) * (3 + fld w1 8 8 + fld w1 16 7)) &&
    (!bit (s.portWord p 0) 9 || decide (10 ≤ (fld w2 0 5 + 1) * (3 + fld w2 8 5 + fld w2 16 4)))

/-- The largest MODE of a kind (R209). -/
def maxMode (k : Nat) : Nat := if k = 1 then 5 else if k = 6 then 3 else 1

/-- The ranges of a PORT entry: the words written, under the MODE it would have; a CAN FD entry as a whole (R229). -/
def State.portRange (s : State) (p : Nat) (ws : List Nat) : Bool :=
  let k := portKind p
  let m := s.portMode p
  let w0 := s.portWord p 0
  let touched (w : Nat) : Bool := ws.contains w
  decide (m ≤ maxMode k) && (!s.portShared p || decide (k ≤ 3)) &&
    (!s.portShared p || decide (((List.range 512).filter fun q => s.portShared q).length ≤ 16)) &&
    (if k = 1 then
      (!touched 0 || !bit w0 8 || m == 1 || m == 2) && ws.all fun w => serialRange m w (s.portWord p w)
    else if k = 2 then s.canRange p
    else if k = 3 then !touched 0 || decide (fld w0 8 2 ≤ 2)
    else if k = 4 then
      (List.range 64).all (fun i => !touched (1 + i / 16) || fld (s.portWord p (1 + i / 16)) (2 * (i % 16)) 2 != 3) &&
        (!touched 10 || let n := fld (s.portWord p 10) 0 20; n == 0 || decide (20 ≤ n ∧ n ≤ 1000000 ∧ n % 2 = 0))
    else if k = 5 then
      (!touched 1 || decide (4 ≤ fld (s.portWord p 1) 0 24)) &&
        (!bit w0 9 || !(touched 1 || touched 2) || decide (fld (s.portWord p 2) 0 24 < fld (s.portWord p 1) 0 24))
    else true)

/-- The ranges of an entry. -/
def State.tblRange (s : State) (t e : Nat) (ws : List Nat) : Bool :=
  let touched (w : Nat) : Bool := ws.contains w
  if t = 0x01 then
    let x := s.sag e
    (!touched 1 || decide (x.subLim ≤ 256 ∧ x.pageLim ≤ 4096)) && (!touched 2 || decide (x.nsLim ≤ 1023)) &&
      (!touched 3 || decide (x.folioLim ≤ 1048576)) && (!touched 4 || x.hbPer == 0 || decide (10 ≤ x.hbPer ∧ x.hbPer ≤ 60000))
  else if t = 0x04 then decide ((s.sch e).ccwWdg ≤ 60000000)
  else if t = 0x05 then s.portRange e ws
  else if t = 0x06 then !touched 1 || (s.claim e).cwdg == 0 || decide (100 ≤ (s.claim e).cwdg ∧ (s.claim e).cwdg ≤ 10000000)
  else if t = 0x07 then
    let c := (s.wm e).cfg
    decide (c.mode ≤ 1 ∧ c.rate ≤ 4 ∧ c.hyst ≤ 4) && (!c.guard || decide (e < 8)) && (!c.aLine || c.guard) &&
      !(c.uen && c.len && decide (c.upper ≤ c.lower))
  else if t = 0x08 then
    let c := s.adc.cfg
    (!touched 1 || c.chmask != 0) && (!touched 2 || c.npf != 0) && (!touched 5 || c.nrec != 0) && (!touched 4 || c.base % 16 == 0) &&
      c.ok s.kiln.per
  else if t = 0x0B then !touched 5 || (s.peer e).subOff % 16 == 0
  else if t = 0x0C then e != s.lnk.node || (decide (s.lnk.imgCells ≤ 16) && s.lnk.imgOff % 64 == 0)
  else if t = 0x10 then
    let o := fld (s.safeWord e 0) 0 2
    let k := portKind e
    (!touched 0 || decide (o ≤ (if k ≤ 3 then 1 else if k = 5 ∨ k = 7 then 2 else 0))) &&
      (!touched 1 || k != 5 || decide (fld (s.safeWord e 1) 0 17 ≤ 65536))
  else true

/-! ### Refusals of the owning chapters: `s` as it stands, `n` as it would stand -/

/-- R165. -/
def State.sagState (s n : State) (e : Nat) : Bool :=
  let a := s.sag e
  let b := n.sag e
  let low (old new use : Nat) : Bool := decide (new < old ∧ new < use)
  let hasCls (c : Cls) : Bool := (s.sqs.any fun x => x.2.state != .free && x.2.fn == e && x.2.cls == c) ||
    (s.shp.cdepth != 0 && s.shp.sag == e && c == .w) ||
    s.autos.any fun x => match x.2 with | some y => y.sag == e && y.cls == c | none => false
  low a.subLim b.subLim (s.schsHeld e) || low a.pageLim b.pageLim (s.pagesMapped e) ||
    low a.nsLim b.nsLim (s.nsOwned e).length || low a.folioLim b.folioLim (s.foliosOwned e) ||
    (s.sqs.any fun x => x.2.state != .free && bit a.sqGrant x.1 && !bit b.sqGrant x.1) ||
    (s.cqs.any fun x => x.2.exists_ && bit a.cqGrant x.1 && !bit b.cqGrant x.1) ||
    (a.clsG && !b.clsG && hasCls .g) || (a.clsW && !b.clsW && hasCls .w) || (a.clsB && !b.clsB && hasCls .b)

/-- Some slot of a group that names the port is bound (R210). -/
def State.portBound (s : State) (p : Nat) : Bool :=
  s.claims.any fun g => g.2.port == p && g.2.slots.any fun x => x.2.bound

/-- The lowest-numbered admitted G queue that addresses a port (R212). -/
def State.addresser (s : State) (p : Nat) : Option Nat :=
  (sortBy id ((s.admitted.filter fun a => a.addressed.contains p).map fun a => a.q.failSq)).head?

/-- R245. -/
def State.claimState (s n : State) (g : Nat) : Bool :=
  let a := s.claim g
  let b := n.claim g
  let changed := a.port != b.port || a.en != b.en
  let slots := List.range 16
  (changed && slots.any fun k => (a.slot k).bound) ||
    (b.en && (changed || !a.en) && (portKind b.port == 0 || !n.portShared b.port ||
      (List.range 16).any fun h => h != g && (n.claim h).en && (n.claim h).port == b.port)) ||
    (slots.any fun k => (b.slot k).bound && slots.any fun j => j != k && (b.slot j).bound && (b.slot j).sch == (b.slot k).sch) ||
    slots.any fun k => (a.slot k).bound && ((a.slot k).sch != (b.slot k).sch || !(b.slot k).bound) &&
      (a.holder == some k || (a.slot k).reqSince.isSome)

/-- R184. -/
def State.bmState (s n : State) (ch : Nat) : Bool :=
  let a := s.bm ch
  let b := n.bm ch
  let re := a.en && (a.sag != b.sag || a.slot != b.slot || !b.en)
  (re && a.gres.isSome) ||
    (b.en && (List.range 16).any fun c => c != ch && (n.bm c).en && (n.bm c).sag == b.sag && (n.bm c).slot == b.slot)

/-- R313: a reassignment that is refused. -/
def State.nsState (s n : State) (e : Nat) : Bool :=
  let a := s.ns e
  let b := n.ns e
  e != 0 && a.owner != b.owner &&
    (!a.exist || a.zeroing || (a.type == .sealed && !b.delOk) || (s.admitted.any fun x => x.jnsids.contains e) ||
      s.nsNamed e ||
      !s.nsFits b.owner a.nfol)

/-- A reservation stands: its ports are granted, and the pair's quota holds (R348, R358, R360). -/
def State.resvHolds (s : State) (r : LnkResv) : Bool :=
  r.ports.all (fun t => s.remoteObserve r.src r.sag t.1 || s.remoteActuate r.src r.sag t.1) &&
    decide (s.guse r.src ≤ min (s.peer r.src).quota (s.peer r.src).remoteQuota)

/-- The reservations that a change would break (R361). -/
def State.resvBroken (s n : State) : List LnkResv := s.lnk.resvs.filter fun r => s.resvHolds r && !n.resvHolds r

/-- The first refusal of the owning chapter. -/
def State.tblState (s n : State) (t e : Nat) : Option TblFail :=
  if t = 0x01 ∧ s.sagState n e then some tState
  else if t = 0x05 then
    match s.addresser e with
    | some q => some { code := 3, sq := q % 256 }
    | none => if s.portShared e != n.portShared e && s.portBound e then some tState else none
  else if t = 0x06 ∧ s.claimState n e then some tState
  else if t = 0x09 ∧ s.bmState n e then some tState
  else if t = 0x0A ∧ s.nsState n e then some tState
  else none

/-- A change that would break a remote issuer's reservation (R165, R361): refused with the reason, unless it is one of LNK_CELL or
LNK_GRANT and the issuer is absent. -/
def State.tblResv (s n : State) (t : Nat) : Option TblFail :=
  let broken := s.resvBroken n
  let bad := if t = 0x01 then broken else if t = 0x0C ∨ t = 0x0D then broken.filter fun r => bit s.lnk.pres r.src else []
  bad.head?.map fun r => { code := 2, reason := if t = 0x0C then rCells else rRights, sq := r.sq % 256 }

/-! ### The effect of an accepted change -/

/-- EN is cleared (R211): the transfer in progress stops at the next byte boundary, and every CCW dispatched on the port and not yet
served, one that awaits a grant too, ends with PORT_ERROR and OFF. A CONTROL whose block is still being read has not been judged. -/
def State.portOff (s : State) (p : Nat) : State :=
  let k := portKind p
  let s := s.updPort p fun x => { x with live := none, liveSeq := 0, later := [] }
  let s := if k = 1 then s.abortLine p .portError else s
  let ops := s.schs.filterMap fun e => match e.2.op with
    | some o => if o.port == p && o.phase != .remote && (o.phase != .prep || o.ccw.op != 0x03) && o.ccw.op != 0x04 && decide (k ≤ 7) then some e.1 else none
    | none => none
  let s := ops.foldl (fun s n => match (s.sch n).op with
    | some o => (if o.phase == .claim then s.endReqs n else s).endOp n o (some .portError)
    | none => s) s
  let s := s.updPort p fun x =>
    let x := if k = 2 then x.withdrawAll else x
    { x with
      rx := [], tx := [], txBy := [], sent := [], frameRx := [], de := false, csLow := false, lineBusy := none, segment := none
      waitTx := [], waitBy := [], spanMb := none, ethTx := [], ethRx := []
      mbs := x.mbs.map fun e => (e.1, if e.2.kind == 1 then { e.2 with full := false, record := [], stime := 0 } else e.2) }
  let s : State := if k = 4 then { s with gpio := { s.gpio with capture := [], snaps := [], driven := 0, hiz := 0, edgeFlags := 0 } } else s
  let s := if k = 6 then s.setEnc (p - 0x80) { s.enc (p - 0x80) with capture := [] } else s
  s.work

/-- A PORT entry changes (R209, R211, R212, R236): `old` are its words before. -/
def State.portChanged (s : State) (p : Nat) (old : List Word) (ws : List Nat) : State :=
  let wasOn := bit (old.getD 0 0) 0
  let isOn := s.portEn p
  let ctr := if portKind p = 5 ∧ s.pwmPeriod (p - 0x70) ≠ 0 then
      ((s.pwm (p - 0x70)).ctr + (s.clk - (s.pwm (p - 0x70)).ctrAt) / 2) % fld (old.getD 1 0) 0 24 % s.pwmPeriod (p - 0x70)
    else 0
  let s := s.tick1
  let busy := s.schs.any fun e => match e.2.op with | some o => o.port == p && o.phase != .remote | none => false
  let s := if wasOn && !isOn then s.portOff p
    else if busy then s.updPort p fun x =>
      match x.live with
      | none => { x with live := some old, liveSeq := s.serial }
      | some _ => { x with later := x.later ++ [(old, s.serial)] }
    else s
  let s := if isOn && !wasOn then s.updPort p fun x => { x with rxTotal := 0 } else s
  let s : State := if portKind p = 4 then
      let pins := (List.range 64).filter fun i => ws.contains (5 + i / 16)
      let edge (i : Nat) : Nat := fld (s.portWord p (5 + i / 16)) (2 * (i % 16)) 2
      if s.kiln.frameRuns then
        { s with gpio := { s.gpio with edgePend := pins.foldl (fun m i => m.set none i (some (edge i))) s.gpio.edgePend } }
      else
        { s with gpio := { s.gpio with
            edgeInForce := pins.foldl (fun m i => m.set 0 i (edge i)) s.gpio.edgeInForce, snapInForce := fld (s.portWord p 10) 0 20 } }
    else s
  let s := if portKind p = 5 then
      (if isOn && !wasOn then s.pwmRestart (p - 0x70) 0
       else if ws.contains 1 then s.pwmRestart (p - 0x70) ctr else s)
    else s
  let s := if portKind p = 5 ∧ ws.contains 2 then
      s.setPwm (p - 0x70) { s.pwm (p - 0x70) with phase := fld (s.portWord p 2) 0 24, phasePend := none } else s
  s.work

/-- A SAGGAR entry changes: a loss of EN revokes (R167); a write of HB_PER disarms the heartbeat, and after a loss resumes
fetching (R173, R175). -/
def State.sagChanged (s : State) (e : Nat) (was : Bool) (ws : List Nat) : State :=
  let s := if ws.contains 4 then
      let down := (s.sag e).hbDown
      let s := s.hbDisarm e
      if down then s.raiseF 0 0x0101 e 0 else s
    else s
  (if was && !(s.sag e).en then s.flrTreat e else s).shpRefresh

/-- Apply a change whole, with its effects. -/
def State.tblApply (s : State) (t : Nat) (ws : List TblWrite) : State :=
  let es := entriesOf ws
  let old := s
  if t = 0x09 then
    es.foldl (fun s e =>
      let b := s.bm e
      let n := (s.tblPutAll t (ws.filter fun x => x.1 == e)).bm e
      if b.en && (b.sag != n.sag || b.slot != n.slot || !n.en) then s.bmReassign e n.sag n.slot n.en
      else s.updBm e fun b => { b with sag := n.sag, slot := n.slot, en := n.en }) s
  else
    let s := s.tblPutAll t ws
    let s := if t = 0x01 then es.foldl (fun s e => s.sagChanged e (old.sag e).en (wordsOf ws e)) s
      else if t = 0x05 then es.foldl (fun s e => s.portChanged e ((List.range 14).map (old.portWord e)) (wordsOf ws e)) s
      else if t = 0x06 then s.work
      else if t = 0x07 then (if s.atOnce then es.foldl (fun s e => s.wmApply e) s else s)
      else if t = 0x08 then (if s.atOnce then s.adcApply else s)
      else if t = 0x0A then es.foldl (fun s e => if (old.ns e).owner ≠ (s.ns e).owner then s.startZero e false (old.ns e).owner else s) s
      else if t = 0x0C ∨ t = 0x0D then
        let gone := old.resvBroken s
        let s := s.updLnk fun l => { l with resvs := l.resvs.filter fun r => !gone.contains r }
        if t = 0x0C then s.announce else s
      else s
    s.refigure

/-! ### One write or one commit -/

/-- The outcome is reported in TBL_STAT and TBL_FAIL (Tables 17.7, 17.8). -/
def State.tblReport (s : State) (t addr : Nat) (f : Option TblFail) : State :=
  match f with
  | none => s.updMsp fun m => { m with last := 0 }
  | some f => s.updMsp fun m => { m with
      last := f.code, refused := sat8 m.refused, failAddr := addr, failId := t
      failReason := if f.code = 2 then f.reason else 0, failSq := f.sq }

/-- The tables whose changes are checked against every admitted queue (R41, R424). -/
def tblChecked (t : Nat) : Bool := t == 0x01 || t == 0x05 || t == 0x12 || t == 0x06 || t == 0x0C || t == 0x0D

/-- With a change stored, does every admitted G queue still pass (R41)? Quotas are judged as written. -/
def State.tblAdmit (s : State) (t : Nat) (ws : List TblWrite) : Option TblFail :=
  let n := s.tblPutAll t ws
  let n := if t = 0x0C then n.updLnk fun l => { l with peers := l.peers.map fun e => (e.1, { e.2 with quotaIn := e.2.quota }) } else n
  let v := n.recheck
  if v.reason = 0 then none else some { code := 2, reason := v.reason, sq := ((v.q.map QRef.failSq).getD 0) % 256 }

/-- Words of a change by entry and word, with their RWL bits. -/
def State.tblWrites (s : State) (t n : Nat) (buf : List (Nat × Word)) : List TblWrite :=
  buf.map fun x =>
    let e := x.1 / n
    let w := x.1 % n
    (e, w, x.2 &&& s.tblMask t e w)

/-- A single write or a commit (R422 to R424): NOENT, RO, LOCKED, then the ranges, the refusals of the owning chapter, and the check
against admitted queues, which raises BUSY. -/
def State.tblChange (s : State) (t : Nat) (buf : List (Nat × Word)) : State :=
  let buf := sortBy (·.1) buf
  let addr := (buf.head?.map (·.1)).getD 0
  match tblShape t with
  | none => s.tblReport t addr (some { code := 5 })
  | some (_, n) =>
    if buf.any fun x => !tblHas t (x.1 / n) then s.tblReport t addr (some { code := 5 })
    else if buf.any fun x => tblRo t (x.1 / n) (x.1 % n) then s.tblReport t addr (some { code := 6 })
    else
      let ws := s.tblWrites t n buf
      if s.dev.lock then
        let k := (ws.filter fun x => s.tblHeld t x.1 x.2.1 != x.2.2).length
        if k = 0 then s else (((List.range k).foldl (fun s _ => s.errLock) s)).tblReport t addr (some { code := 4 })
      else
        let new := s.tblPutAll t ws
        let es := entriesOf ws
        if es.any fun e => !new.tblRange t e (wordsOf ws e) then s.tblReport t addr (some tRange)
        else match (es.findSome? fun e => s.tblState new t e).orElse fun _ => s.tblResv new t with
        | some f => s.tblReport t addr (some f)
        | none =>
          if tblChecked t && (s.gQueueExists || s.sharedHeld) then s.updMsp fun m => { m with busy := some { table := t, words := buf } }
          else (s.tblApply t ws).tblReport t addr none

/-- TABLE_CHECK_END (R424): the change takes effect, all its words together, or is refused with ADMIT. It waits while a command that
began before it is not yet applied (R159). -/
def execTableCheckEnd (s : State) : Out :=
  act .tableCheckEnd s fun s =>
    match s.msp.busy with
    | none => s
    | some b =>
      if s.sharedHeld then s
      else
      let s := s.updMsp fun m => { m with busy := none }
      let addr := (b.words.head?.map (·.1)).getD 0
      match tblShape b.table with
      | none => s
      | some (_, n) =>
        let ws := s.tblWrites b.table n b.words
        match s.tblAdmit b.table ws with
        | some f => s.tblReport b.table addr (some f)
        | none => (s.tblApply b.table ws).tblReport b.table addr none

/-! ### The window (Table 17.7) -/

/-- TBL_ADDR steps after each access with AINC (R422). -/
def State.tblStep (s : State) : State := s.updMsp fun m => if m.ainc then { m with tblAddr := (m.tblAddr + 1) % 65536 } else m

/-- An access while BUSY is ignored and counted (R424). -/
def State.tblFree (s : State) (f : State → State) : State := if s.msp.busy.isSome then s.errReg else f s

/-- The hold buffer is discarded and the discard counted (R423). -/
def State.tblDrop (s : State) : State := (s.updMsp fun m => { m with buf := [] }).errReg

/-- A write of TBL_SEL. -/
def State.tblSelWrite (s : State) (w : Word) : State :=
  s.tblFree fun s =>
    let s := if s.msp.buf.isEmpty then s else s.tblDrop
    s.updMsp fun m => { m with tblSel := fld w 0 8 }

/-- A write of TBL_ADDR. -/
def State.tblAddrWrite (s : State) (w : Word) : State := s.tblFree fun s => s.updMsp fun m => { m with tblAddr := fld w 0 16 }

/-- A write of TBL_DATA: into the table, or with HOLD into the buffer (R422, R423). -/
def State.tblDataPut (s : State) (w : Word) : State :=
  s.tblFree fun s =>
    let m := s.msp
    let s :=
      if !m.hold then s.tblChange m.tblSel [(m.tblAddr, w)]
      else if (m.buf.any fun x => x.1 == m.tblAddr) || decide (m.buf.length < 128) then
        s.updMsp fun m => { m with buf := (m.buf.filter fun x => x.1 != m.tblAddr) ++ [(m.tblAddr, w)] }
      else s.tblDrop.tblReport m.tblSel m.tblAddr (some { code := 7 })
    s.tblStep

/-- A read of TBL_DATA: the live table (R422 to R424). -/
def State.tblDataGet (s : State) : Word × State :=
  if s.msp.busy.isSome then (0, s.errReg)
  else
    let (v, s) := s.tblRead s.msp.tblSel s.msp.tblAddr
    (v, s.tblStep)

/-- A write of TBL_CTL: COMMIT first, then DISCARD, then AINC and HOLD (R423). -/
def State.tblCtlWrite (s : State) (w : Word) : State :=
  s.tblFree fun s =>
    let m := s.msp
    let s := if bit w 2 && !m.buf.isEmpty then (s.updMsp fun m => { m with buf := [] }).tblChange m.tblSel m.buf else s
    let s := if bit w 3 then s.updMsp fun m => { m with buf := [] } else s
    let s := if !bit w 1 && !s.msp.buf.isEmpty then s.tblDrop else s
    s.updMsp fun m => { m with ainc := bit w 0, hold := bit w 1 }

/-- TBL_STAT and TBL_FAIL; REFUSED is cleared by the read. -/
def State.tblStat (s : State) : Word × State :=
  let m := s.msp
  (putB 0 m.busy.isSome ||| put 1 m.last ||| put 8 m.refused ||| put 16 m.failAddr, s.updMsp fun m => { m with refused := 0 })
def State.tblFailWord (s : State) : Word := put 0 s.msp.failId ||| put 8 s.msp.failReason ||| put 16 s.msp.failSq

/-- The commands of the window act only once READY is 1 (R417). -/
def execTblSelWrite (w : Word) (s : State) : Out := act (.tblSelWrite w) s fun s => s.served fun s => s.tblSelWrite w
def execTblDataWrite (w : Word) (s : State) : Out := act (.tblDataWrite w) s fun s => s.served fun s => s.tblDataPut w

/-- A read leaves the word it returned in `readData`. -/
def execTblDataRead (s : State) : Out :=
  act .tblDataRead s fun s =>
    if !s.dev.ready then s.updMsp fun m => { m with readData := 0 }
    else
      let (v, s) := s.tblDataGet
      s.updMsp fun m => { m with readData := v }

/-- COMMIT and DISCARD: a write of TBL_CTL with that bit set. -/
def execCommit (w : Word) (s : State) : Out := act (.commit w) s fun s => s.served fun s => s.tblCtlWrite (setBit w 2 true)
def execDiscard (w : Word) (s : State) : Out := act (.discard w) s fun s => s.served fun s => s.tblCtlWrite (setBit w 3 true)

end Sys2Proof.Machine
end

