-- ==== Sys2Proof/Machine/Repair.lean ====
section
/-! DEFINITION. Repair and health: rotation and migration of processors (R375 to R379), failed resources (R380, R382, R385),
local-store errors (R383, R384), the monitors (R386, R387), repair records (R389, R390) and the health registers (Table 15.6). -/

namespace Sys2Proof.Machine

/-! ### Processors -/

/-- A logical processor moves to the spare that has been one the longest; the unit it leaves is tested (R375). -/
def State.rotate (s : State) (lp e r : Nat) : State :=
  let u := s.unit e
  let s := s.setUnit r { s.unit r with state := .active, logical := lp }
  s.setUnit e { u with state := .testing, logical := 0xFF, tested := false, last := u.logical }

/-- ROTATION: at the Commit slice of a frame with KILN_FRAME mod 128 = 127; a fault migration at that instant comes first and the
rotation is skipped (R375, R376, Table 15.8). -/
def execRotation (s : State) : Out :=
  act .rotation s fun s =>
    let f := s.kiln.frame
    if !s.kiln.frameRuns || s.kiln.slice ≠ 15 || f.toNat % 128 ≠ 127 || s.health.rotFrame == some f then s
    else
      let s := s.updHealth fun h => { h with rotFrame := some f }
      if s.health.rotDis || !s.kiln.run || s.health.faultAt == some s.clk then s
      else if (s.testedSpares 0).length < 2 then
        if s.health.rotHalted then s
        else (s.updHealth fun h => { h with rotHalted := true }).raiseF 0 0x0206 0 0
      else
        let s := if s.health.rotHalted then (s.updHealth fun h => { h with rotHalted := false }).raiseF 0 0x0206 0 1 else s
        let lp := f.toNat % 4096 / 128
        match s.unitOf 0 lp, s.nextSpare 0 with
        | some e, some r => s.rotate lp e r
        | _, _ => s

/-- AGE_WARN when a unit's slowdown first reaches the threshold (R387). -/
def State.measured (s : State) (e slow : Nat) : State :=
  let u := s.unit e
  let warn := !u.ageWarned && decide (s.health.ageWarn ≤ slow)
  let s := s.setUnit e { u with slow, testFrame := s.kiln.frame.toNat % 65536, ageWarned := u.ageWarned || warn }
  if warn then s.raiseF 0 0x0205 e slow else s

/-- ROTATION_TEST_END: the unit becomes a spare, or is retired (R375, Table 15.2). -/
def execRotationTestEnd (unit : Nat) (result : UnitTest) (slowdown : Nat) (s : State) : Out :=
  act (.rotationTestEnd unit result slowdown) s fun s =>
    if decide (36 ≤ unit) || (s.unit unit).state != .testing then s
    else
      let s := s.measured unit slowdown
      let u := s.unit unit
      match result with
      | .passed => s.setUnit unit { u with state := .spare, tested := true, tests := (u.tests + 1) % 2 ^ 32, spareSince := s.clk }
      | r =>
        let s := s.retire unit
        (s.record 3 0 (if r = .failedLogic then 1 else 2) u.last unit 0 0).marginDec 0 unit

/-- An arming ends without a program (Table 15.4). -/
def State.endArmed (s : State) (n : Nat) (st : Status) : State :=
  let c := s.sch n
  let s := s.setSch n { c with state := .idle, eid := none, trigger := none, fired := false, startL := false, resumeL := false, nudgeL := false }
  match c.owner, c.eid with
  | some q, some eid =>
    let d := ((s.entry? q eid).map Entry.defer).getD 0
    let s := s.updEntry q eid fun e => { e with result := deferResult d (s.stagedFrame c) }
    ((s.endEntry q eid st).endHalts q n).autoCheck q
  | _, _ => s

/-- The program or arming of a subchannel ends with REPAIR_EXHAUSTED. -/
def State.exhaustSch (s : State) (n : Nat) : State :=
  match (s.sch n).state with
  | .idle => s
  | .armed => s.endArmed n .repairExhausted
  | _ => (s.updSch n fun c => { c with trigger := none }).stopProgram n .repairExhausted

/-- A queue of a failed processor: entries that have not started complete, and the queue stops (Table 15.4). -/
def State.stopQueue (s : State) (cp : Nat) (q : QRef) : State :=
  let s : State := match q with
    | .sq n => if (s.sq n).state == .active || (s.sq n).state == .error then s.updSq n fun x => { x with state := .stopped } else s
    | _ => s
  let waiting := (s.entries q).filter fun e => e.phase == .waiting && e.kind != .malformed
  let s := waiting.foldl (fun s e => s.endEntry q e.eid .repairExhausted) s
  match q with
  | .sq n => s.raise (s.qSag q) 0x0005 n Status.repairExhausted.code (w32 cp)
  | _ => s.autoCheck q

/-- The queues that reserve subchannels of a processor. -/
def State.queuesOf (s : State) (cp : Nat) : List QRef :=
  ((s.sqs.filter fun e => e.2.state != .free && !e.2.journal && e.2.cp == cp).map fun e => QRef.sq e.1) ++
    (if s.shp.cdepth != 0 && s.shp.cp == cp then [QRef.shp] else []) ++
    ((s.autos.filter fun e => (e.2.map Auto.cp) == some cp).map fun e => QRef.auto e.1)

/-- A logical processor is left without a unit (R385, Table 15.4): queue by queue its programs, armings and entries end (Table 5.12). -/
def State.processorFailed (s : State) (cp : Nat) : State :=
  let s := s.updHealth fun h => { h with failedCps := h.failedCps ++ [cp] }
  ((s.queuesOf cp).foldl (fun s q => ((s.schsOf q).foldl (fun s n => s.exhaustSch n) s).stopQueue cp q) s).work

/-- PROCESSOR_FAULT: a fault migration, or the failure of the processor (R378, R379, R385). The CCW that is struck between the
start of its issue step and its record in the mirror ends its program with MIGRATED_ABORT. -/
def execProcessorFault (cp : Nat) (struck : Option Nat) (s : State) : Out :=
  act (.processorFault cp struck) s fun s =>
    match s.unitOf 0 cp with
    | none => s
    | some _ =>
      let s : State := match struck with
        | some n =>
          let c := s.sch n
          if n / 8 = cp && (c.state == .active || c.state == .waiting || c.state == .halting) then s.stopProgram n .migratedAbort else s
        | none => s
      let (moved, s) := (s.updHealth fun h => { h with faultAt := some s.clk }).faultUnit 0 cp 3
      if moved then s else s.processorFailed cp

/-! ### Block mover channels and serial slices -/

/-- BM_BURST_FAULT (R380, Table 15.4). -/
def execBmBurstFault (ch : Nat) (writeIssued : Bool) (s : State) : Out :=
  act (.bmBurstFault ch writeIssued) s fun s =>
    let b := s.bm ch
    if b.state != .run && b.state != .aborting then s
    else
      let (moved, s) := s.faultUnit 1 ch 7
      if moved then (if writeIssued then s.bmEnd ch .migratedAbort else s)
      else
        let gone := (s.bm ch).movers.filter fun m => some m.1 != (s.bm ch).mover
        let s := s.updBm ch fun b => { b with failed := true, waiters := [] }
        let s := s.bmEnd ch .repairExhausted
        s.endMoves gone .repairExhausted

/-- SLICE_FAULT (R382, Table 15.4): the transmit FIFO is emptied, and completed bytes in it count in DROPS; a CCW whose bytes had
begun ends, another runs again. -/
def execSliceFault (port : Nat) (begun : Bool) (s : State) : Out :=
  act (.sliceFault port begun) s fun s =>
    if portKind port ≠ 1 || (s.port port).failed then s
    else
      let x := s.port port
      let cur := match x.lineBusy with
        | some n => (match (s.sch n).op with | some o => if o.port == port && o.phase != .queued then some (n, o) else none | none => none)
        | none => none
      let level := s.txLevel port
      let own := match cur with | some (_, o) => if o.ccw.op == 0x01 then min o.tx.length level else if o.ccw.op == 0x05 then level else 0 | none => 0
      let s := s.updPort port fun x => { x with drops := satAdd 65535 x.drops (level - own) }
      let (cur, s) := match cur with
        | some (n, o) => let (o, s) := s.cutOp n o; (some (n, o), s)
        | none => (none, s)
      let s := s.stopLine port
      let (moved, s) := s.faultUnit 3 port 8
      let s := if moved then s else s.updPort port fun x => { x with failed := true }
      match cur with
      | some (n, o) =>
        if !moved then (s.endOp n o (some .repairExhausted)).work
        else if begun then (s.endOp n o (some .migratedAbort)).work
        else
          let s := s.updOp n fun o => { o with phase := .queued, txCount := 0, tx := if n < 256 then [] else o.tx, rx := [], rxCount := 0, dstat := 0 }
          (s.freeLine port).work
      | none => (s.freeLine port).work

/-! ### Local store -/

/-- An uncorrectable error poisons its unit (R384). -/
def State.poisonUnit (s : State) (unit : Nat) : State :=
  let s : State := { s with ls := { s.ls with poison := s.ls.poison ++ [unit] } }
  let s := s.record 7 4 5 0xFFFF 0xFFFF 0 (unit / 16)
  match s.pageState (unit / 512) with
  | .mapped sag view =>
    let s := s.raiseF sag 0x0202 view (unit % 512)
    if sag = 0 then s else s.raiseF 0 0x0202 view (unit % 512)
  | _ => s

/-- An error of a unit is counted (Tables 15.6, R391). -/
def State.countCorrected (s : State) (unit : Nat) : State :=
  let i := unit / 8192
  let x := s.subarray i
  (s.setSubarray i { x with corrected := sat16 x.corrected }).updHealth fun h => { h with lcorr := sat16 h.lcorr }

/-- LOCAL_STORE_SCRUB: one unit is read; the last unit completes a pass (R383, R384). -/
def execLocalStoreScrub (unit : Nat) (found : EccFound) (s : State) : Out :=
  act (.localStoreScrub unit found) s fun s =>
    let s : State := match found with
      | .clean => s
      | .corrected => s.countCorrected unit
      | .hard => (s.countCorrected unit).spareRow (8 * unit) 4
      | .uncorrectable =>
        if s.ls.poison.contains unit then s
        else
          let s := s.updHealth fun h => { h with luncorr := sat8 h.luncorr }
          (s.poisonUnit unit).spareRow (8 * unit) 5
    if unit = 2097151 then s.updHealth fun h => { h with scrubs := (h.scrubs + 1) % 256 } else s

/-! ### Monitors -/

/-- A TEMP event with its ENV record; the reading is in 0.125 °C. -/
def State.tempEvent (s : State) (detail : Nat) (eighths : Int) : State :=
  let v : Word := BitVec.ofInt 32 eighths
  (s.raise 0 0x0203 0 detail v).record 8 0xFF 0 0xFFFF 0xFFFF v.toNat 0

/-- The grade limit in 0.125 °C (R387). -/
def State.gradeLimit (s : State) : Int := if s.dev.gradeX then 1000 else 840

/-- TEMP: the 1 ms update (R386, R387). -/
def execTemp (eighths : Int) (s : State) : Out :=
  act (.temp eighths) s fun s =>
    let warn := 8 * s.health.twarn
    let s := s.updHealth fun h => { h with tempNow := eighths, tempPeak := max h.tempPeak (Int.fdiv eighths 8) }
    let s := if !s.health.hot && decide (warn ≤ eighths) then
        (s.updHealth fun h => { h with hot := true }).tempEvent 0 eighths else s
    let s := if !s.health.overTemp && decide (s.gradeLimit ≤ eighths) then
        (s.updHealth fun h => { h with overTemp := true }).tempEvent 1 eighths else s
    let low := if s.health.hot && s.health.overTemp then min warn s.gradeLimit else if s.health.hot then warn else s.gradeLimit
    if (s.health.hot || s.health.overTemp) && decide (eighths ≤ low - 16) then
      (s.updHealth fun h => { h with hot := false, overTemp := false }).tempEvent 2 eighths
    else s

/-- The window of a rail in mV (Table 20.6), by the codes of R393. -/
def railWindow (r : Nat) : Nat × Nat :=
  if r = 0 then (776, 824)
  else if r = 1 then (1710, 1890)
  else if r = 2 then (1164, 1236)
  else if r = 3 then (3135, 3465)
  else if r = 4 then (if Config.vioh33 then (3135, 3465) else (1710, 1890))
  else if r = 5 then (3200, 3400)
  else if r = 6 then (873, 927)
  else if r = 7 then (1710, 1890)
  else (873, 927)

/-- A VOLT event with its ENV record. -/
def State.voltEvent (s : State) (rail detail mv : Nat) : State :=
  (s.raise 0 0x0204 rail detail (w32 mv)).record 8 0xFF 0 0xFFFF 0xFFFF mv 0

/-- VOLT: the 10 µs measurement of a rail (R386, R387). -/
def execVolt (rail mv : Nat) (s : State) : Out :=
  act (.volt rail mv) s fun s =>
    let (lo, hi) := railWindow rail
    let out := decide (mv < lo ∨ hi < mv)
    let was := bit s.health.vout rail
    let s := s.updHealth fun h => { h with
      rails := h.rails.set 0 rail mv, vout := setBit h.vout rail out, vflt := if out && !was then setBit h.vflt rail true else h.vflt }
    if out && !was then s.voltEvent rail (if mv < lo then 0 else 1) mv
    else if was && !out then s.voltEvent rail 2 mv
    else s

/-! ### Registers (Table 15.6) -/

/-- A read of HLTH_MARGIN word 0 or 1; the margins read 0 until bisque sets them. -/
def State.hlthMargin (s : State) (w : Nat) : Word :=
  let m (c : Nat) := if s.health.marginsSet then s.margin c else 0
  let least := if s.health.marginsSet then (List.range 256).foldl (fun n i => min n (s.subarray i).spares) 2 else 0
  if w = 0 then put 0 (m 0) ||| put 3 (m 1) ||| put 5 (m 2) ||| put 6 (m 3) ||| put 9 (m 4) ||| put 19 least
  else put 0 (m 5) ||| put 16 s.health.failMap.toNat

/-- A read of HLTH_TEMP; PEAK is cleared. -/
def State.hlthTemp (s : State) : Word × State :=
  let h := s.health
  (put 0 (BitVec.ofInt 16 h.tempNow).toNat ||| put 16 (BitVec.ofInt 8 h.tempPeak).toNat ||| putB 24 h.hot ||| putB 25 h.overTemp,
    s.updHealth fun h => { h with tempPeak := 0 })

/-- A read of HLTH_VOLT. -/
def State.hlthVolt (s : State) : Word :=
  let h := s.health
  put 0 h.voltSel ||| put 4 (min 4095 (if h.voltSel < 9 then h.rails.get 0 h.voltSel else 0)) ||| put 16 h.vflt.toNat

/-- A read of HLTH_ECC; the error counts are cleared. -/
def State.hlthEcc (s : State) : Word × State :=
  let h := s.health
  (put 0 h.lcorr ||| put 16 h.luncorr ||| put 24 h.scrubs, s.updHealth fun h => { h with lcorr := 0, luncorr := 0 })

/-- A read of HLTH_AGE: the largest slowdown of a unit not retired, the lowest-numbered unit first. -/
def State.hlthAge (s : State) : Word :=
  let (u, w) := (classEntries 0).foldl (fun (best : Nat × Nat) e =>
    let x := s.unit e
    if x.state != .retired && best.2 < x.slow then (e, x.slow) else best) (0, 0)
  put 0 (min 255 w) ||| put 8 u

/-- A read of HLTH_CTL. -/
def State.hlthCtl (s : State) : Word :=
  let h := s.health
  putB 0 h.rotDis ||| put 8 (BitVec.ofInt 8 h.twarn).toNat ||| put 16 h.ageWarn

/-- A write of HLTH_CTL. -/
def State.hlthCtlWrite (s : State) (w : Word) : State :=
  s.updHealth fun h => { h with rotDis := bit w 0, twarn := (BitVec.ofNat 8 (fld w 8 8)).toInt, ageWarn := fld w 16 8 }

/-- A write of HLTH_VOLT: SEL, and VFLT by ones. -/
def State.hlthVoltWrite (s : State) (w : Word) : State :=
  s.updHealth fun h => { h with voltSel := fld w 0 4, vflt := h.vflt &&& ~~~ BitVec.ofNat 9 (fld w 16 9) }

end Sys2Proof.Machine
end

