-- ==== Sys2Proof/Machine/Regs.lean ====
section
/-! DEFINITION. The direct register map (Table 17.5, R417 to R420): reads and writes of every register, DEV_LOCK (R180), the event
registers (Table 16.7), the device watchdog (R398 to R400), SAFE_CTL (R401, Table 16.5) and SHP_CTL (R161, R429). -/

namespace Sys2Proof.Machine

/-! ### Device registers (Tables 17.6, 7.4) -/

/-- DEV_STAT. -/
def State.devStat (s : State) : Word :=
  let d := s.dev
  putB 0 d.ready ||| putB 1 d.bisqueFail ||| putB 2 d.autoloaded ||| putB 3 d.autoloadErr ||| putB 4 d.warmStat |||
    putB 5 s.power.testMode ||| putB 6 d.gradeX ||| put 8 d.step

/-- A read of DEV_ERR clears it. -/
def State.devErr (s : State) : Word × State :=
  let d := s.dev
  (put 0 d.errMsp ||| put 8 d.errReg ||| put 16 d.errHost ||| put 24 d.errLock,
    s.updDev fun d => { d with errMsp := 0, errReg := 0, errHost := 0, errLock := 0 })

/-- A write of an RWL field set: ignored under DEV_LOCK, and counted when it would change something (R181). -/
def State.rwl (s : State) (differs : Bool) (f : State → State) : State :=
  if s.dev.lock then (if differs then s.errLock else s) else f s

/-- A write of DEV_CTL; the warm reset follows the command's response. -/
def State.devCtlWrite (s : State) (w : Word) : State :=
  let s := s.rwl (bit w 0 != s.dev.autoload) fun s => s.updDev fun d => { d with autoload := bit w 0 }
  if bit w 1 then { s with power := { s.power with warmReq := true } } else s

/-- A write of DEV_LOCK (R180, Table 7.4). -/
def State.devLockWrite (s : State) (w : Word) : State :=
  let d := s.dev
  if bit w 0 then (if d.lock then s else s.updDev fun d => { d with lock := true, hard := bit w 1 })
  else if !d.lock then s
  else if !d.hard && fld w 16 16 = 0x4C0C then s.updDev fun d => { d with lock := false }
  else s.errLock

/-! ### Events (Table 16.7) -/

/-- A read of EVT_CAUSE pops the oldest record (R407). -/
def State.evtCause (s : State) : Word × State :=
  match s.dev.causes with
  | [] => (0, s.updDev fun d => { d with evtDetail := 0, evtInfo := 0 })
  | c :: rest =>
    (put 0 (c.code % 65536) ||| put 16 (c.object % 65536), s.updDev fun d => { d with
      causes := rest, evtDetail := put 0 (c.detail % 65536) ||| put 16 (c.saggar % 256), evtInfo := c.info })

/-! ### The device watchdog (Table 16.2) -/

/-- The end of the window in which a valid kick keeps the watchdog from biting; none while the timer does not run. -/
def State.wdgEnd (s : State) : Option Nat := s.dev.wdgSince.map fun t => t + 1000000 * s.dev.wdgPerInForce

/-- The watchdog bites (R399). -/
def State.wdgBites (s : State) : State :=
  let s := s.updDev fun d => { d with wdgBite := true, wdgSince := none }
  let s := s.safeApply 2 (s.onPorts 9) none
  s.raiseF 0 0x0104 0 0

/-- The bite that is due by now comes before anything else of this instant (Table 16.9). -/
def State.wdgDue (s : State) : State :=
  match s.wdgEnd with
  | some t => if t ≤ s.clk then s.wdgBites else s
  | none => s

/-- A write of WDG_KICK (R398, R400). -/
def State.wdgKickWrite (s : State) (w : Word) : State :=
  let s := s.wdgDue
  if w = 0x00004B1C then s.updDev fun d => { d with
    wdgBite := false, wdgPerInForce := d.wdgPer, wdgSince := if d.wdgEn then some s.clk else none }
  else
    let s := s.updDev fun d => { d with badKick := sat8 d.badKick }
    if s.dev.wdgStrict && s.dev.wdgSince.isSome then s.wdgBites else s

/-- A write of WDG_CTL: the timer starts at the write that sets EN; clearing EN disarms it. -/
def State.wdgCtlWrite (s : State) (w : Word) : State :=
  let s := s.wdgDue
  s.rwl (bit w 0 != s.dev.wdgEn || bit w 2 != s.dev.wdgStrict) fun s => s.updDev fun d => { d with
    wdgEn := bit w 0, wdgStrict := bit w 2
    wdgSince := if !bit w 0 then none else if d.wdgEn then d.wdgSince else some s.clk }

/-- A write of WDG_PER. -/
def State.wdgPerWrite (s : State) (w : Word) : State :=
  let v := fld w 0 16
  s.rwl (v ≠ s.dev.wdgPer) fun s => if v < 100 || 60000 < v then s.errReg else s.updDev fun d => { d with wdgPer := v }

/-- A read of WDG_CTL clears BADKICK. -/
def State.wdgCtl (s : State) : Word × State :=
  let d := s.dev
  (putB 0 d.wdgEn ||| putB 1 d.wdgBite ||| putB 2 d.wdgStrict ||| put 8 d.badKick, s.updDev fun d => { d with badKick := 0 })

/-- WDG_LEFT: whole milliseconds left before a bite. -/
def State.wdgLeft (s : State) : Word := w32 (((s.wdgEnd.getD s.clk) - s.clk) / 1000000)

/-! ### SAFE_CTL and SAFE_STAT (Table 16.5) -/

/-- A write of SAFE_CTL: releases whose condition is unmet are ignored and counted. A bite or an APPLY of the same instant comes first,
and the release of that cause is then ignored (Table 16.9). -/
def State.safeCtlWrite (s : State) (w : Word) : State :=
  let s := s.wdgDue
  let s := s.rwl (bit w 4 != s.dev.fsOvr || bit w 5 != s.dev.fsSup) fun s => s.updDev fun d => { d with fsOvr := bit w 4, fsSup := bit w 5 }
  let s := s.updDev fun d => { d with fsForce := bit w 6 }
  let s := if !bit w 2 then s else if s.kiln.ovrConsec = 0 then s.safeRelease 1 else s.errReg
  let s := if !bit w 3 then s else if s.dev.wdgBite then s.errReg else s.safeRelease 2
  let s := if bit w 1 && !bit w 0 then s.safeRelease 3 else s
  if bit w 0 then s.safeApply 3 (s.onPorts 10) none else s

/-- SAFE_CTL reads its FS bits. -/
def State.safeCtl (s : State) : Word := putB 4 s.dev.fsOvr ||| putB 5 s.dev.fsSup ||| putB 6 s.dev.fsForce

/-- A read of SAFE_STAT clears APPLIES. -/
def State.safeStat (s : State) : Word × State :=
  let on (c : Nat) : Bool := safePorts.any fun p => (s.port p).cause c
  (putB 0 (on 0) ||| putB 1 (on 1) ||| putB 2 (on 2) ||| putB 3 (on 3) ||| putB 4 s.failsafeLow |||
    putB 5 (safePorts.any fun p => (s.port p).pend) ||| put 8 (min 255 (safePorts.filter fun p => (s.port p).safe).length) |||
    put 16 s.dev.safeApplies, s.updDev fun d => { d with safeApplies := 0 })

/-! ### SHP_CTL and SHP_STAT (Table 17.12) -/

/-- The tags in use: of entries taken or waiting, and of completions not yet popped (R447). -/
def State.shpTags (s : State) : List Nat :=
  (s.shp.waiting.map fun bs => leAt bs 2 2) ++ (s.shp.entries.map Entry.cid) ++ s.shp.comps.map fun bs => leAt bs 0 2

/-- A write of SHP_CTL (R161, R429, R451). -/
def State.shpCtlWrite (s : State) (w : Word) : State :=
  let p := s.shp
  let en := bit w 0
  let sag := fld w 8 6
  if s.dev.lock then (if en == p.en && sag = p.sag && bit w 16 == p.quad then s else s.errLock)
  else if en && (!p.en || sag ≠ p.sag) && (s.fn sag).en then (s.updShp fun p => { p with cfgErr := true }).errReg
  else
    let s := if p.en && (!en || sag ≠ p.sag) then s.flrTreat p.sag else s
    (s.updShp fun p => { p with en, sag, quad := bit w 16, cfgErr := false }).shpRefresh

/-- A read of SHP_STAT clears ERRS. -/
def State.shpStat (s : State) : Word × State :=
  let p := s.shp
  (putB 0 p.active ||| putB 1 p.cfgErr ||| put 8 s.shpTags.length ||| put 16 p.errs, s.updShp fun p => { p with errs := 0 })

/-! ### Kiln and monitor registers -/

/-- KILN_CTL (Table 2.8). -/
def State.kilnCtl (s : State) : Word :=
  let k := s.kiln
  putB 0 k.run ||| putB 1 k.holdover ||| putB 2 k.slewing ||| putB 3 k.tickOutEn ||| put 8 k.ovrLimitNext ||| put 16 k.trim.toNat

/-- A read of KILN_SRC clears GLITCH and HOLD_FR. -/
def State.kilnSrc (s : State) : Word × State :=
  let k := s.kiln
  (put 0 k.src ||| putB 2 k.edge ||| put 8 k.glitch ||| put 16 k.holdFr, s.updKiln fun k => { k with glitch := 0, holdFr := 0 })

/-- A read of KILN_OVR clears TOTAL. -/
def State.kilnOvr (s : State) : Word × State :=
  let k := s.kiln
  (put 0 k.ovrTotal ||| put 16 k.ovrConsec ||| put 24 k.ovrFirstCp, s.updKiln fun k => { k with ovrTotal := 0 })

/-- One bit for each monitor. -/
def wmBits (f : Nat → Bool) : Word := (List.range 32).foldl (fun v n => setBit v n (f n)) 0

/-- The levels that other drivers give the trip lines are no command of the block: a read of GUARD_STAT finds free ones (log
entry 87). -/
def State.tripSeen (s : State) : State :=
  let (v, s) := s.draw
  { s with pins := { s.pins with tripExt := v.setWidth 8 } }

/-- GUARD_STAT (Table 11.3). -/
def State.guardStat (s : State) : Word :=
  let drive := s.tripLines
  let active := (List.range 8).foldl (fun (v : BitVec 8) n => setBit v n ((s.wm n).live.en && (s.wm n).live.guard)) 0
  put 0 drive.toNat ||| put 8 (drive ||| s.pins.tripExt).toNat ||| put 16 active.toNat

/-! ### The map -/

/-- A read of a direct register, READY apart, with its side effects (R411, R418). -/
def State.regGet (s : State) (a : Nat) : Word × State :=
  let d := s.dev
  let cp := s.kiln.accSel
  if a = 0x000 then (w32 devId, s)
  else if a = 0x001 then (d.rev, s)
  else if a = 0x002 then (s.devStat, s)
  else if a = 0x003 then (putB 0 d.autoload, s)
  else if a = 0x004 then (putB 0 d.lock ||| putB 1 d.hard, s)
  else if a = 0x005 then s.devErr
  else if a = 0x006 then (loWord d.uid, s)
  else if a = 0x007 then (hiWord d.uid, s)
  else if a = 0x008 then (put 0 s.msp.tblSel, s)
  else if a = 0x009 then (put 0 s.msp.tblAddr, s)
  else if a = 0x00A then s.tblDataGet
  else if a = 0x00B then (putB 0 s.msp.ainc ||| putB 1 s.msp.hold ||| put 8 s.msp.buf.length, s)
  else if a = 0x00C then s.tblStat
  else if a = 0x00D then (s.tblFailWord, s)
  else if a = 0x010 then (s.kilnCtl, s)
  else if a = 0x011 then (put 0 s.kiln.per, s)
  else if a = 0x012 then s.kilnSrc
  else if a = 0x013 then (s.kiln.frame, s)
  else if a = 0x014 then s.stimeLo
  else if a = 0x015 then s.stimeHi
  else if a = 0x017 then s.kilnOvr
  else if a = 0x018 then (put 0 cp, s)
  else if a = 0x019 then (w32 (s.reservedG cp), s)
  else if a = 0x01A then (w32 (s.cpAcct cp).gWu, s)
  else if a = 0x01B then (w32 (s.cpAcct cp).wbWu, s)
  else if a = 0x01C then (w32 (s.cpAcct cp).defer, s.setCpAcct cp { s.cpAcct cp with defer := 0 })
  else if a = 0x01D then (w32 (s.cpAcct cp).idleWu, s)
  else if a = 0x01E then (w32 s.kiln.accRefuse, s.updKiln fun k => { k with accRefuse := 0 })
  else if a = 0x01F then (w32 s.kiln.accJwake, s.updKiln fun k => { k with accJwake := 0 })
  else if a = 0x020 then (put 0 d.evtPend.toNat, s)
  else if a = 0x021 then (put 0 d.evtMask.toNat, s)
  else if a = 0x022 then s.evtCause
  else if a = 0x023 then (d.evtDetail, s)
  else if a = 0x024 then (d.evtInfo, s)
  else if a = 0x025 then (put 0 d.evtLost, s.updDev fun d => { d with evtLost := 0 })
  else if a = 0x028 then s.wdgCtl
  else if a = 0x029 then (put 0 d.wdgPer, s)
  else if a = 0x02B then (s.wdgLeft, s)
  else if a = 0x030 then (s.hlthMargin 0, s)
  else if a = 0x031 then (s.hlthMargin 1, s)
  else if a = 0x032 then s.hlthTemp
  else if a = 0x033 then (s.hlthVolt, s)
  else if a = 0x034 then s.hlthEcc
  else if a = 0x035 then (s.hlthAge, s)
  else if a = 0x036 then (s.hlthCtl, s)
  else if a = 0x038 then (putB 0 s.lnk.en ||| putB 1 s.lnk.mcap ||| putB 2 s.lnk.mtick ||| putB 3 s.lnk.tsync ||| put 8 s.lnk.rto, s)
  else if a = 0x039 then (put 0 s.lnk.node, s)
  else if a = 0x03A then s.lnkStat
  else if a = 0x03B then s.lnkMaster
  else if a = 0x040 then (s.safeCtl, s)
  else if a = 0x041 then s.safeStat
  else if a = 0x048 then (put 0 s.jrn.maxps, s)
  else if a = 0x049 then (put 0 3 ||| put 12 120, s)
  else if a = 0x04A then s.jrnStat
  else if a = 0x04B then (put 0 s.jrn.idle1, s)
  else if a = 0x04C then (put 0 s.jrn.idle2, s)
  else if a = 0x04D then (w32 s.jrnFree, s)
  else if a = 0x04E then (put 0 s.jrn.spare, s)
  else if a = 0x050 then (putB 0 s.shp.en ||| put 8 s.shp.sag ||| putB 16 s.shp.quad, s)
  else if a = 0x051 then s.shpStat
  else if a = 0x060 then (wmBits fun n => (s.wm n).latch, s)
  else if a = 0x062 then (wmBits fun n => (s.wm n).valid && !(s.wm n).above && !(s.wm n).below, s)
  else if a = 0x063 then (s.tripSeen.guardStat, s.tripSeen)
  else (0, s)

/-- A write of a direct register, READY apart; RO and RC registers and reserved addresses take nothing (R6, R418). -/
def State.regPut (s : State) (a : Nat) (w : Word) : State :=
  if a = 0x003 then s.devCtlWrite w
  else if a = 0x004 then s.devLockWrite w
  else if a = 0x008 then s.tblSelWrite w
  else if a = 0x009 then s.tblAddrWrite w
  else if a = 0x00A then s.tblDataPut w
  else if a = 0x00B then s.tblCtlWrite w
  else if a = 0x010 then s.kilnCtlWrite w
  else if a = 0x011 then s.kilnPerWrite w
  else if a = 0x012 then s.kilnSrcWrite w
  else if a = 0x016 then s.stimeAdjust w.toInt
  else if a = 0x018 then s.updKiln fun k => { k with accSel := fld w 0 5 }
  else if a = 0x020 then s.updDev fun d => { d with evtPend := d.evtPend &&& ~~~ BitVec.ofNat 16 (fld w 0 16) }
  else if a = 0x021 then s.updDev fun d => { d with evtMask := BitVec.ofNat 16 (fld w 0 16) }
  else if a = 0x028 then s.wdgCtlWrite w
  else if a = 0x029 then s.wdgPerWrite w
  else if a = 0x02A then s.wdgKickWrite w
  else if a = 0x033 then s.hlthVoltWrite w
  else if a = 0x036 then s.rwl ((w &&& 0x00FFFF01) != s.hlthCtl) fun s => s.hlthCtlWrite w
  else if a = 0x038 then s.lnkCtlWrite w
  else if a = 0x039 then s.lnkNodeWrite w
  else if a = 0x040 then s.safeCtlWrite w
  else if a = 0x048 then s.jrnCtlWrite w
  else if a = 0x04B then s.jrnIdleWrite false w
  else if a = 0x04C then s.jrnIdleWrite true w
  else if a = 0x050 then s.shpCtlWrite w
  else if a = 0x061 then s.wmClrWrite w
  else s

/-- The MSP serves an address: 0x000 to 0x007 always, the others once READY is 1 (R417). -/
def State.serves (s : State) (a : Nat) : Bool := decide (a < 8) || s.dev.ready

/-- A read of a direct register over the MSP. -/
def State.regRead (s : State) (a : Nat) : Word × State := if s.serves a then s.regGet a else (0, s)

/-- A write of a direct register over the MSP. -/
def State.regWrite (s : State) (a : Nat) (w : Word) : State := if s.serves a then s.regPut a w else s.errReg

/-! ### Commands that are a write or a read of one register -/

/-- LOCK_SET, LOCK_CLEAR: a write of DEV_LOCK with LOCK as named. -/
def execLockSet (w : Word) (s : State) : Out := act (.lockSet w) s fun s => s.devLockWrite (setBit w 0 true)
def execLockClear (w : Word) (s : State) : Out := act (.lockClear w) s fun s => s.devLockWrite (setBit w 0 false)

/-- EVT_CAUSE_READ: the word read is kept in `readData`. -/
def execEvtCauseRead (s : State) : Out :=
  act .evtCauseRead s fun s =>
    let (v, s) := s.regRead 0x022
    s.updMsp fun m => { m with readData := v }

/-- WDG_KICK. -/
def execWdgKick (w : Word) (s : State) : Out := act (.wdgKick w) s fun s => s.served fun s => s.wdgKickWrite w

/-- WDG_ENABLE: a write of WDG_CTL with EN = 1. -/
def execWdgEnable (w : Word) (s : State) : Out := act (.wdgEnable w) s fun s => s.served fun s => s.wdgCtlWrite (setBit w 0 true)

/-- DEVICE_WDG_BITE: due when the window has ended without a valid kick (R398, R399). -/
def execDeviceWdgBite (s : State) : Out := act .deviceWdgBite s fun s => s.wdgDue

/-- APPLY, REL_SUP, REL_OVR, REL_DWDG: a write of SAFE_CTL with that bit set. -/
def execApply (w : Word) (s : State) : Out := act (.apply w) s fun s => s.served fun s => s.safeCtlWrite (setBit w 0 true)
def execRelSup (w : Word) (s : State) : Out := act (.relSup w) s fun s => s.served fun s => s.safeCtlWrite (setBit w 1 true)
def execRelOvr (w : Word) (s : State) : Out := act (.relOvr w) s fun s => s.served fun s => s.safeCtlWrite (setBit w 2 true)
def execRelDwdg (w : Word) (s : State) : Out := act (.relDwdg w) s fun s => s.served fun s => s.safeCtlWrite (setBit w 3 true)

/-- SHP_CTL_WRITE. -/
def execShpCtlWrite (w : Word) (s : State) : Out := act (.shpCtlWrite w) s fun s => s.served fun s => s.shpCtlWrite w

end Sys2Proof.Machine
end

