-- ==== Sys2Proof/Machine/Shp.lean ====
section
/-! DEFINITION. The slim host port's commands (R442 to R450). A request is its CMD byte, its parameters and a CRC; the response is
kept in `Shp.response`. -/

namespace Sys2Proof.Machine

/-! ### Framing (R444, Tables 18.9, 18.10) -/

/-- The length of a request, CRC included, by its CMD byte; none: CMD undefined. -/
def shpLength (req : List Byte) : Option Nat :=
  let c := leAt req 0 1
  if c = 0x10 || c = 0x16 || c = 0x1A || c = 0x1B then some 2
  else if c = 0x11 then some 66
  else if c = 0x12 || c = 0x13 then some 3
  else if c = 0x14 then some (7 + leAt req 4 2)
  else if c = 0x15 then some 7
  else if c = 0x17 then some 5
  else if c = 0x18 then some 7
  else if c = 0x19 then some 12
  else none

/-- Send a response: STS, the data, and the CRC over both. `flag`: bit 0 ACK, 1 CRCERR, 2 CMDERR, 3 REJECT. -/
def State.shpRespond (s : State) (flag : Nat) (data : List Byte) : State :=
  let sts := 128 + 2 ^ flag + (if s.shpIrqLow then 16 else 0) + (if s.shp.active then 32 else 0)
  let body := leBytes 1 sts ++ data
  s.updShp fun p => { p with response := body ++ [crc8 body] }

/-- A command that is rejected in some way is counted in ERRS and in DEV_ERR.HOST (R444, Table 17.6). -/
def State.shpBad (s : State) (flag : Nat) : State :=
  ((s.updShp fun p => { p with errs := sat16 p.errs }).errHost).shpRespond flag []

/-- A command is refused with REJECT; the reason is kept for STATUS (Table 18.11). -/
def State.shpReject (s : State) (reason : Nat) : State := (s.updShp fun p => { p with lastRej := reason }).shpBad 3

/-- A command is accepted. -/
def State.shpAck (s : State) (data : List Byte) : State := s.shpRespond 0 data

/-- The frame checks of a request in the order of R416, and then the command with its parameter bytes. A request with another
command's code is not this command's. -/
def State.shpCommand (s : State) (cmd : Nat) (req : List Byte) (f : State → List Byte → State) : State :=
  let s := s.updShp fun p => { p with response := [] }
  if !s.shp.en then s.errHost
  else
    let short := match shpLength req with | some n => decide (req.length < n) | none => decide (req.length < 2)
    if short then s.errHost
    else if crc8 req.dropLast != req.getLastD 0 then s.shpBad 1
    else match shpLength req with
      | none => s.shpBad 2
      | some n =>
        if req.length ≠ n then s.shpBad 2
        else if leAt req 0 1 ≠ cmd then s
        else f s (req.drop 1).dropLast

/-- The command acts for the bound saggar, which the port must be serving. -/
def State.shpServing (s : State) (f : State → State) : State := if s.shp.active then f s else s.shpReject 1

/-! ### STATUS, COMPLETE, EVENTS, IDENTIFY -/

/-- The STATUS block (Table 18.11). -/
def State.shpBlock (s : State) : List Byte :=
  let p := s.shp
  let tags := s.shpTags.foldl (fun (v : Word) t => if t < 32 then setBit v t true else v) 0
  leBytes 4 tags.toNat ++ leBytes 1 p.comps.length ++ leBytes 1 p.events.length ++
    leBytes 1 (b2n p.active + 2 * b2n p.error + 4 * b2n p.ctl.isSome + 8 * b2n p.ctlDone + 16 * b2n (s.sag p.sag).hbDown) ++
    leBytes 1 p.lastRej ++ leBytes 2 p.ctlStatus.code ++ leBytes 2 p.ctlInfo.toNat ++ leBytes 4 s.kiln.frame.toNat

/-- STATUS (R444). -/
def execShpStatus (req : List Byte) (s : State) : Out :=
  act (.shpStatus req) s fun s => s.shpCommand 0x10 req fun s _ =>
    (s.updShp fun p => { p with ctlDone := false }).shpAck s.shpBlock

/-- COMPLETE pops up to n completions and frees their tags (R449). -/
def execShpComplete (req : List Byte) (s : State) : Out :=
  act (.shpComplete req) s fun s => s.shpCommand 0x12 req fun s a =>
    let n := leAt a 0 1
    if n = 0 || 8 < n then s.shpReject 8
    else
      let out := s.shp.comps.take n
      (s.updShp fun p => { p with comps := p.comps.drop n }).shpAck (leBytes 1 out.length ++ out.flatten)

/-- EVENTS pops up to n events; a lost count is reported once a place is free (R449, R132). -/
def execShpEvents (req : List Byte) (s : State) : Out :=
  act (.shpEvents req) s fun s => s.shpCommand 0x13 req fun s a =>
    let n := leAt a 0 1
    if n = 0 || 8 < n then s.shpReject 8
    else
      let out := s.shp.events.take n
      let s := s.updShp fun p => { p with events := p.events.drop n }
      let s := if s.shp.active then s.evqOverflow s.shp.sag else s
      s.shpAck (leBytes 1 out.length ++ out.flatten)

/-- IDENTIFY: the block of Table 6.6 with the SQ and CQ grants zero (Table 18.10). -/
def execShpIdentify (req : List Byte) (s : State) : Out :=
  act (.shpIdentify req) s fun s => s.shpCommand 0x1B req fun s _ => s.shpServing fun s =>
    s.shpAck (patch (s.identifyBlock s.shp.sag) 192 (zeros 64))

/-! ### SUBMIT (R447, R448) -/

/-- SUBMIT; a heartbeat loss that is due comes first (Table 18.12). -/
def execShpSubmit (req : List Byte) (s : State) : Out :=
  act (.shpSubmit req) s fun s => s.shpCommand 0x11 req fun s a => s.shpServing fun s =>
    let tag := leAt a 2 2
    if s.shp.error then s.shpReject 4
    else if 31 < tag then s.shpReject 2
    else if s.shpTags.contains tag then s.shpReject 3
    else if s.shp.qresetting then s.shpReject 5
    else ((s.hbLose s.shp.sag).updShp fun p => { p with waiting := p.waiting ++ [a] }).shpAck []

/-! ### LS_WRITE, LS_READ, HEARTBEAT (R445, R446) -/

/-- The refusal of a local-store range (R445): length, mapping, and for a write the program locks. -/
def State.shpRange (s : State) (off n : Nat) (write : Bool) : Option Nat :=
  if n = 0 || 4096 < n then some 8
  else if !s.lsMapped s.shp.sag off n then some 6
  else if write && s.lsLocked s.shp.sag off n then some 7
  else none

/-- LS_WRITE. -/
def execLsWrite (req : List Byte) (s : State) : Out :=
  act (.lsWrite req) s fun s => s.shpCommand 0x14 req fun s a => s.shpServing fun s =>
    match s.shpRange (leAt a 0 3) (leAt a 3 2) true with
    | some r => s.shpReject r
    | none => (s.lsWrite s.shp.sag (leAt a 0 3) (a.drop 5)).shpAck []

/-- LS_READ. A read of a poisoned unit fails (R384): the command is rejected, with a reason the spec does not give. -/
def execLsRead (req : List Byte) (s : State) : Out :=
  act (.lsRead req) s fun s => s.shpCommand 0x15 req fun s a => s.shpServing fun s =>
    let off := leAt a 0 3
    let n := leAt a 3 2
    match s.shpRange off n false with
    | some r => s.shpReject r
    | none =>
      if s.lsPoisoned s.shp.sag off n then
        let (v, s) := s.draw
        s.shpReject (v.toNat % 256)
      else s.shpAck (s.lsRead s.shp.sag off n)

/-- HEARTBEAT (R446, R173). -/
def execShpHeartbeat (req : List Byte) (s : State) : Out :=
  act (.shpHeartbeat req) s fun s => s.shpCommand 0x16 req fun s _ => s.shpServing fun s => (s.hbBeat s.shp.sag).shpAck []

/-! ### Control commands (R446) -/

/-- A control command is accepted and runs in the background. -/
def State.shpControl (s : State) (cmd : Nat) (a : List Byte) : State :=
  s.shpServing fun s =>
    if s.shp.ctl.isSome then s.shpReject 5
    else (s.updShp fun p => { p with ctl := some { cmd, req := a } }).shpAck []

/-- SETUP is refused while any tag is in use. -/
def execShpSetup (req : List Byte) (s : State) : Out :=
  act (.shpSetup req) s fun s => s.shpCommand 0x17 req fun s a => s.shpServing fun s =>
    if s.shp.ctl.isSome then s.shpReject 5
    else if !s.shpTags.isEmpty then s.shpReject 9
    else s.shpControl 0x17 a

/-- PAGES. -/
def execShpPages (req : List Byte) (s : State) : Out :=
  act (.shpPages req) s fun s => s.shpCommand 0x18 req fun s a => s.shpControl 0x18 a

/-- NS. -/
def execShpNs (req : List Byte) (s : State) : Out :=
  act (.shpNs req) s fun s => s.shpCommand 0x19 req fun s a => s.shpControl 0x19 a

/-- The journal job of an entry of the queue has begun its media access (R305), or can no longer end without effect. -/
def State.shpOnMedia (s : State) (e : Entry) : Bool :=
  e.kind == .journal && e.endStatus.isNone && ((s.jobOf .shp e.eid).map fun j => !s.revocable j).getD false

/-- Step 1 of QRESET (R450): nothing more is taken, programs halt, armings end, and journal commands not begun go. -/
def State.shpStop (s : State) : State :=
  let keep (e : Entry) : Bool := s.shpOnMedia e || ((e.kind == .start || e.kind == .trg || e.kind == .halt) && e.phase == .begun)
  let gone := (s.shp.entries.filter fun e => e.kind == .journal && !s.shpOnMedia e).filterMap fun e => s.jobOf .shp e.eid
  let s := s.updShp fun p => { p with
    qresetting := true, entries := p.entries.map fun e => if keep e || e.endStatus.isSome then e else { e with phase := .ended .aborted } }
  let s := gone.foldl (fun s j => s.cancelJob j.id) s
  ((s.schsOf .shp).foldl (fun s n => s.haltSch n .qreset) s).jrnWork.work

/-- QRESET. -/
def execShpQreset (req : List Byte) (s : State) : Out :=
  act (.shpQreset req) s fun s => s.shpCommand 0x1A req fun s a => s.shpServing fun s =>
    if s.shp.ctl.isSome then s.shpReject 5 else (s.shpControl 0x1A a).shpStop

/-- A control command ends (R446). -/
def State.shpDone (s : State) (st : Status) (info : BitVec 16) : State :=
  s.updShp fun p => { p with ctl := none, ctlDone := true, ctlStatus := st, ctlInfo := info }

/-- SETUP: the earlier reservation is released, and subchannels are reserved (R446, R147 step 5). -/
def State.shpReserve (s : State) (cp cd jd : Nat) : State :=
  if !(decide (cp < 32) || cp == 0xFF) || 8 < cd || 32 < jd then s.shpDone .malformedEntry 0
  else if !(s.sag s.shp.sag).clsW then s.shpDone .refusedRights 0
  else
    let s := (s.unreserve .shp).updShp fun p => { p with cdepth := 0, jdepth := 0, cp := 0xFF, mask := 0 }
    if (s.sag s.shp.sag).subLim < s.schsHeld s.shp.sag + cd then s.shpDone .refusedResource 0
    else match s.placeQueue .w cp cd with
      | none => s.shpDone .refusedResource 0
      | some (c, l) =>
        let s := (s.reserve .shp l).updShp fun p => { p with cdepth := cd, jdepth := jd, cp := if cd = 0 then 0xFF else c, mask := ctxMask l }
        s.shpDone .ok (BitVec.ofNat 16 (c + 256 * (ctxMask l).toNat))

/-- PAGES as ALLOC_PAGES or FREE_PAGES: an allocation waits while its pages are being zeroed (R154). -/
def State.shpPagesStep (s : State) (a : List Byte) : State :=
  let sag := s.shp.sag
  let first := leAt a 1 2
  let n := leAt a 3 2
  let entry (op : Nat) : List Byte := padTo 64 (leBytes 4 op ++ leBytes 4 first ++ leBytes 4 n)
  if leAt a 0 1 = 1 then
    if admBad (entry 0x8B) then s.shpDone .malformedEntry 0
    else
      let (st, s) := s.freePages sag first n
      s.shpDone st 0
  else if leAt a 0 1 ≠ 0 || admBad (entry 0x8A) then s.shpDone .malformedEntry 0
  else
    let chosen := match (s.fn sag).pagesWait with
      | some ps => s.repick ps
      | none => s.allocPages sag first n
    let s := s.updFn sag fun f => { f with pagesWait := chosen }
    match chosen with
    | none => s.shpDone .refusedResource 0
    | some ps =>
      if s.pagesFree ps then ((s.mapPages sag first ps).updFn sag fun f => { f with pagesWait := none }).shpDone .ok 0 else s

/-- NS as CREATE_NS or DELETE_NS (R155). -/
def State.shpNsStep (s : State) (a : List Byte) : State :=
  let nsid := leAt a 1 4
  let entry (op : Nat) : List Byte :=
    if op = 0x8C then padTo 64 (leBytes 4 op ++ leBytes 4 nsid ++ leBytes 8 (leAt a 5 1) ++ leBytes 4 (leAt a 6 4)) else padTo 64 (leBytes 4 op ++ leBytes 4 nsid)
  if leAt a 0 1 = 0 then
    if admBad (entry 0x8C) then s.shpDone .malformedEntry 0
    else
      let (st, s) := s.createNs s.shp.sag nsid (leAt a 5 1) (leAt a 6 4)
      s.shpDone st 0
  else if leAt a 0 1 ≠ 1 || admBad (entry 0x8D) then s.shpDone .malformedEntry 0
  else
    let (st, s) := s.deleteNs s.shp.sag nsid
    s.shpDone st 0

/-- Steps 2 to 4 of QRESET (R450), once every program has ended and every journal command on the media has completed. -/
def State.shpQresetStep (s : State) : State :=
  if ((s.schsOf .shp).any fun n => (s.sch n).state != .idle) || s.shp.entries.any s.shpOnMedia then s
  else
    let rest := (s.shp.entries.map fun e => { e with phase := .ended .aborted }) ++
      s.shp.waiting.map fun bs =>
        let e := { s.blankEntry 0 (leAt bs 2 2) with phase := .ended .aborted }
        if isJrnOp bs && !jrnBad bs false then jrnEntry bs e else e
    let s := s.updShp fun p => { p with
      comps := p.comps ++ rest.map s.shpComp, entries := [], waiting := [], error := false, qresetting := false }
    s.shpDone .ok 0

/-- SHP_CONTROL_DONE: the control command in progress ends; a change of shared state waits while a table check runs (R424), or
while a command that began before is not yet applied (R159). -/
def execShpControlDone (s : State) : Out :=
  act .shpControlDone s fun s =>
    match s.shp.ctl with
    | none => s
    | some c =>
      if c.cmd = 0x1A then s.shpQresetStep
      else if s.msp.busy.isSome || s.sharedHeld then s
      else if c.cmd = 0x17 then s.shpReserve (leAt c.req 0 1) (leAt c.req 1 1) (leAt c.req 2 1)
      else if c.cmd = 0x18 then s.shpPagesStep c.req
      else s.shpNsStep c.req

end Sys2Proof.Machine
end

