-- ==== Sys2Proof/Machine/Power.lean ====
section
/-! DEFINITION. Reset, bisque and autoload (chapter 19): PORST_N, WARM_N, TEST_MODE and brown-out (R454 to R457), what survives
(R461), the end of bisque (R374, R458, R460), the station image (R462 to R465), the warm reset (R469), and the JTAG instruction
register (R488). -/

namespace Sys2Proof.Machine

/-! ### PORST_N and brown-out (R454, R456, R461) -/

/-- The units and rows that stay retired across every reset (R373, R461). -/
def Health.persist (h : Health) : Health :=
  { units := (h.units.filter fun e => e.2.state == .retired).map fun e =>
      (e.1, { state := .retired, factory := e.2.factory, last := e.2.last, tested := false, slow := e.2.slow, ageWarned := e.2.ageWarned })
    subs := (h.subs.map fun e => (e.1, { e.2 with corrected := 0 })).filter fun e => e.2 != {}
    failMap := h.failMap &&& 0b110000 }

/-- The zeroing of namespaces that a loss of power interrupts begins again: ZEROING survives with the other JNS fields (R461). -/
def State.zeroJobs (s : State) : List Job :=
  (s.nss.zipIdx.filter fun e => e.1.2.zeroing).map fun e =>
    { id := e.2, who := .zero e.1.1, sag := e.1.2.owner, rank := 1, opc := 0, nsid := e.1.1, folio := 0, nfol := e.1.2.nfol
      total := e.1.2.nfol, ready := true, seq := e.2 }

/-- Every register and table at its reset value, but for the state that survives; input pins stay as they are from outside. -/
def State.coldReset (s : State) (brownOut : Bool) : State :=
  { pending := s.pending, serial := s.serial, freeCtr := s.freeCtr, path := s.path
    gpio := { level := s.gpio.level }
    encs := (s.encs.map fun e => (e.1, ({ a := e.2.rawA, b := e.2.rawB, rawA := e.2.rawA, rawB := e.2.rawB } : Enc))).filter fun e =>
      e.2 != {}
    wms := (s.wms.map fun e => (e.1, ({ input := e.2.input } : Wm))).filter fun e => e.2 != {}
    pins := { tripExt := s.pins.tripExt, peClkreqN := s.pins.peClkreqN }
    ls := { pages := s.ls.pages.filter fun e => e.2 == .retired }
    nss := s.nss.map fun e => (e.1, { e.2 with corr := 0, uncorr := 0 })
    jrn := { nextJob := s.nss.length, jobs := s.zeroJobs, folios := s.jrn.folios, spare := s.jrn.spare, lostFolios := s.jrn.lostFolios, remaps := s.jrn.remaps }
    dev := { rev := s.dev.rev, uid := s.dev.uid, gradeX := s.dev.gradeX, autoload := s.dev.autoload }
    power := {
      porst := true, brownOut, testMode := s.power.testMode, jtagIr := s.power.jtagIr
      boundary := s.power.boundary }
    health := s.health.persist
    pcie := { perst := s.pcie.perst } }

/-- PORST_N_ASSERT (R456). -/
def execPorstNAssert (s : State) : Out :=
  always s fun s => if s.power.porst then s else (s.journalLoss false).coldReset false

/-- BROWN_OUT: the folio operation in progress completes, and the state is that of PORST_N asserted (R454). -/
def execBrownOut (s : State) : Out :=
  always s fun s => if s.power.porst then { s with power := { s.power with brownOut := true } } else (s.journalLoss true).coldReset true

/-- PORST_N_RELEASE: STIME starts at zero, and bisque begins unless TEST_MODE is high (R28, R457, R458). -/
def execPorstNRelease (s : State) : Out :=
  always s fun s =>
    if !s.power.porst then s
    else { s with
      clk := 0, stime := 0
      power := { s.power with porst := false, brownOut := false, bisque := !s.power.testMode, bisqueWarm := false, stepAt := 0 }
      dev := { s.dev with step := if s.power.testMode then 0 else 1 } }

/-- TEST_MODE (R457). -/
def execTestMode (high : Bool) (s : State) : Out :=
  always s fun s =>
    let s : State := { s with power := { s.power with testMode := high } }
    if high then { s with power := { s.power with bisque := false }, dev := { s.dev with ready := false, step := 0 } } else s

/-! ### Warm reset (R469, Table 19.9) -/

/-- The saggars served by a function or by the slim host port. -/
def State.servedSags (s : State) : List Nat := (s.enabledFns ++ (if s.shp.en then [s.shp.sag] else [])).eraseDups

/-- The MSP interface is reset (R417). -/
def State.mspReset (s : State) : State := s.updMsp fun m => { m with repeatBuf := none, response := [], buf := [], hold := false, busy := none }

/-- The node leaves the ring until WARM_N rises; LNK_CTL keeps its value. -/
def State.lnkPause (s : State) : State :=
  if !s.lnk.en then s
  else
    let s := s.lnkOff.updLnk fun l => { l with en := true }
    { s with power := { s.power with reinsert := true } }

/-- The effects of Table 19.9 when the warm reset begins; before READY following a PORST_N it is ignored. -/
def State.warmBegin (s : State) (pin : Bool) : State :=
  if !s.dev.ready && !s.power.bisqueWarm then s
  else
    let s := s.servedSags.foldl (fun s sag => s.flrTreat sag) s
    let s := (s.autos.filterMap fun e => e.2.map Auto.sag).eraseDups.foldl (fun s sag => s.killAutos sag) s
    let s := s.ls.view.foldl (fun s e => s.unmapPage (e.1 / 4096) (e.1 % 4096)) s
    let s := s.mspReset.lnkPause
    { s with
      power := { s.power with warmPin := pin, warmReq := false, bisque := false, bisqueWarm := true }
      dev := { s.dev with ready := false, step := 0, warmStat := true }
      shp := { s.shp with active := false } }

/-- WARM_N has risen: the warm bisque runs, and an enabled node inserts again (R458, R468). -/
def State.warmRun (s : State) : State :=
  let s : State := { s with
    power := { s.power with warmPin := false, bisque := !s.power.testMode, stepAt := s.clk }
    dev := { s.dev with step := if s.power.testMode then 0 else 4 } }
  if s.power.reinsert then { s.lnkOn with power := { s.power with reinsert := false } } else s

/-- A warm reset that DEV_CTL.WARM asked for (Table 17.6). -/
def State.warmAsked (s : State) : State :=
  if !s.power.warmReq then s
  else
    let s : State := { s with power := { s.power with warmReq := false } }
    if !s.dev.ready && !s.power.bisqueWarm then s else (s.warmBegin false).warmRun

/-- WARM: a write of DEV_CTL with WARM = 1. -/
def execWarm (w : Word) (s : State) : Out := act (.warm w) s fun s => (s.devCtlWrite (setBit w 1 true)).warmAsked

/-- WARM_N_ASSERT. -/
def execWarmNAssert (s : State) : Out := act .warmNAssert s fun s => if s.power.warmPin then s else s.warmBegin true

/-- WARM_N_RELEASE. -/
def execWarmNRelease (s : State) : Out := act .warmNRelease s fun s => if s.power.warmPin then s.warmRun else s

/-! ### Bisque: units, repair records, local store (R374, R389, Table 19.3) -/

/-- A logical number is left without a unit (R374, Table 15.4). -/
def State.failLogical (s : State) (c i : Nat) : State :=
  let s := if c = 0 then s.updHealth fun h => { h with failedCps := h.failedCps ++ [i] }
    else if c = 1 then s.updBm i fun b => { b with failed := true }
    else if c = 2 then s.updHealth fun h => { h with engines := h.engines.filter (· != i) }
    else s.updPort i fun p => { p with failed := true }
  s.classFailed c i 0 0

/-- The healthy units of a class serve its logical numbers in increasing order; the others are tested spares. -/
def State.assignClass (s : State) (c n : Nat) : State :=
  let good := (classEntries c).filter fun e => (s.unit e).state != .retired
  let s := good.zipIdx.foldl (fun s x =>
    let u := s.unit x.1
    s.setUnit x.1 { u with
      state := if x.2 < n then .active else .spare, logical := if x.2 < n then x.2 else 0xFF, tested := true, spareSince := s.clk
      tests := (u.tests + 1) % 2 ^ 32, testFrame := s.kiln.frame.toNat % 65536 }) s
  (List.range n).foldl (fun s i => if i < good.length then s else s.failLogical c i) s

/-- The class of a REPAIR entry. -/
def entryClass (e : Nat) : Nat := if e < 36 then 0 else if e < 54 then 1 else if e < 59 then 2 else 3

/-- Step 3: a unit that a record of the factory map or of the repair ring names as retired stays retired (R372, R374, Table 15.7). -/
def State.readRepairMap (s : State) : State :=
  let records := (s.jrn.folios.filter fun e => decide (3584 ≤ e.1 ∧ e.1 < 4096)).flatMap fun e => match e.2 with
    | none => []
    | some f => (List.range 64).map fun k => (f.data.drop (64 * k)).take 64
  (records.filter fun r => decide (1 ≤ leAt r 16 1 ∧ leAt r 16 1 ≤ 4 ∧ leAt r 17 1 < 4 ∧ leAt r 22 2 < classSize (leAt r 17 1))).foldl
    (fun s r =>
      let e := classBase (leAt r 17 1) + leAt r 22 2
      let u := s.unit e
      s.setUnit e { u with state := .retired, logical := 0xFF, tested := false, factory := u.factory || leAt r 16 1 == 1 }) s

/-- Step 4: a unit that fails its test is retired, with its record (R373, R374). -/
def State.bisqueFails (s : State) (e : Nat) (t : UnitTest) : State :=
  if (s.unit e).state == .retired || t == .passed then s
  else
    let s := s.retire e
    s.record 2 (entryClass e) (if t = .failedLogic then 1 else 2) (s.unit e).last (e - classBase (entryClass e)) 0 0

/-- Step 5: a spare row that fails the march test is gone; a row that fails it is spared (R383). -/
def State.march (s : State) (f : Config.BisqueFinds) : State :=
  let s := f.spareRows.foldl (fun s i => s.setSubarray i { s.subarray i with spares := (s.subarray i).spares - 1 }) s
  f.rows.foldl (fun s r => s.spareRow (128 * r) 4) s

/-- Steps 4 and 6: every class assigned anew, and the margins set. -/
def State.assignUnits (s : State) : State :=
  let s := s.updHealth fun h => { h with failedCps := [], engines := [0, 1, 2, 3], failMap := h.failMap &&& 0b110000, rotHalted := false }
  let s := (List.range 16).foldl (fun s i => s.updBm i fun b => { b with failed := false }) s
  let s := (List.range 48).foldl (fun s i => s.updPort i fun p => { p with failed := false }) s
  let s := (((s.assignClass 0 32).assignClass 1 16).assignClass 2 4).assignClass 3 48
  (s.updHealth fun h => { h with marginsSet := true }).record 10 0xFF 0 0xFFFF 0xFFFF 0 0

/-- The SEQ numbers of the repair records in namespace 0. -/
def State.recordSeqs (s : State) : List Word :=
  (s.jrn.folios.filter fun e => decide (3600 ≤ e.1 ∧ e.1 < 4096)).flatMap fun e => match e.2 with
    | none => []
    | some f => (List.range 64).filterMap fun k =>
        let r := (f.data.drop (64 * k)).take 64
        if allZero r then none else some (w32 (leAt r 0 4))

/-- Step 3: the next SEQ is one more than the highest found under serial comparison (R389, R32). -/
def State.nextSeq (s : State) : Nat :=
  match s.recordSeqs with
  | [] => 0
  | w :: rest => ((rest.foldl (fun best v => if inPast best v then v else best) w) + 1).toNat

/-- Step 5: all of local store is zeroed, and pages being zeroed return to the pool. -/
def State.zeroStore (s : State) : State :=
  let page (e : Nat × PageState) : Option (Nat × PageState) := match e.2 with
    | .zeroing _ => if s.ls.retiring.contains e.1 then some (e.1, .retired) else none
    | p => some (e.1, p)
  { s with ls := { s.ls with mem := [], poison := [], pages := s.ls.pages.filterMap page, retiring := [] } }

/-! ### The station image (R462, R463) -/

/-- A record of the image. -/
structure ImgRec where
  type : Nat
  body : List Byte
deriving DecidableEq, Repr

/-- The first bytes of the image region of namespace 0. -/
def State.imageBytes (s : State) (n : Nat) : List Byte :=
  ((List.range (ceilDiv n 4096)).flatMap fun i => match s.folioAt 0 i with | some f => padTo 4096 f.data | none => zeros 4096).take n

/-- The records that tile the bytes after the header. -/
def imageRecs : Nat → List Byte → Option (List ImgRec)
  | 0, bs => if bs.isEmpty then some [] else none
  | k + 1, bs =>
    if bs.isEmpty then some []
    else
      let n := leAt bs 4 4
      let m := ceilDiv n 8 * 8
      if bs.length < 8 + m || leAt bs 1 3 ≠ 0 || !allZero ((bs.drop (8 + n)).take (m - n)) then none
      else (imageRecs k (bs.drop (8 + m))).map fun rs => { type := leAt bs 0 1, body := (bs.drop 8).take n } :: rs

/-- A REG pair that Table 19.7 permits. -/
def regPermitted (a : Nat) (w : Word) : Bool :=
  if a = 0x010 then !bit w 0
  else if a = 0x038 then !bit w 0 && !bit w 24
  else if a = 0x040 then (w &&& 0xFFFFFF8F) == 0
  else if a = 0x048 then !bit w 2
  else ([0x011, 0x012, 0x021, 0x028, 0x029, 0x036, 0x039, 0x04B, 0x04C, 0x050] : List Nat).contains a

/-- Pairs of a REG body. -/
def regPairs (b : List Byte) : List (Nat × Word) :=
  (List.range (b.length / 8)).map fun k => (leAt b (8 * k) 4, w32 (leAt b (8 * k + 4) 4))

/-- A start slot as a start entry: the same fields, in the layout of Table 5.3. -/
def slotEntry (b : List Byte) : List Byte :=
  padTo 64 ([1, if leAt b 20 1 % 2 = 1 then 8 else 0] ++ zeros 6 ++ (b.take 20))

/-- A start slot is good (R463): R82, R120, R98, no STATA in host memory, reserved bytes zero. -/
def slotOk (b : List Byte) (g : Bool) : Bool :=
  let stata := BitVec.ofNat 64 (leAt b 8 8)
  leAt b 20 4 < 2 && allZero (b.drop 24) && (stata == 0 || isLs stata) && !chanBad (slotEntry b) false g

/-- The start slots of an AUTO body. -/
def autoSlots (b : List Byte) : List (List Byte) :=
  (List.range (leAt b 3 1)).map fun k => (b.drop (8 + 8 * leAt b 4 2 + 32 * k)).take 32

/-- A record's body is good (Tables 19.7, 19.8). -/
def ImgRec.ok (r : ImgRec) : Bool :=
  let b := r.body
  let n := b.length
  if r.type = 1 then n % 8 == 0 && (regPairs b).all fun x => regPermitted x.1 x.2
  else if r.type = 2 then leAt b 1 1 == 0 && decide (8 ≤ n ∧ n ≤ 516) && n % 4 == 0
  else if r.type = 3 then
    decide (8 ≤ n) && leAt b 1 1 == 0 && leAt b 6 2 == 0 && decide (1 ≤ leAt b 4 2 ∧ leAt b 4 2 ≤ 3583) && n == 8 + 4096 * leAt b 4 2
  else if r.type = 4 then
    let cp := leAt b 1 1
    let cls := leAt b 2 1
    let ns := leAt b 3 1
    let np := leAt b 4 2
    decide (8 ≤ n) && (decide (cp < 32) || cp == 0xFF) && decide (cls < 2) && decide (1 ≤ ns ∧ ns ≤ 8) &&
      (if cls = 0 then decide (1 ≤ np ∧ np ≤ 64) else np == 0) && leAt b 6 2 == 0 && n == 8 + 8 * np + 32 * ns &&
      (autoSlots b).all fun sl => slotOk sl (cls == 0)
  else false

/-- No AUTO record precedes a record of another type. -/
def autosLast (rs : List ImgRec) : Bool := (rs.dropWhile fun r => r.type != 4).all fun r => r.type == 4

/-- The check of the whole image (R463): its FLAGS and records, or none. -/
def State.image? (s : State) : Option (Nat × List ImgRec) :=
  let h := s.imageBytes 64
  let len := leAt h 8 4
  if leAt h 0 4 ≠ 0x5C901A6E || leAt h 4 2 ≠ 1 || 16 ≤ leAt h 6 2 || len % 8 ≠ 0 || len < 64 || 14680064 < len ||
      leAt h 16 4 ≠ devId || !allZero (h.drop 20) then none
  else
    let bs := s.imageBytes len
    if (crc32 (patch bs 12 (zeros 4))).toNat ≠ leAt h 12 4 then none
    else match imageRecs (len / 8) (bs.drop 64) with
      | none => none
      | some rs => if rs.all ImgRec.ok && autosLast rs then some (leAt h 6 2, rs) else none

/-! ### Applying the image (R464) -/

/-- A REG write; none: it was ignored. -/
def State.putReg (s : State) (a : Nat) (w : Word) : Option State :=
  let d := s.dev
  let t := ((s.updDev fun d => { d with errReg := 0, errLock := 0 }).regPut a w)
  if t.dev.errReg = 0 && t.dev.errLock = 0 then some (t.updDev fun x => { x with errReg := d.errReg, errLock := d.errLock }) else none

/-- A TBL record as one commit; the report tells whether it was refused. -/
def State.putTbl (s : State) (b : List Byte) : Bool × State :=
  let first := leAt b 2 2
  let words := (List.range ((b.length - 4) / 4)).map fun k => (first + k, w32 (leAt b (4 + 4 * k) 4))
  let s := (s.updMsp fun m => { m with last := 0 }).tblChange (leAt b 0 1) words
  (decide (s.msp.last = 0) && s.msp.busy.isNone, s)

/-- A PAGES record: pages are mapped as ALLOC_PAGES maps them, and filled. -/
def State.putPages (s : State) (b : List Byte) : Option State :=
  let sag := leAt b 0 1
  let first := leAt b 2 2
  if 64 ≤ sag || !(s.sag sag).en then none
  else match s.allocPages sag first (leAt b 4 2) with
    | none => none
    | some ps => if s.pagesFree ps then some ((s.mapPages sag first ps).lsWrite sag (4096 * first) (b.drop 8)) else none

/-- The start slots as entries of autonomous queue `k`. -/
def State.autoEntries (s : State) : List (List Byte) → State × List Entry
  | [] => (s, [])
  | b :: rest =>
    let s := s.tick1
    let e := chanEntry (slotEntry b) (s.blankEntry 0 0)
    let (s, es) := s.autoEntries rest
    (s, e :: es)

/-- An AUTO record: steps 4 to 6 of R147, and the autonomous queue (R466). -/
def State.putAuto (s : State) (k : Nat) (b : List Byte) : Option State :=
  let sag := leAt b 0 1
  let x := s.sag sag
  let cls : Cls := if leAt b 2 1 = 0 then .g else .w
  let n := leAt b 3 1
  let progs := (List.range (leAt b 4 2)).map fun i => BitVec.ofNat 64 (leAt b (8 + 8 * i) 8)
  if 64 ≤ sag || !x.en || !(if cls = .g then x.clsG else x.clsW) || x.subLim < s.schsHeld sag + n then none
  else match s.placeQueue cls (leAt b 1 1) n with
    | none => none
    | some (cp, schs) =>
      let (s, starts) := s.autoEntries (autoSlots b)
      let make (s : State) : State :=
        let s := s.reserve (.auto k) schs
        { s with autos := s.autos.set none k (some { sag, cp, cls, depth := n, mask := ctxMask schs, progs, starts }) }
      if cls = .g then
        let cs := s.candidates (s.existingG ++ [({ q := .auto k, sag, cp, depth := n, schs, plist := progs }, [])])
        match cs.getLast? with
        | none => none
        | some c =>
          if !c.fig.cells.isEmpty || (s.admitTests cs (some c)).reason ≠ 0 then none
          else
            let s := make (s.commitG cs c)
            some (if s.jrnCap && s.jrn.ps == 2 then s.jrnExit else s)
      else some (make s)

/-- One record; the flag tells whether it was accepted. -/
def State.putImgRecord (s : State) (k : Nat) (r : ImgRec) : Bool × State :=
  let done (o : Option State) : Bool × State := match o with | some t => (true, t) | none => (false, s)
  if r.type = 1 then done ((regPairs r.body).foldl (fun o x => o.bind fun s => s.putReg x.1 x.2) (some s))
  else if r.type = 2 then s.putTbl r.body
  else if r.type = 3 then done (s.putPages r.body)
  else done (s.putAuto k r.body)

/-- The records in order, until one is refused. -/
def State.putImgRecords (s : State) (k : Nat) : List ImgRec → Bool × State
  | [] => (true, s)
  | r :: rest =>
    let (ok, s) := s.putImgRecord k r
    if ok then State.putImgRecords s (if r.type = 4 then k + 1 else k) rest else (false, s)

/-- The TRG slots of an autonomous queue are armed (R465). -/
def State.armAuto (s : State) (k : Nat) : State :=
  ((s.entries (.auto k)).filter fun e => e.kind == .trg && e.phase == .waiting).foldl (fun s e =>
    match s.idleSch (.auto k) with
    | some n => s.armOn (.auto k) e n
    | none => s) s

/-- The cabinet starts (R465). -/
def State.startCabinet (s : State) (flags : Nat) : State :=
  let s := s.autos.foldl (fun s e => s.armAuto e.1) s
  let s := if flags / 2 % 2 = 1 && !s.lnk.en && s.kiln.src == 2 then s.lnkOn else s
  let s := if flags % 2 = 1 then s.runSet else s
  let s := if flags / 4 % 2 = 1 && !s.dev.lock then s.updDev fun d => { d with lock := true, hard := flags / 8 % 2 == 1 } else s
  s.updDev fun d => { d with autoloaded := true, autoloadErr := false }

/-- Step 7 (R463 to R465) sets AUTOLOADED and AUTOLOAD_ERR anew; a warm reset itself leaves them (R8, R469). A refusal returns everything to its value before, but for TBL_STAT and TBL_FAIL, which show it. -/
def State.autoloadStep (s : State) : State :=
  match s.image? with
  | none => s.updDev fun d => { d with autoloaded := false, autoloadErr := true }
  | some (flags, rs) =>
    let (ok, t) := s.putImgRecords 0 rs
    if ok then t.startCabinet flags
    else
      let m := t.msp
      let s := s.updMsp fun x => { x with
        last := m.last, refused := m.refused, failAddr := m.failAddr, failId := m.failId, failReason := m.failReason, failSq := m.failSq }
      { s with serial := t.serial, freeCtr := t.freeCtr, dev := { s.dev with autoloaded := false, autoloadErr := true } }

/-- What the tests of a bisque find, where it names a unit, a processor, a row or a subarray that exists. -/
def realFinds (f : Config.BisqueFinds) : Config.BisqueFinds :=
  { failed := f.failed.filter fun x => decide (x.1 < 111)
    slow := f.slow.filter fun x => decide (x.1 < 36)
    rows := f.rows.filter fun r => decide (r < 131072)
    spareRows := f.spareRows.filter fun i => decide (i < 256) }

/-- Steps 3 to 6 of a bisque with what its tests find; a warm one runs no step 3 and no march test (Table 19.3). -/
def State.bisqueWork (s : State) : State :=
  let f := realFinds (Config.bisqueFinds s.freeCtr)
  let s : State := { s with freeCtr := s.freeCtr + 1 }
  let cold := !s.power.bisqueWarm
  let s := if cold then s.readRepairMap.updHealth fun h => { h with recSeq := s.nextSeq } else s
  let s := f.failed.foldl (fun s x => s.bisqueFails x.1 x.2) s
  let s := f.slow.foldl (fun s x => s.measured x.1 x.2) s
  let s := if cold then s.march f else s
  s.zeroStore.assignUnits

/-- BISQUE_END: the steps have done their work, and the block is ready (R458, R460). -/
def execBisqueEnd (s : State) : Out :=
  act .bisqueEnd s fun s =>
    if !s.power.bisque then s
    else
      let s := s.bisqueWork
      let s := if s.dev.autoload then s.autoloadStep else s
      let s : State := { s with
        power := { s.power with bisque := false, bisqueWarm := false }
        dev := { s.dev with step := 0xFF, ready := true, bisqueFail := s.health.failMap != 0 } }
      let s := (s.fns.filter fun e => e.2.enHeld).foldl (fun s e => s.admTryEnable e.1) s
      s.shpRefresh.jrnWork.work

/-! ### JTAG (R488) -/

/-- JTAG_INSTRUCTION: a code of Table 20.11; every other selects BYPASS. A scan of the data register that follows it loads the
cells of the boundary register with EXTEST and SAMPLE/PRELOAD, and passes through the bypass bit with the others (IEEE 1149.1). -/
def execJtagInstruction (load : JtagLoad) (s : State) : Out :=
  always s fun s => { s with power := { s.power with
    jtagIr := if load.ir.toNat < 4 then load.ir else 0b111111
    boundary := if load.ir.toNat < 2 then load.scan.getD s.power.boundary else s.power.boundary } }

end Sys2Proof.Machine
end

