-- ==== Sys2Proof/Machine/Msp.lean ====
section
/-! DEFINITION. The management serial port (R409 to R417): framing, checks, responses; READ, WRITE, REPEAT. A request is the bytes
that the supervisor clocks in; the response is kept in `Msp.response`. -/

namespace Sys2Proof.Machine

/-- The port is silent until step 1 of bisque ends (R459). -/
def State.mspSilent (s : State) : Bool := s.power.porst || (s.power.bisque && !s.power.bisqueWarm && s.dev.step == 1)

/-- The bytes of a request, CRC_Q included, as its CMD and LEN frame it (R410). -/
def mspFrame (req : List Byte) : Nat := if leAt req 0 1 = 2 then 4 * (leAt req 3 1 + 1) + 5 else 5

/-- STS (Table 17.3). `flag`: bit 0 ACK, 1 CRCERR, 2 CMDERR. -/
def State.mspSts (s : State) (flag : Nat) : Nat :=
  64 + 2 ^ flag + 8 * b2n s.dev.lock + 16 * b2n s.mspIrqLow + 32 * b2n s.dev.ready

/-- The response: STS, the data, CRC_R. -/
def State.mspRespond (s : State) (sts : Nat) (data : List Byte) : State :=
  let body := leBytes 1 sts ++ data
  s.updMsp fun m => { m with response := body ++ [crc8 body] }

/-- A request error (Table 17.4): nothing is applied, and the response is STS and its CRC. -/
def State.mspBad (s : State) (flag : Nat) : State :=
  let s := s.errMsp
  s.mspRespond (s.mspSts flag) []

/-- The register that word `k` of a burst accesses: the next one, or TBL_DATA for every word in port mode (R413). -/
def mspAddr (addr k : Nat) : Nat := if addr = 0x00A then addr else addr + k

/-- The CMD, LEN, ADDR or REPEAT is bad (Table 17.4). -/
def State.mspCmdErr (s : State) (req : List Byte) : Bool :=
  let cmd := leAt req 0 1
  let addr := leAt req 1 2
  let len := leAt req 3 1
  !(cmd == 1 || cmd == 2 || cmd == 3) || decide (63 < len) ||
    (if cmd = 3 then decide (addr ≠ 0 ∨ len ≠ 0) || s.msp.repeatBuf.isNone else decide (addr ≠ 0x00A ∧ 0x07F < addr + len))

/-- A command less than 100 ns after the previous one: whether it is served is not defined (R409). -/
def State.mspEarly (s : State) : Bool × State := if s.clk < s.msp.nextAt then s.drawBand else (false, s)

/-- The checks of a request in the order of Table 17.4, then its effect. A request that carries another command's code is not
this command's. -/
def State.mspCommand (s : State) (cmd : Nat) (req : List Byte) (f : State → State) : State :=
  if s.mspSilent then s
  else
    let (lost, s) := s.mspEarly
    let s := s.updMsp fun m => { m with nextAt := s.clk + 100 }
    if lost then s.errMsp
    else
    let s := s.updMsp fun m => { m with response := [] }
    let n := mspFrame req
    if req.length < n then s.errMsp
    else if crc8 (req.take (n - 1)) != req.getD (n - 1) 0 then s.mspBad 1
    else if s.mspCmdErr req then s.mspBad 2
    else if leAt req 0 1 ≠ cmd then s
    else f s

/-- Read the words of a burst one after another (R411). -/
def State.mspReadWords (s : State) (addr : Nat) : Nat → Nat → List Word × State
  | _, 0 => ([], s)
  | k, n + 1 =>
    let (w, s) := s.regRead (mspAddr addr k)
    let (ws, s) := State.mspReadWords s addr (k + 1) n
    (w :: ws, s)

/-- Apply the words of a burst in address order; a warm reset asked for by one of them drops the rest (R412, Table 19.11). -/
def State.mspWriteWords (s : State) (addr : Nat) : Nat → List Word → State
  | _, [] => s
  | k, w :: ws =>
    let s := s.regWrite (mspAddr addr k) w
    if s.power.warmReq then s else State.mspWriteWords s addr (k + 1) ws

/-- The data words of a WRITE. -/
def mspWords (req : List Byte) : List Word := (List.range (leAt req 3 1 + 1)).map fun k => w32 (leAt req (4 + 4 * k) 4)

/-- Words as bytes, each least significant byte first. -/
def wordBytes (ws : List Word) : List Byte := ws.flatMap fun w => leBytes 4 w.toNat

/-- MSP_READ: `clocked` is the number of data words of which the supervisor clocks the first bit; the others are not read (R411). -/
def execMspRead (req : List Byte) (clocked : Nat) (s : State) : Out :=
  act (.mspRead req clocked) s fun s => s.mspCommand 1 req fun s =>
    let sts := s.mspSts 0
    let (ws, s) := s.mspReadWords (leAt req 1 2) 0 (min clocked (leAt req 3 1 + 1))
    (s.updMsp fun m => { m with repeatBuf := some ws }).mspRespond sts (wordBytes ws)

/-- MSP_WRITE: its words take effect once CRC_Q is found correct; a warm reset follows the response (R412, Table 17.6). -/
def execMspWrite (req : List Byte) (s : State) : Out :=
  act (.mspWrite req) s fun s => s.mspCommand 2 req fun s =>
    let s := s.mspWriteWords (leAt req 1 2) 0 (mspWords req)
    let s := s.mspRespond (s.mspSts 0) []
    s.warmAsked.updMsp fun m => { m with response := s.msp.response }

/-- MSP_REPEAT: the words of the latest acknowledged READ again; no register is read (R411). -/
def execMspRepeat (req : List Byte) (s : State) : Out :=
  act (.mspRepeat req) s fun s => s.mspCommand 3 req fun s =>
    s.mspRespond (s.mspSts 0) (wordBytes (s.msp.repeatBuf.getD []))

end Sys2Proof.Machine
end

