-- ==== Sys2Proof/Machine/Bar0.lean ====
section
/-! DEFINITION. PCI Express requests to the block (chapter 18): BAR0 reads and writes (R437 to R440), register writes from either
interface, configuration requests (R431 to R433, R435), and packets that fail (R441). The offsets of configuration registers are
PCI Express's own (PRESUMED: log entry 40); the values are the spec's. -/

namespace Sys2Proof.Machine

/-! ### BAR0: admin registers, mirror, MSI-X -/

/-- The 8 bytes that hold an admin queue register (Table 6.1). -/
def Fn.admReg (f : Fn) (off : Nat) : DWord :=
  if off = 0x20 then f.sqb
  else if off = 0x28 then f.cqb
  else if off = 0x30 then BitVec.ofNat 64 (f.sqn + 65536 * f.cqn)
  else BitVec.ofNat 64 (b2n f.en + 2 * b2n f.rdy + 4 * b2n f.cfgErr)

/-- A write of an admin queue register, whole or one half of it (R138). -/
def State.admRegWrite (s : State) (fn off size : Nat) (v : DWord) : State :=
  let f := s.fn fn
  let base := off / 8 * 8
  let old := f.admReg base
  let w : DWord := if size = 8 then v
    else if off % 8 = 0 then (old &&& 0xFFFFFFFF00000000) ||| (v &&& 0xFFFFFFFF)
    else (old &&& 0xFFFFFFFF) ||| (v <<< 32)
  if !(size == 8 && off % 8 == 0) && !(size == 4 && off % 4 == 0) then s.errHost
  else if base = 0x38 then (if off = 0x38 then s.admEn fn (bit w 0) else s)
  else if f.en then s.errHost
  else if base = 0x20 then s.setFn fn { f with sqb := w }
  else if base = 0x28 then s.setFn fn { f with cqb := w }
  else s.setFn fn { f with sqn := fld w 0 9, cqn := fld w 16 9 }

/-- Whole microseconds of a heartbeat left (Table 18.5). -/
def State.hbLeft (s : State) (sag : Nat) : Nat :=
  let x := s.sag sag
  match x.hbSince with
  | some t => (t + 1000000 * x.hbPer - s.clk) / 1000
  | none => 0

/-- The 8 bytes of the function status mirror at an offset (Table 18.5). -/
def State.mirror (s : State) (fn off : Nat) : DWord :=
  let x := s.sag fn
  if off = 0x00 then
    BitVec.ofNat 64 (fn + 256 * b2n x.en + 512 * b2n (s.fn fn).rdy + 1024 * b2n x.hbDown + 2048 * b2n (decide (s.zbusy fn ≠ 0)))
  else if off = 0x08 then s.stime
  else if off = 0x10 then BitVec.ofNat 64 (s.kiln.frame.toNat + 2 ^ 32 * s.kiln.per)
  else if off = 0x18 then BitVec.ofNat 64 (s.hbLeft fn % 2 ^ 32 + 2 ^ 32 * (s.lnk.node + 128 * b2n (s.lnk.locked || s.lnk.master)))
  else if off = 0x20 then BitVec.ofNat 64 (if s.shpBound fn then s.shp.evLost else (s.fn fn).evqLost)
  else 0

/-- The 8 bytes of the MSI-X table at an offset (R440). -/
def State.msixReg (s : State) (fn off : Nat) : DWord :=
  let m := s.msix.get {} (msixKey fn (off / 16))
  if off % 16 = 0 then m.addr else BitVec.ofNat 64 (m.data.toNat + 2 ^ 32 * b2n m.masked)

/-- The pending bits (R440). -/
def State.msixPending (s : State) (fn : Nat) : DWord :=
  (List.range 33).foldl (fun v i => setBit v i (s.msix.get {} (msixKey fn i)).pending) 0

/-- A write of the MSI-X table. -/
def State.msixRegWrite (s : State) (fn off size : Nat) (v : DWord) : State :=
  let vec := off / 16
  let m := s.msix.get {} (msixKey fn vec)
  let put (s : State) (m : Msix) : State := { s with msix := s.msix.set {} (msixKey fn vec) m }
  if !(size == 8 && off % 8 == 0) && !(size == 4 && off % 4 == 0) then s.errHost
  else if off % 16 < 8 then
    put s { m with addr := if size = 8 then v
      else if off % 8 = 0 then (m.addr &&& 0xFFFFFFFF00000000) ||| (v &&& 0xFFFFFFFF) else (m.addr &&& 0xFFFFFFFF) ||| (v <<< 32) }
  else
    let s := if off % 8 = 0 then put s { m with data := v.setWidth 32 } else s
    if size = 8 then s.maskWrite fn vec (bit v 32)
    else if off % 8 = 4 then s.maskWrite fn vec (bit v 0)
    else s

/-! ### BAR0: the map (R437, R438) -/

/-- The request is longer than 8 bytes or crosses an 8-byte boundary (R438). -/
def barBad (off size : Nat) : Bool := decide (8 < size) || decide (8 < off % 8 + size)

/-- The bytes of a register of 8 bytes that a request of `size` bytes at `off` reads. -/
def barBytes (v : DWord) (off size : Nat) : DWord := (v >>> (8 * (off % 8))) &&& BitVec.ofNat 64 (2 ^ (8 * size) - 1)

/-- An aligned request of 4 or 8 bytes. -/
def barWhole (off size : Nat) : Bool := (size == 4 && off % 4 == 0) || (size == 8 && off % 8 == 0)

/-- A read of the mirror; reading the lower half of STIME leaves the upper half for the next read of it (R439). -/
def State.mirrorRead (s : State) (fn off size : Nat) : DWord × State :=
  if !barWhole off size then (0, s)
  else if off = 0x08 && size == 4 then
    (s.stime &&& 0xFFFFFFFF, s.updFn fn fun f => { f with stimeShadow := some ((s.stime >>> 32).setWidth 32) })
  else if off = 0x0C then
    ((((s.fn fn).stimeShadow.getD ((s.stime >>> 32).setWidth 32) : Word)).setWidth 64, s.updFn fn fun f => { f with stimeShadow := none })
  else (barBytes (s.mirror fn (off / 8 * 8)) off size, s)

/-- A BAR0 read of a function, with its side effects. A saggar that the slim host port serves has no slots (R185). -/
def State.barRead (s : State) (fn off size : Nat) : DWord × State :=
  if 0x40000 ≤ off then (0, s.aer fn 20)
  else if barBad off size then (0, s.errHost)
  else if 0x20 ≤ off && off < 0x40 then (barBytes ((s.fn fn).admReg (off / 8 * 8)) off size, s)
  else if 0x10000 ≤ off && off < 0x11000 then
    if s.shpBound fn then (0, s.errHost) else s.bmRead fn ((off - 0x10000) / 256) (off % 256) size
  else if 0x20000 ≤ off && off < 0x20040 then s.mirrorRead fn (off - 0x20000) size
  else if 0x30000 ≤ off && off < 0x30210 then
    (if barWhole off size then barBytes (s.msixReg fn ((off - 0x30000) / 8 * 8)) off size else 0, s)
  else if 0x38000 ≤ off && off < 0x38008 then (if barWhole off size then barBytes (s.msixPending fn) off size else 0, s)
  else (0, s)

/-- A BAR0 write of a function. Read-only regions take nothing (R6); reserved offsets are counted (R438). -/
def State.barWrite (s : State) (fn off size : Nat) (v : DWord) : State :=
  if 0x40000 ≤ off then s.aer fn 20
  else if barBad off size then s.errHost
  else if off = 0x00 then s.sqTail fn none size v
  else if off = 0x08 then s.cqHead fn none size v
  else if off = 0x10 then s.hbWrite fn
  else if off = 0x18 then s.evqHeadWrite fn size v
  else if 0x20 ≤ off && off < 0x40 then s.admRegWrite fn off size v
  else if 0x1000 ≤ off && off < 0x1800 && off % 8 == 0 then s.sqTail fn (some ((off - 0x1000) / 8)) size v
  else if 0x2000 ≤ off && off < 0x2800 && off % 8 == 0 then s.cqHead fn (some ((off - 0x2000) / 8)) size v
  else if 0x3000 ≤ off && off < 0x3800 && off % 8 == 0 then s.nudgeWrite fn ((off - 0x3000) / 8)
  else if 0x10000 ≤ off && off < 0x11000 then
    if s.shpBound fn then s.errHost else s.bmWrite fn ((off - 0x10000) / 256) (off % 256) size v
  else if 0x20000 ≤ off && off < 0x20040 then s
  else if 0x30000 ≤ off && off < 0x30210 then s.msixRegWrite fn (off - 0x30000) size v
  else if 0x38000 ≤ off && off < 0x38008 then s
  else s.errHost

/-- REGISTER_WRITE: a write of a register over the MSP (R413, R418), or through the BAR0 of a function. -/
def execRegisterWrite (t : RegTarget) (value : DWord) (s : State) : Out :=
  act (.registerWrite t value) s fun s =>
    match t with
    | .msp a => if s.mspSilent then s else (s.regWrite a (value.setWidth 32)).warmAsked
    | .bar0 fn off size => if s.barOn fn then s.barWrite fn off size value else s

/-- BAR0_READ: the data returned is kept in the function's `barData`. -/
def execBar0Read (fn off size : Nat) (s : State) : Out :=
  act (.bar0Read fn off size) s fun s =>
    if !s.barOn fn then s
    else
      let (v, s) := s.barRead fn off size
      s.updFn fn fun f => { f with barData := v }

/-! ### Configuration space (R431 to R433) -/

/-- The bits of a configuration register that a write sets and a read returns. -/
def cfgMask (fn off : Nat) : Word :=
  if fn ≠ 0 then (if off = 0x118 then 0x140 else 0)
  else if off = 0x04 then 0x0542
  else if off = 0x10 then 0xFFFC0000
  else if off = 0x14 then 0xFFFFFFFF
  else if off = 0x3C then 0xFF
  else if off = 0x78 then 0x710F
  else if off = 0x98 then 0x100F
  else if off = 0x108 || off = 0x10C then 0x001DF030
  else if off = 0x118 then 0x140
  else if off = 0x168 then 0x18
  else if off = 0x184 then 0xFFFC0000
  else if off = 0x188 then 0xFFFFFFFF
  else 0

/-- Its value before any write: PCI Express's own. -/
def cfgDefault (off : Nat) : Word := if off = 0x78 then 0x2000 else if off = 0x10C then 0x00462030 else 0

/-- The bits of a configuration register that the block gives it: identifiers and capabilities (Tables 18.1, 18.2, R433, R440). -/
def State.cfgFixed (s : State) (fn off : Nat) : Word :=
  let f := s.fn fn
  let pf := fn = 0
  if off = 0x00 then (if pf then 0x09001FA3 else 0xFFFFFFFF)
  else if off = 0x04 then 0x00100000 ||| putB 2 f.busMaster ||| putB 28 f.targetAbort ||| putB 29 f.masterAbort
  else if off = 0x08 then put 8 0x088000 ||| (s.dev.rev &&& 0xFF)
  else if off = 0x10 then (if pf then 4 else 0)
  else if off = 0x2C then 0x09001FA3
  else if off = 0x34 then 0x40
  else if off = 0x40 then 0x00037001
  else if off = 0x44 then (if f.d3 then 3 else 0)
  else if off = 0x70 then 0x0002B010
  else if off = 0x74 then 0x10008022
  else if off = 0x7C then 0x84
  else if off = 0x94 then 0x00020003
  else if off = 0xB0 then 0x00200011 ||| putB 30 f.fnMask ||| putB 31 f.msixEn
  else if off = 0xB4 then 0x00030000
  else if off = 0xB8 then 0x00038000
  else if off = 0x100 then (if pf then 0x14020001 else 0x15020001)
  else if off = 0x104 then f.aer
  else if off = 0x118 then 0xA0
  else if off = 0x150 then (if pf then 0x1601000E else 0x0001000E)
  else if !pf then 0
  else if off = 0x140 then 0x15010003
  else if off = 0x144 then loWord s.dev.uid
  else if off = 0x148 then hiWord s.dev.uid
  else if off = 0x160 then 0x00010010
  else if off = 0x168 then putB 0 s.pcie.vfEnable
  else if off = 0x16C then 0x003F003F
  else if off = 0x170 then w32 s.pcie.numVfs
  else if off = 0x174 then 0x00010001
  else if off = 0x178 then 0x09010000
  else if off = 0x17C then 0x553
  else if off = 0x180 then 1
  else if off = 0x184 then 4
  else 0

/-- The place of a configuration register in `Pcie.cfg`. -/
def cfgKey (fn off : Nat) : Nat := 4096 * fn + off

/-- A configuration register as read. -/
def State.cfgRead (s : State) (fn off : Nat) : Word :=
  s.cfgFixed fn off ||| (s.pcie.cfg.get (cfgDefault off) (cfgKey fn off) &&& cfgMask fn off)

/-- Bus Master Enable, MSI-X Enable, Function Mask; lifting the mask sends what is pending (R440). -/
def State.msixCtl (s : State) (fn : Nat) (w : Word) : State :=
  let s := s.updFn fn fun f => { f with msixEn := bit w 31, fnMask := bit w 30 }
  (List.range 33).foldl (fun s v => s.flushMsix fn v) s

/-- A configuration write: the stored bits, and what acts at once (R433, R434, Table 18.3). -/
def State.cfgWrite (s : State) (fn off : Nat) (w : Word) : State :=
  let s : State := if cfgMask fn off = 0 then s
    else { s with pcie := { s.pcie with cfg := s.pcie.cfg.set (cfgDefault off) (cfgKey fn off) (w &&& cfgMask fn off) } }
  if off = 0x04 then s.updFn fn fun f => { f with
    busMaster := bit w 2, targetAbort := f.targetAbort && !bit w 28, masterAbort := f.masterAbort && !bit w 29 }
  else if off = 0x44 then
    if fld w 0 2 = 3 then (if (s.fn fn).d3 then s else s.enterD3 fn)
    else if fld w 0 2 = 0 && (s.fn fn).d3 then s.cfgReset fn
    else s
  else if off = 0x78 then (if bit w 15 then s.initiateFlr fn else s)
  else if off = 0xB0 then s.msixCtl fn w
  else if off = 0x104 then s.updFn fn fun f => { f with aer := f.aer &&& ~~~ w }
  else if fn ≠ 0 then s
  else if off = 0x168 then s.setVfs s.pcie.numVfs (bit w 0)
  else if off = 0x170 then (if fld w 0 16 ≤ 63 then s.setVfs (fld w 0 16) s.pcie.vfEnable else s)
  else s

/-- CONFIG_REQUEST: answered with Retry Status until READY (R435); afterwards a read returns the register, and a function that is
not enabled answers with all ones. The reply is kept in `Pcie.cfgReply`. -/
def execConfigRequest (r : CfgReq) (s : State) : Out :=
  act (.configRequest r) s fun s =>
    let reply (s : State) (v : Option Word) : State := { s with pcie := { s.pcie with cfgReply := v } }
    if !s.pcie.linkUp then s
    else if !s.dev.ready then reply s none
    else match r with
      | .read fn off => reply s (some (if s.fnOn fn then s.cfgRead fn (off / 4 * 4) else 0xFFFFFFFF))
      | .write fn off w => if s.fnOn fn then reply (s.cfgWrite fn (off / 4 * 4) w) (some 0) else s

/-! ### Packets that fail (Table 18.6) -/

/-- MALFORMED_TLP: dropped or answered with Unsupported Request, and recorded under AER: an error that belongs to no function in
every function (PRESUMED: log entry 40). A poisoned BAR0 write is dropped and counted (R438). -/
def execMalformedTlp (t : BadTlp) (s : State) : Out :=
  act (.malformedTlp t) s fun s =>
    let all (s : State) (i : Nat) : State := s.enabledFns.foldl (fun s fn => s.aer fn i) s
    if !s.pcie.linkUp then s
    else match t with
      | .malformed => all s 18
      | .ecrc => all s 19
      | .unsupported => all s 20
      | .poisonedBar0Write fn => if s.barOn fn then (s.aer fn 12).errHost else s

end Sys2Proof.Machine
end

