-- ==== Sys2Proof/Machine/PinLevels.lean ====
section
/-! DEFINITION. The levels of the field pins that follow from the state (Table 9.5, R222, R223, R226 to R228, R236, R238, R241):
serial lines, chip selects and pulse-width outputs. The GPIO and DAC outputs stand in the state themselves. -/

namespace Sys2Proof.Machine

/-- What a pin shows: high impedance, a level, or driven by the bits that are being transferred. -/
inductive PinLevel where
  | hiz | low | high
  /-- driven by the data or the clock of the transfer in progress; in SPI MOSI between transfers, whose level the spec does not give -/
  | data
deriving DecidableEq, Repr

/-- A level from a flag. -/
def PinLevel.ofBool (b : Bool) : PinLevel := if b then .high else .low

/-- The level that the boundary register gives signal pin `k` of the 344 in the ball order of Table 20.2, while an instruction gives
the pins to it: EXTEST and CLAMP drive the output cell where the enable cell is 1; HIGHZ releases every pin (R488, R489). Pins 0 to
143 are the serial pins, 144 to 207 the GPIO pins, 208 to 223 the PWM outputs, 264 to 271 TRIP0 to TRIP7, 276 FAILSAFE_N. -/
def State.scanPin (s : State) (k : Nat) : Option PinLevel :=
  let ir := s.power.jtagIr
  if ir == 0b000010 then some .hiz
  else if ir == 0b000000 || ir == 0b000011 then
    some (if bit s.power.boundary (3 * k + 2) then .ofBool (bit s.power.boundary (3 * k + 1)) else .hiz)
  else none

/-- The transmitter of a character port is sending: between the first start bit and the last stop bit (R223). -/
def State.txActive (s : State) (p : Nat) : Bool :=
  let x := s.port p
  x.lineBusy.isSome && x.txOwner == x.lineBusy && decide (x.txStart ≤ s.clk) && decide (s.clk < x.txEnd)

/-- RS-485 DE: high from DE_LEAD before the first start bit to TURN_NS after the last stop bit (R223). -/
def State.dePin (s : State) (p : Nat) : Bool :=
  let x := s.port p
  x.de && decide (x.txStart ≤ s.clk + fld (s.liveWord p 3) 0 16)

/-- A transfer is on a port without characters: clocks run. -/
def State.clocked (s : State) (p : Nat) : Bool :=
  match (s.port p).lineBusy with
  | some n => match (s.sch n).op with | some o => o.port == p && o.phase == .line && decide (o.t1 ≤ s.clk) | none => false
  | none => false

/-- What the port logic gives SPn_A, SPn_B and SPn_C of a serial port (Table 9.5). In a safe state with the option high-impedance
TXD is released (Table 9.7). -/
def State.serialDrive (s : State) (p : Nat) : PinLevel × PinLevel × PinLevel :=
  let w := s.liveWord p 0
  let x := s.port p
  let m := fld w 4 4
  let txd : PinLevel :=
    if x.safe && x.safeOpt == 1 then .hiz
    else if s.clk < x.txdLow then .low
    else if s.txActive p then .data else .high
  if s.pinsReset || !bit w 0 || m = 0 then (.hiz, .hiz, .hiz)
  else if m = 1 then (txd, .hiz, .hiz)
  else if m = 2 then (txd, .hiz, .ofBool (s.dePin p))
  else if m = 3 then (if s.clocked p then .data else .ofBool (bit (s.liveWord p 2) 1), .hiz, .data)
  else if m = 4 then if s.clocked p then (.data, .data, .hiz) else (.hiz, .hiz, .hiz)
  else (if s.clocked p then .data else .high, .hiz, .hiz)

/-- SPn_A, SPn_B and SPn_C (R222, R489). -/
def State.serialPins (s : State) (p : Nat) : PinLevel × PinLevel × PinLevel :=
  let d := s.serialDrive p
  ((s.scanPin (3 * p)).getD d.1, (s.scanPin (3 * p + 1)).getD d.2.1, (s.scanPin (3 * p + 2)).getD d.2.2)

/-- The chip select of an SPI port: high when idle, low from the start of a line operation to CS_LAG after its last bit (R226). -/
def State.csPin (s : State) (p : Nat) : PinLevel :=
  let x := s.port p
  if s.pinsReset || !s.portEn p || s.portMode p != 3 then .hiz
  else .ofBool (!(x.csLow || (decide (s.clk < x.csRise) && !x.safe)))

/-- The level of a PWM output: active exactly while its counter is below HIGH, inverted by POL (R238). -/
def State.pwmPin (s : State) (i : Nat) : PinLevel :=
  let w := s.liveWord (0x70 + i) 0
  (s.scanPin (208 + i)).getD
    (if s.pinsReset || !bit w 0 || fld w 4 4 != 1 then .hiz
     else .ofBool ((!(s.pwm i).inactive && decide (s.pwmCounter i < (s.pwm i).high)) != bit w 8))

end Sys2Proof.Machine
end

