-- ==== Sys2Proof/Machine/Clock.lean ====
section
/-! DEFINITION. The clock: with no command waiting one nanosecond of the station clock passes (log entry 1). STIME counts it (R28),
faster or slower while an offset is slewed in (R30), and bisque goes on to its next step (R458). -/

namespace Sys2Proof.Machine

/-- The longest time of a bisque step, in ns (Table 19.3); the warm figure of step 5 is its own. -/
def stepMax (step : Nat) (warm autoload : Bool) : Nat :=
  if step = 1 then 500000
  else if step = 2 then 30000000
  else if step = 3 then 5000000
  else if step = 4 then 60000000
  else if step = 5 then (if warm then 2700000 else 120000000)
  else if step = 6 then 1000000
  else if autoload then 250000000 else 100000

/-- STIME after one nanosecond, and what it leaves of a slew: at most 1,000 ns in a frame (R30). -/
def State.stimeTick (s : State) : State :=
  let k := s.kiln
  if !k.frameRuns || k.stimeSlew = 0 || 1000 ≤ k.stimeUsed then { s with stime := s.stime + 1 }
  else if 0 < k.stimeSlew then
    { s with stime := s.stime + 2, kiln := Kiln.withSlewing { k with stimeSlew := k.stimeSlew - 1, stimeUsed := k.stimeUsed + 1 } }
  else { s with kiln := Kiln.withSlewing { k with stimeSlew := k.stimeSlew + 1, stimeUsed := k.stimeUsed + 1 } }

/-- A bisque step but the last gives way to the next at some instant within its time: free before the end of it. BISQUE_END ends
the last (R458). -/
def State.bisqueTick (s : State) : State :=
  let k := s.dev.step
  if !s.power.bisque || k = 0 || 7 ≤ k then s
  else if Config.freeBand s.freeCtr || decide (s.power.stepAt + stepMax k s.power.bisqueWarm s.dev.autoload ≤ s.clk) then
    { s with freeCtr := s.freeCtr + 1, dev := { s.dev with step := k + 1 }, power := { s.power with stepAt := s.clk } }
  else { s with freeCtr := s.freeCtr + 1 }

/-- One nanosecond of the station clock. -/
def State.clockTick (s : State) : State := State.stimeTick { s with clk := s.clk + 1 }

/-- TRIM corrects the clock in INTERNAL mode and in holdover; locked to a source it has no effect (R29). -/
def Kiln.trimmed (k : Kiln) : Bool := k.src = 0 || k.holdover

/-- One nanosecond of the reference passes, of which the station clock makes one nanosecond and TRIM parts in 10^9 (R29): now and
then one nanosecond more, or none; none while PORST_N is asserted (R456). -/
def idle (s : State) : State :=
  if s.power.porst then s
  else
    let acc := s.kiln.trimAcc + (if s.kiln.trimmed then s.kiln.trim.toInt else 0)
    let s :=
      if 1000000000 ≤ acc then ((s.updKiln fun k => { k with trimAcc := acc - 1000000000 }).clockTick).clockTick
      else if acc ≤ -1000000000 then s.updKiln fun k => { k with trimAcc := acc + 1000000000 }
      else (s.updKiln fun k => { k with trimAcc := acc }).clockTick
    s.bisqueTick

end Sys2Proof.Machine
end

