-- ==== Sys2Proof/Machine/Dispatch.lean ====
section
/-! DEFINITION. The dispatcher: one arm per command, in the order of spec/opcode_table.json. -/

namespace Sys2Proof.Machine

/-- The effect of a command on everything but the queue. -/
def exec (i : Instr) (s : State) : Host.Outcome State Fault Refusal :=
  match i with
  | .frameTick => Sys2Proof.Machine.execFrameTick s
  | .commitSlice => Sys2Proof.Machine.execCommitSlice s
  | .sliceStart => Sys2Proof.Machine.execSliceStart s
  | .frameOverrunWdgBite => Sys2Proof.Machine.execFrameOverrunWdgBite s
  | .tickInEdge kind => Sys2Proof.Machine.execTickInEdge kind s
  | .tickHoldover => Sys2Proof.Machine.execTickHoldover s
  | .runStart w => Sys2Proof.Machine.execRunStart w s
  | .runStop w => Sys2Proof.Machine.execRunStop w s
  | .frameZeroOpen => Sys2Proof.Machine.execFrameZeroOpen s
  | .kilnPerWrite w => Sys2Proof.Machine.execKilnPerWrite w s
  | .kilnSrcWrite w => Sys2Proof.Machine.execKilnSrcWrite w s
  | .stimeAdj w => Sys2Proof.Machine.execStimeAdj w s
  | .stimeLoRead => Sys2Proof.Machine.execStimeLoRead s
  | .mspRead req clocked => Sys2Proof.Machine.execMspRead req clocked s
  | .mspWrite req => Sys2Proof.Machine.execMspWrite req s
  | .mspRepeat req => Sys2Proof.Machine.execMspRepeat req s
  | .registerWrite t value => Sys2Proof.Machine.execRegisterWrite t value s
  | .tblDataWrite w => Sys2Proof.Machine.execTblDataWrite w s
  | .tblDataRead => Sys2Proof.Machine.execTblDataRead s
  | .tblSelWrite w => Sys2Proof.Machine.execTblSelWrite w s
  | .commit w => Sys2Proof.Machine.execCommit w s
  | .discard w => Sys2Proof.Machine.execDiscard w s
  | .tableCheckEnd => Sys2Proof.Machine.execTableCheckEnd s
  | .lockSet w => Sys2Proof.Machine.execLockSet w s
  | .lockClear w => Sys2Proof.Machine.execLockClear w s
  | .warm w => Sys2Proof.Machine.execWarm w s
  | .evtCauseRead => Sys2Proof.Machine.execEvtCauseRead s
  | .wdgKick w => Sys2Proof.Machine.execWdgKick w s
  | .wdgEnable w => Sys2Proof.Machine.execWdgEnable w s
  | .deviceWdgBite => Sys2Proof.Machine.execDeviceWdgBite s
  | .apply w => Sys2Proof.Machine.execApply w s
  | .relSup w => Sys2Proof.Machine.execRelSup w s
  | .relOvr w => Sys2Proof.Machine.execRelOvr w s
  | .relDwdg w => Sys2Proof.Machine.execRelDwdg w s
  | .wmClr w => Sys2Proof.Machine.execWmClr w s
  | .wake w => Sys2Proof.Machine.execWake w s
  | .shpCtlWrite w => Sys2Proof.Machine.execShpCtlWrite w s
  | .lnkEnable w => Sys2Proof.Machine.execLnkEnable w s
  | .lnkDisable w => Sys2Proof.Machine.execLnkDisable w s
  | .retrain w => Sys2Proof.Machine.execRetrain w s
  | .admCtlEnable fn => Sys2Proof.Machine.execAdmCtlEnable fn s
  | .admCtlDisable fn => Sys2Proof.Machine.execAdmCtlDisable fn s
  | .sqTailDoorbell fn sq size value => Sys2Proof.Machine.execSqTailDoorbell fn sq size value s
  | .cqHeadDoorbell fn cq size value => Sys2Proof.Machine.execCqHeadDoorbell fn cq size value s
  | .evqHeadDoorbell fn size value => Sys2Proof.Machine.execEvqHeadDoorbell fn size value s
  | .heartbeatDoorbell fn => Sys2Proof.Machine.execHeartbeatDoorbell fn s
  | .heartbeatLost sag => Sys2Proof.Machine.execHeartbeatLost sag s
  | .nudge fn sch => Sys2Proof.Machine.execNudge fn sch s
  | .msixUnmask fn vec => Sys2Proof.Machine.execMsixUnmask fn vec s
  | .aggTimeExpiry cq => Sys2Proof.Machine.execAggTimeExpiry cq s
  | .entryFetch q d => Sys2Proof.Machine.execEntryFetch q d s
  | .hostReadReturn id d => Sys2Proof.Machine.execHostReadReturn id d s
  | .completionTimeout id => Sys2Proof.Machine.execCompletionTimeout id s
  | .start q => Sys2Proof.Machine.execStart q s
  | .trg q => Sys2Proof.Machine.execTrg q s
  | .resume q => Sys2Proof.Machine.execResume q s
  | .halt q => Sys2Proof.Machine.execHalt q s
  | .createCq fn => Sys2Proof.Machine.execCreateCq fn s
  | .deleteCq fn => Sys2Proof.Machine.execDeleteCq fn s
  | .resetCq fn => Sys2Proof.Machine.execResetCq fn s
  | .createSq fn => Sys2Proof.Machine.execCreateSq fn s
  | .deleteSq fn => Sys2Proof.Machine.execDeleteSq fn s
  | .resetSq fn => Sys2Proof.Machine.execResetSq fn s
  | .createEvq fn => Sys2Proof.Machine.execCreateEvq fn s
  | .deleteEvq fn => Sys2Proof.Machine.execDeleteEvq fn s
  | .resetEvq fn => Sys2Proof.Machine.execResetEvq fn s
  | .abort fn => Sys2Proof.Machine.execAbort fn s
  | .allocPages fn => Sys2Proof.Machine.execAllocPages fn s
  | .freePages fn => Sys2Proof.Machine.execFreePages fn s
  | .createNs fn => Sys2Proof.Machine.execCreateNs fn s
  | .deleteNs fn => Sys2Proof.Machine.execDeleteNs fn s
  | .getFeature fn => Sys2Proof.Machine.execGetFeature fn s
  | .setFeature fn => Sys2Proof.Machine.execSetFeature fn s
  | .identify fn => Sys2Proof.Machine.execIdentify fn s
  | .getQueue fn => Sys2Proof.Machine.execGetQueue fn s
  | .admissionQueryTimeout fn => Sys2Proof.Machine.execAdmissionQueryTimeout fn s
  | .ccwWrite sch => Sys2Proof.Machine.execCcwWrite sch s
  | .ccwRead sch => Sys2Proof.Machine.execCcwRead sch s
  | .ccwControl sch => Sys2Proof.Machine.execCcwControl sch s
  | .ccwSense sch => Sys2Proof.Machine.execCcwSense sch s
  | .ccwExchange sch => Sys2Proof.Machine.execCcwExchange sch s
  | .ccwMove sch => Sys2Proof.Machine.execCcwMove sch s
  | .ccwFence sch => Sys2Proof.Machine.execCcwFence sch s
  | .ccwStage sch => Sys2Proof.Machine.execCcwStage sch s
  | .ccwSnap sch => Sys2Proof.Machine.execCcwSnap sch s
  | .ccwNop sch => Sys2Proof.Machine.execCcwNop sch s
  | .ccwJump sch => Sys2Proof.Machine.execCcwJump sch s
  | .ccwTest sch => Sys2Proof.Machine.execCcwTest sch s
  | .ccwWaitt sch => Sys2Proof.Machine.execCcwWaitt sch s
  | .ccwWaitc sch => Sys2Proof.Machine.execCcwWaitc sch s
  | .ccwWaitf sch => Sys2Proof.Machine.execCcwWaitf sch s
  | .ccwLoop sch => Sys2Proof.Machine.execCcwLoop sch s
  | .ccwSetc sch => Sys2Proof.Machine.execCcwSetc sch s
  | .ccwPost sch => Sys2Proof.Machine.execCcwPost sch s
  | .ccwSignal sch => Sys2Proof.Machine.execCcwSignal sch s
  | .ccwClaim sch => Sys2Proof.Machine.execCcwClaim sch s
  | .ccwRelease sch => Sys2Proof.Machine.execCcwRelease sch s
  | .ccwJappend sch => Sys2Proof.Machine.execCcwJappend sch s
  | .ccwColophon sch => Sys2Proof.Machine.execCcwColophon sch s
  | .portTransferEnd sch e => Sys2Proof.Machine.execPortTransferEnd sch e s
  | .lineTurnaround port => Sys2Proof.Machine.execLineTurnaround port s
  | .portTimeout sch => Sys2Proof.Machine.execPortTimeout sch s
  | .readIdleEnd sch => Sys2Proof.Machine.execReadIdleEnd sch s
  | .endOfFrame port => Sys2Proof.Machine.execEndOfFrame port s
  | .waittExpiry sch => Sys2Proof.Machine.execWaittExpiry sch s
  | .waitcTrue sch => Sys2Proof.Machine.execWaitcTrue sch s
  | .waitcTimeout sch => Sys2Proof.Machine.execWaitcTimeout sch s
  | .waitfDone sch => Sys2Proof.Machine.execWaitfDone sch s
  | .fenceDone sch => Sys2Proof.Machine.execFenceDone sch s
  | .ccwWatchdog sch => Sys2Proof.Machine.execCcwWatchdog sch s
  | .claimWatchdogHold group => Sys2Proof.Machine.execClaimWatchdogHold group s
  | .claimWatchdogWait group slot => Sys2Proof.Machine.execClaimWatchdogWait group slot s
  | .remoteTimeout sch => Sys2Proof.Machine.execRemoteTimeout sch s
  | .portFlush sch => Sys2Proof.Machine.execPortFlush sch s
  | .clrerr sch => Sys2Proof.Machine.execClrerr sch s
  | .i2cRecover sch => Sys2Proof.Machine.execI2cRecover sch s
  | .breakCode sch => Sys2Proof.Machine.execBreakCode sch s
  | .canMb sch => Sys2Proof.Machine.execCanMb sch s
  | .mdioWrite sch => Sys2Proof.Machine.execMdioWrite sch s
  | .mdioRead sch => Sys2Proof.Machine.execMdioRead sch s
  | .mdioDone data => Sys2Proof.Machine.execMdioDone data s
  | .setEdge sch => Sys2Proof.Machine.execSetEdge sch s
  | .phase sch => Sys2Proof.Machine.execPhase sch s
  | .preset sch => Sys2Proof.Machine.execPreset sch s
  | .clrIndex sch => Sys2Proof.Machine.execClrIndex sch s
  | .clrTrip sch => Sys2Proof.Machine.execClrTrip sch s
  | .setWin sch => Sys2Proof.Machine.execSetWin sch s
  | .convReset sch => Sys2Proof.Machine.execConvReset sch s
  | .byteReceived port b frameErr parityErr => Sys2Proof.Machine.execByteReceived port b frameErr parityErr s
  | .breakReceived port => Sys2Proof.Machine.execBreakReceived port s
  | .canFrameReceived port id flags data age => Sys2Proof.Machine.execCanFrameReceived port id flags data age s
  | .canFrameSent port age => Sys2Proof.Machine.execCanFrameSent port age s
  | .canWithdraw port => Sys2Proof.Machine.execCanWithdraw port s
  | .ethFrameReceived port frame fcsOk age => Sys2Proof.Machine.execEthFrameReceived port frame fcsOk age s
  | .ethFrameSent port age => Sys2Proof.Machine.execEthFrameSent port age s
  | .ethAbandon port => Sys2Proof.Machine.execEthAbandon port s
  | .edgeCapture pin kind => Sys2Proof.Machine.execEdgeCapture pin kind s
  | .gpioSnapshot levels => Sys2Proof.Machine.execGpioSnapshot levels s
  | .encoderEdge enc a b => Sys2Proof.Machine.execEncoderEdge enc a b s
  | .index enc => Sys2Proof.Machine.execIndex enc s
  | .monitorSample wm microvolt => Sys2Proof.Machine.execMonitorSample wm microvolt s
  | .guardCrossing wm microvolt => Sys2Proof.Machine.execGuardCrossing wm microvolt s
  | .converterSample inputs => Sys2Proof.Machine.execConverterSample inputs s
  | .converterRecord => Sys2Proof.Machine.execConverterRecord s
  | .bmGo ch => Sys2Proof.Machine.execBmGo ch s
  | .bmAbort ch => Sys2Proof.Machine.execBmAbort ch s
  | .bmAbortDone ch moved => Sys2Proof.Machine.execBmAbortDone ch moved s
  | .bmDisable ch => Sys2Proof.Machine.execBmDisable ch s
  | .bmStatClear ch w => Sys2Proof.Machine.execBmStatClear ch w s
  | .bmHalf ch => Sys2Proof.Machine.execBmHalf ch s
  | .bmBufferEnd ch e => Sys2Proof.Machine.execBmBufferEnd ch e s
  | .jrnRead q => Sys2Proof.Machine.execJrnRead q s
  | .jrnWrite q => Sys2Proof.Machine.execJrnWrite q s
  | .append q => Sys2Proof.Machine.execAppend q s
  | .jrnFlush q => Sys2Proof.Machine.execJrnFlush q s
  | .zeroRange q => Sys2Proof.Machine.execZeroRange q s
  | .seal q => Sys2Proof.Machine.execSeal q s
  | .info q => Sys2Proof.Machine.execInfo q s
  | .verify q => Sys2Proof.Machine.execVerify q s
  | .fleostCheckEnd engine rejected => Sys2Proof.Machine.execFleostCheckEnd engine rejected s
  | .folioOpEnd sectors bits uncorrectable => Sys2Proof.Machine.execFolioOpEnd sectors bits uncorrectable s
  | .jps1Entry => Sys2Proof.Machine.execJps1Entry s
  | .jps2Entry => Sys2Proof.Machine.execJps2Entry s
  | .jpsExitDone => Sys2Proof.Machine.execJpsExitDone s
  | .journalScrub nsid folio sectors bits uncorrectable => Sys2Proof.Machine.execJournalScrub nsid folio sectors bits uncorrectable s
  | .zeroingDone o => Sys2Proof.Machine.execZeroingDone o s
  | .bypassTestEnd passed => Sys2Proof.Machine.execBypassTestEnd passed s
  | .sideTrainingStart side => Sys2Proof.Machine.execSideTrainingStart side s
  | .sideUp side => Sys2Proof.Machine.execSideUp side s
  | .sideDown side => Sys2Proof.Machine.execSideDown side s
  | .linkWrap side other => Sys2Proof.Machine.execLinkWrap side other s
  | .linkUnwrap side => Sys2Proof.Machine.execLinkUnwrap side s
  | .slotStart lane segment slot arrives => Sys2Proof.Machine.execSlotStart lane segment slot arrives s
  | .sync lane payload => Sys2Proof.Machine.execSync lane payload s
  | .train side ta tb tc td => Sys2Proof.Machine.execTrain side ta tb tc td s
  | .image c pubStime => Sys2Proof.Machine.execImage c pubStime s
  | .rportReq src saggar cls tag frame ccw data => Sys2Proof.Machine.execRportReq src saggar cls tag frame ccw data s
  | .rportRsp src tag status dstat residual frame data => Sys2Proof.Machine.execRportRsp src tag status dstat residual frame data s
  | .mail m => Sys2Proof.Machine.execMail m s
  | .election candidate => Sys2Proof.Machine.execElection candidate s
  | .masterSelfStart => Sys2Proof.Machine.execMasterSelfStart s
  | .rotation => Sys2Proof.Machine.execRotation s
  | .rotationTestEnd unit result slowdown => Sys2Proof.Machine.execRotationTestEnd unit result slowdown s
  | .processorFault cp struck => Sys2Proof.Machine.execProcessorFault cp struck s
  | .bmBurstFault ch writeIssued => Sys2Proof.Machine.execBmBurstFault ch writeIssued s
  | .sliceFault port begun => Sys2Proof.Machine.execSliceFault port begun s
  | .localStoreScrub unit found => Sys2Proof.Machine.execLocalStoreScrub unit found s
  | .temp eighths => Sys2Proof.Machine.execTemp eighths s
  | .volt rail mv => Sys2Proof.Machine.execVolt rail mv s
  | .repairRecordWrite => Sys2Proof.Machine.execRepairRecordWrite s
  | .porstNAssert => Sys2Proof.Machine.execPorstNAssert s
  | .porstNRelease => Sys2Proof.Machine.execPorstNRelease s
  | .warmNAssert => Sys2Proof.Machine.execWarmNAssert s
  | .warmNRelease => Sys2Proof.Machine.execWarmNRelease s
  | .testMode high => Sys2Proof.Machine.execTestMode high s
  | .brownOut => Sys2Proof.Machine.execBrownOut s
  | .bisqueEnd => Sys2Proof.Machine.execBisqueEnd s
  | .pePerstNAssert => Sys2Proof.Machine.execPePerstNAssert s
  | .pePerstNRelease => Sys2Proof.Machine.execPePerstNRelease s
  | .dlDown => Sys2Proof.Machine.execDlDown s
  | .flr fn => Sys2Proof.Machine.execFlr fn s
  | .d3hot fn => Sys2Proof.Machine.execD3hot fn s
  | .vfEnable numVfs enable => Sys2Proof.Machine.execVfEnable numVfs enable s
  | .configRequest r => Sys2Proof.Machine.execConfigRequest r s
  | .shpStatus req => Sys2Proof.Machine.execShpStatus req s
  | .shpSubmit req => Sys2Proof.Machine.execShpSubmit req s
  | .shpComplete req => Sys2Proof.Machine.execShpComplete req s
  | .shpEvents req => Sys2Proof.Machine.execShpEvents req s
  | .lsWrite req => Sys2Proof.Machine.execLsWrite req s
  | .lsRead req => Sys2Proof.Machine.execLsRead req s
  | .shpHeartbeat req => Sys2Proof.Machine.execShpHeartbeat req s
  | .shpSetup req => Sys2Proof.Machine.execShpSetup req s
  | .shpPages req => Sys2Proof.Machine.execShpPages req s
  | .shpNs req => Sys2Proof.Machine.execShpNs req s
  | .shpQreset req => Sys2Proof.Machine.execShpQreset req s
  | .shpIdentify req => Sys2Proof.Machine.execShpIdentify req s
  | .shpControlDone => Sys2Proof.Machine.execShpControlDone s
  | .dlUp => Sys2Proof.Machine.execDlUp s
  | .sideTrainingRetry side => Sys2Proof.Machine.execSideTrainingRetry side s
  | .bypassTestRepeat => Sys2Proof.Machine.execBypassTestRepeat s
  | .canBusError port tecDelta recDelta => Sys2Proof.Machine.execCanBusError port tecDelta recDelta s
  | .busOffRecoveryDone port => Sys2Proof.Machine.execBusOffRecoveryDone port s
  | .tickOutPulseEnd => Sys2Proof.Machine.execTickOutPulseEnd s
  | .bar0Read fn off size => Sys2Proof.Machine.execBar0Read fn off size s
  | .malformedTlp t => Sys2Proof.Machine.execMalformedTlp t s
  | .jtagInstruction load => Sys2Proof.Machine.execJtagInstruction load s

end Sys2Proof.Machine
end

