-- ==== Sys2Proof/Safety.lean ====
section
/-! DEFINITION. What the statements call a good state and a good step. -/

namespace Sys2Proof.Machine

/-- The canonical form of the local store (R171): keys strictly rising, no byte listed that is zero. -/
abbrev Memory.wf (s : State) : Bool := s.ls.mem.wf 0

/-- The output pins stand at the levels that the state gives them (R268, R270, R405, R407, R448, R488, Table 20.4). -/
def State.pinsAgree (s : State) : Bool := decide ((settle s).pins = s.pins)

/-- The block is up: PORST_N is high and bisque has ended (R460). -/
def State.up (s : State) : Bool := !s.power.porst && s.dev.ready

/-- The running entry of a function's admin queue has this opcode, its completion is still due, and it has begun or nothing holds
it back: no table change is being checked, and where it touches shared state no command that began before it is still to be applied
(R139, R159, R424). -/
def State.runsAdmin (s : State) (fn op : Nat) : Bool :=
  decide (fn < 64) && (s.fn fn).opc == some op && (s.fn fn).heldAdmin.isNone && s.mayApply (s.fn fn) op

/-- The state in which a CCW's checks are made: its dispatch recorded and its work units charged (R54, R109). -/
def State.begun (s : State) (n : Nat) (c : Ccw) : State := (s.beginCcw n c).charge n (wuOf c.op)

/-- Subchannel `n` is its processor's choice, the CCW it has reached is `c`, of opcode `op`, and `c` passes step 1 of R54 and the
checks of its place: it is not a JUMP reached by a JUMP, it is no CCW that a span reads forward, it fits its span, and the status
word it asks for has a valid place. -/
def State.reaches (s : State) (n : Nat) (op : Byte) (c : Ccw) : Bool :=
  decide (n < 256) && s.chosen n && decide (s.ccwAt n = .ok c) && definedOp c.op && c.op == op && c.step1 &&
    !((s.sch n).afterJump && c.op == 0x10) && !(s.sch n).spanSkip && (s.sch n).spanOk c &&
    ((s.begun n c).statCheck n c).isNone

/-- The step answers a next state that satisfies `P`. -/
def nextWith (o : Host.Outcome State Fault Refusal) (P : State → Prop) : Prop := ∃ t, o = .next t ∧ P t

end Sys2Proof.Machine
end

