-- ==== Sys2Proof/Certificates/Slice0/Obligations.lean ====
section
/-! DEFINITION. The statements for the provers. A statement whose conclusion is that `exec` answers a next state gives that state
whole: what its expression does not change is unchanged, the queue of commands among it, and `finish` ends a fetch round that has
nothing left to fetch (R498) and forms the output pins from it. What is not said in the named operations of the model is said here
in words of the spec's tables. -/

open Sys2Proof Sys2Proof.Machine


/-- FRAME_TICK past the frame's length, its Commit slice begun: what the ending frame leaves is counted and the frame
of the next number opens; where a number was taken from the ring's master, the frame of that number, with FRAME_STEP unless it is
the next one; where RUN is being cleared, the run's last frame closes. FRAME_ZERO_OPEN, with frame 0 arranged and its instant
reached, opens frame 0 (R18, R26, R45, R367, R504). -/
def Obligations.Kiln_frames_open_and_close : Prop :=
  (∀ (s : State),
     s.power.porst = false → s.kiln.frameRuns = true → s.kiln.slice = 15 → s.kiln.tickAt + s.kiln.frameLen ≤ s.clk →
     s.kiln.stopping = false → s.kiln.frameNext = none →
     exec .frameTick s = .next (finish s (s.endFrame.adcTick.openFrame (s.kiln.frame + 1) false))) ∧
  (∀ (s : State) (f : Word),
     s.power.porst = false → s.kiln.frameRuns = true → s.kiln.slice = 15 → s.kiln.tickAt + s.kiln.frameLen ≤ s.clk →
     s.kiln.stopping = false → s.kiln.frameNext = some f → f ≠ s.kiln.frame + 1 →
     exec .frameTick s = .next (finish s ((s.endFrame.adcTick.openFrame f false).raise 0 0x0302 0 0
       (s.endFrame.adcTick.openFrame f false).kiln.frame))) ∧
  (∀ (s : State),
     s.power.porst = false → s.kiln.frameRuns = true → s.kiln.slice = 15 → s.kiln.tickAt + s.kiln.frameLen ≤ s.clk →
     s.kiln.stopping = false → s.kiln.frameNext = some (s.kiln.frame + 1) →
     exec .frameTick s = .next (finish s (s.endFrame.adcTick.openFrame (s.kiln.frame + 1) false))) ∧
  (∀ (s : State),
     s.power.porst = false → s.kiln.frameRuns = true → s.kiln.slice = 15 → s.kiln.tickAt + s.kiln.frameLen ≤ s.clk →
     s.kiln.stopping = true →
     exec .frameTick s = .next (finish s (s.endFrame.adcTick.closeLast))) ∧
  (∀ (s : State),
     s.power.porst = false → s.kiln.run = true → s.kiln.frameRuns = false → s.kiln.zeroPending = true →
     s.kiln.zeroAt ≤ s.clk →
     exec .frameZeroOpen s = .next (finish s (s.openFrame 0 false)))

/-- SLICE_START past the instant of the next of slices 1 to 14 advances the slice and reconsiders the entries that wait
to start, slice 1 taking the subscriptions first; COMMIT_SLICE past the instant of slice 15 enters it, freezes the staging image
and empties it, and marks an overrun for the processor of every subchannel that still runs G work, and nothing else changes where
none does; FRAME_OVERRUN_WDG_BITE, when the bite is due, applies cause OVR to the ports with ON_OVR and raises FRAME_OVERRUN (R14,
R18, R44, R396, R499). -/
def Obligations.Kiln_slices : Prop :=
  (∀ (s : State),
     s.power.porst = false → s.kiln.frameRuns = true → s.kiln.slice ≠ 0 → s.kiln.slice < 14 →
     s.kiln.tickAt + (s.kiln.slice + 1) * (s.kiln.frameLen / 16) ≤ s.clk →
     exec .sliceStart s = .next (finish s ((s.updKiln fun k => { k with slice := k.slice + 1 }).startWaiting))) ∧
  (∀ (s : State),
     s.power.porst = false → s.kiln.frameRuns = true → s.kiln.slice = 0 →
     s.kiln.tickAt + s.kiln.frameLen / 16 ≤ s.clk →
     exec .sliceStart s = .next (finish s (
       (s.updKiln fun k => { k with slice := k.slice + 1 }).subsAtSeg1.startWaiting))) ∧
  (∀ (s : State),
     s.power.porst = false → s.kiln.frameRuns = true → s.kiln.slice ≠ 15 →
     s.kiln.tickAt + 15 * (s.kiln.frameLen / 16) ≤ s.clk →
     s.schs.all (fun e => s.schCls e.1 != .g || e.2.state == .idle || e.2.state == .armed) = true →
     exec .commitSlice s = .next (finish s (State.startWaiting
       { s with kiln := { s.kiln with slice := 15 }, frozen := s.stage, stage := {} }))) ∧
  (∀ (s : State) (n : Nat),
     s.power.porst = false → s.kiln.frameRuns = true → s.kiln.slice ≠ 15 →
     s.kiln.tickAt + 15 * (s.kiln.frameLen / 16) ≤ s.clk → n < 256 → s.schCls n = .g → (s.sch n).state ≠ .idle →
     (s.sch n).state ≠ .armed →
     exec .commitSlice s = .next (finish s s.commitBegin.startWaiting) ∧ (s.commitBegin.cpAcct (n / 8)).overran = true) ∧
  (∀ (s : State),
     s.power.porst = false → s.kiln.ovrBiteDue = true →
     ∃ t, t = (s.updKiln fun k => { k with ovrBiteDue := false }).safeApply 1 (s.onPorts 8) none ∧
     exec .frameOverrunWdgBite s = .next (finish s (t.raiseF 0 0x0103 t.kiln.ovrFirstCp t.kiln.ovrConsec)))

/-- An edge of the selected kind on TICK_IN, where the Kiln uses the pin: while RUN is set and no frame runs it opens
frame 0; while frames run it is a glitch within half a period of the last accepted edge, and otherwise it is accepted and its phase
followed, with TICK_RESTORED when the Kiln was in holdover, and after the holdover that is due at its instant. TICK_HOLDOVER, with
no edge accepted for 1.5 periods of source TICK_IN, or no SYNC for 1.5 periods of a follower of the ring, enters holdover and
raises TICK_HOLDOVER (R23, R25, R26). -/
def Obligations.Kiln_tick_source : Prop :=
  (∀ (s : State) (e : EdgeKind),
     s.power.porst = false → s.tickInUsed = true → (e == .falling) = s.kiln.edge → s.kiln.frameRuns = false →
     s.kiln.run = true →
     exec (.tickInEdge e) s = .next (finish s (
       (s.updKiln fun k => { k with lastEdge := s.clk, awaitFirst := false }).openFrame 0 true))) ∧
  (∀ (s : State) (e : EdgeKind),
     s.power.porst = false → s.tickInUsed = true → (e == .falling) = s.kiln.edge → s.kiln.frameRuns = true →
     s.kiln.awaitFirst = false → 2 * (s.clk - s.kiln.lastEdge) < s.kiln.perInForce * 1000 →
     exec (.tickInEdge e) s = .next (finish s (s.updKiln fun k => { k with glitch := sat8 k.glitch }))) ∧
  (∀ (s : State) (e : EdgeKind),
     s.power.porst = false → s.tickInUsed = true → (e == .falling) = s.kiln.edge → s.kiln.frameRuns = true →
     s.kiln.holdover = false → s.kiln.awaitFirst = true ∨ s.kiln.perInForce * 1000 ≤ 2 * (s.clk - s.kiln.lastEdge) →
     s.tickLost = false →
     exec (.tickInEdge e) s = .next (finish s (
       s.updKiln fun k => Kiln.withSlewing
         { k with lastEdge := s.clk, awaitFirst := false, holdover := false, phaseErr := k.phaseOf s.clk }))) ∧
  (∀ (s : State) (e : EdgeKind),
     s.power.porst = false → s.tickInUsed = true → (e == .falling) = s.kiln.edge → s.kiln.frameRuns = true →
     s.kiln.holdover = true → s.kiln.awaitFirst = true ∨ s.kiln.perInForce * 1000 ≤ 2 * (s.clk - s.kiln.lastEdge) →
     exec (.tickInEdge e) s = .next (finish s (
       (s.updKiln fun k => Kiln.withSlewing
         { k with lastEdge := s.clk, awaitFirst := false, holdover := false, phaseErr := k.phaseOf s.clk }).raiseF
       0 0x0301 0 s.kiln.src))) ∧
  (∀ (s u : State) (e : EdgeKind),
     s.power.porst = false → s.tickInUsed = true → (e == .falling) = s.kiln.edge → s.kiln.frameRuns = true →
     s.kiln.awaitFirst = true ∨ s.kiln.perInForce * 1000 ≤ 2 * (s.clk - s.kiln.lastEdge) → s.tickLost = true →
     u = (s.updKiln fun k => Kiln.withSlewing { k with holdover := true, phaseErr := 0 }).updLnk (fun l =>
       { l with locked := false, master := false }) →
     exec (.tickInEdge e) s = .next (finish s (
       ((u.raiseF 0 0x0300 0 s.kiln.src).updKiln fun k => Kiln.withSlewing
         { k with lastEdge := s.clk, awaitFirst := false, holdover := false, phaseErr := k.phaseOf s.clk }).raiseF
       0 0x0301 0 s.kiln.src))) ∧
  (∀ (s : State),
     s.power.porst = false → s.kiln.frameRuns = true → s.kiln.holdover = false → s.kiln.src = 1 →
     3 * (s.kiln.perInForce * 1000) ≤ 2 * (s.clk - s.kiln.lastEdge) →
     exec .tickHoldover s = .next (finish s (((s.updKiln fun k =>
         Kiln.withSlewing { k with holdover := true, phaseErr := 0 }).updLnk fun l =>
           { l with locked := false, master := false }).raiseF 0 0x0300 0 s.kiln.src))) ∧
  (∀ (s : State) (t : Nat),
     s.power.porst = false → s.kiln.frameRuns = true → s.kiln.holdover = false → s.kiln.src = 2 →
     s.lnk.master = false → s.lnk.lastSync = some t → s.kiln.awaitFirst = false →
     3 * (s.kiln.perInForce * 1000) ≤ 2 * (s.clk - t) →
     exec .tickHoldover s = .next (finish s (((s.updKiln fun k =>
         Kiln.withSlewing { k with holdover := true, phaseErr := 0 }).updLnk fun l =>
           { l with locked := false, master := false }).raiseF 0 0x0300 0 s.kiln.src)))

/-- With READY set and the configuration unlocked: RUN set while no frame runs arranges frame 0 (1 µs later with the
internal source), and RUN cleared with no G queue lets the frame in progress be the last; KILN_PER in range, with no G queue, and
RUN clear or source INTERNAL, takes effect at once with no frame running, and with frames running before the Commit slice at the
next tick; KILN_SRC, off the ring, selects another source and the edge, while no frame runs and, to INTERNAL out of holdover or to
another source, while frames run; STIME_ADJ moves STIME up at once while no frame runs, has no effect then when it is negative,
and is slewed in while frames run (R21, R22, R25, R26, R30, R504). -/
def Obligations.Kiln_register_writes : Prop :=
  (∀ (s : State) (w : Word),
     s.power.porst = false → s.dev.ready = true → s.dev.lock = false → w.extractLsb' 16 16 ≠ 0x8000#16 →
     s.kiln.run = false → s.kiln.stopping = false → s.kiln.frameRuns = false →
     exec (.runStart w) s = .next (finish s ((s.updKiln fun k =>
       { k with
         tickOutEn := bit w 3, trim := w.extractLsb' 16 16, ovrLimitNext := fld w 8 8, ovrLimit := fld w 8 8
         run := true, awaitFirst := true, lastEdge := s.clk, zeroPending := k.src == 0, zeroAt := s.clk + 1000 }).updLnk
         fun l => { l with runSince := s.clk, lastSync := none }))) ∧
  (∀ (s : State) (w : Word),
     s.power.porst = false → s.dev.ready = true → s.dev.lock = false → w.extractLsb' 16 16 ≠ 0x8000#16 →
     s.kiln.run = true → s.kiln.frameRuns = true → s.gQueueExists = false →
     exec (.runStop w) s = .next (finish s (s.updKiln fun k =>
       { k with
         tickOutEn := bit w 3, trim := w.extractLsb' 16 16, ovrLimitNext := fld w 8 8, run := false, stopping := true }))) ∧
  (∀ (s : State) (w : Word),
     s.power.porst = false → s.dev.ready = true → s.dev.lock = false → 50 ≤ fld w 0 17 → fld w 0 17 ≤ 100000 →
     s.gQueueExists = false → s.kiln.frameRuns = false → s.kiln.run = false ∨ s.kiln.src = 0 →
     exec (.kilnPerWrite w) s = .next (finish s (
       s.updKiln fun k => { k with per := fld w 0 17, perInForce := fld w 0 17, perPend := [] }))) ∧
  (∀ (s : State) (w : Word),
     s.power.porst = false → s.dev.ready = true → s.dev.lock = false → 50 ≤ fld w 0 17 → fld w 0 17 ≤ 100000 →
     s.gQueueExists = false → s.kiln.frameRuns = true → s.kiln.run = false ∨ s.kiln.src = 0 → s.inCommit = false →
     s.kiln.perPend = [] →
     exec (.kilnPerWrite w) s = .next (finish s (
       s.updKiln fun k => { k with per := fld w 0 17, perPend := [(1, fld w 0 17)] }))) ∧
  (∀ (s : State) (w : Word),
     s.power.porst = false → s.dev.ready = true → s.dev.lock = false → fld w 0 2 ≠ 3 → fld w 0 2 ≠ s.kiln.src →
     s.lnk.en = false → s.kiln.frameRuns = false →
     exec (.kilnSrcWrite w) s = .next (finish s ((s.updKiln fun k =>
       { k with
         edge := bit w 2, src := fld w 0 2, awaitFirst := true, lastEdge := s.clk
         zeroPending := k.run && fld w 0 2 == 0, zeroAt := s.clk + 1000, zeroByEdge := false }).updLnk
         fun l => { l with runSince := s.clk }))) ∧
  (∀ (s : State) (w : Word),
     s.power.porst = false → s.dev.ready = true → s.dev.lock = false → fld w 0 2 ≠ 3 → fld w 0 2 ≠ s.kiln.src →
     s.lnk.en = false → s.kiln.frameRuns = true → fld w 0 2 ≠ 0 →
     exec (.kilnSrcWrite w) s = .next (finish s (s.updKiln fun k => Kiln.withSlewing
       { k with edge := bit w 2, src := fld w 0 2, awaitFirst := true, lastEdge := s.clk, phaseErr := 0 }))) ∧
  (∀ (s : State) (w : Word),
     s.power.porst = false → s.dev.ready = true → s.dev.lock = false → s.kiln.src ≠ 0 → s.lnk.en = false →
     s.kiln.frameRuns = true → fld w 0 2 = 0 → s.kiln.holdover = false →
     exec (.kilnSrcWrite w) s = .next (finish s (s.updKiln fun k => Kiln.withSlewing
       { k with edge := bit w 2, src := 0, holdover := false, phaseErr := 0, tickSlew := false }))) ∧
  (∀ (s : State) (w : Word),
     s.power.porst = false → s.dev.ready = true → s.kiln.frameRuns = false → 0 < w.toInt →
     exec (.stimeAdj w) s = .next (finish s ({ s with stime := s.stime + BitVec.ofNat 64 w.toInt.toNat }))) ∧
  (∀ (s : State) (w : Word),
     s.power.porst = false → s.dev.ready = true → s.kiln.frameRuns = false → w.toInt ≤ 0 →
     exec (.stimeAdj w) s = .next (finish s s)) ∧
  (∀ (s : State) (w : Word),
     s.power.porst = false → s.dev.ready = true → s.kiln.frameRuns = true →
     exec (.stimeAdj w) s = .next (finish s (
       s.updKiln fun k => Kiln.withSlewing { k with stimeSlew := w.toInt })))

/-- With READY set, STIME_LO_READ returns STIME[31:0] and keeps STIME[63:32] in the shadow; TICK_OUT_PULSE_END ends
the pulse of TICK_OUT once its instant is reached; nothing else changes (R27, R28). -/
def Obligations.Kiln_station_time : Prop :=
  (∀ (s : State),
     s.power.porst = false → s.dev.ready = true →
     exec .stimeLoRead s = .next (finish s ((s.updKiln fun k =>
       { k with stimeShadow := some ((s.stime >>> 32).setWidth 32) }).updMsp fun m => { m with readData := s.stime.setWidth 32 }))) ∧
  (∀ (s : State),
     s.power.porst = false → s.pins.tickOut = true → s.kiln.tickOutFall ≤ s.clk →
     exec .tickOutPulseEnd s = .next (finish s ({ s with pins := { s.pins with tickOut := false } })))

/-- On a management port that is not silent, at least 100 ns after the previous command, a request with a correct
CRC_Q and no command error: READ reads the words that the supervisor clocks, keeps them for REPEAT and answers STS,
the words and CRC_R; WRITE applies its words and then answers; REPEAT answers the kept words (R410, R411, R412). -/
def Obligations.Msp_requests : Prop :=
  (∀ (s : State) (req : List Byte) (clocked : Nat),
     s.power.porst = false → s.mspSilent = false → mspFrame req ≤ req.length →
     crc8 (req.take (mspFrame req - 1)) = req.getD (mspFrame req - 1) 0 → s.mspCmdErr req = false →
     s.msp.nextAt ≤ s.clk → leAt req 0 1 = 1 →
     ∃ ws t, (ws, t) = (s.updMsp fun m => { m with nextAt := s.clk + 100, response := [] }).mspReadWords (leAt req 1 2) 0
         (min clocked (leAt req 3 1 + 1)) ∧
       exec (.mspRead req clocked) s = .next (finish s
         ((t.updMsp fun m => { m with repeatBuf := some ws }).mspRespond (s.mspSts 0) (wordBytes ws)))) ∧
  (∀ (s : State) (req : List Byte),
     s.power.porst = false → s.mspSilent = false → mspFrame req ≤ req.length →
     crc8 (req.take (mspFrame req - 1)) = req.getD (mspFrame req - 1) 0 → s.mspCmdErr req = false →
     s.msp.nextAt ≤ s.clk → leAt req 0 1 = 2 →
     ∃ t u, t = (s.updMsp fun m => { m with nextAt := s.clk + 100, response := [] }).mspWriteWords (leAt req 1 2) 0 (mspWords req) ∧
       u = t.mspRespond (t.mspSts 0) [] ∧
       exec (.mspWrite req) s = .next (finish s (u.warmAsked.updMsp fun m => { m with response := u.msp.response }))) ∧
  (∀ (s : State) (req : List Byte),
     s.power.porst = false → s.mspSilent = false → mspFrame req ≤ req.length →
     crc8 (req.take (mspFrame req - 1)) = req.getD (mspFrame req - 1) 0 → s.mspCmdErr req = false →
     s.msp.nextAt ≤ s.clk → leAt req 0 1 = 3 →
     exec (.mspRepeat req) s = .next (finish s (
       (s.updMsp fun m => { m with nextAt := s.clk + 100 }).mspRespond (s.mspSts 0) (wordBytes (s.msp.repeatBuf.getD [])))))

/-- With READY set and no check running: TBL_SEL with an empty hold buffer selects a table; TBL_DATA reads the live
table, and writes it with HOLD clear, or with HOLD set the buffer while that holds fewer than 128 words, and steps the address;
COMMIT that keeps HOLD set applies the words of the buffer as one change and empties it; DISCARD without COMMIT empties it.
TABLE_CHECK_END, when no change of shared state that began before it is still unapplied, applies the checked change whole, or
refuses it with the failure that the check against the admitted queues finds (R159, R422, R423, R424). -/
def Obligations.Table_window : Prop :=
  (∀ (s : State) (w : Word),
     s.power.porst = false → s.dev.ready = true → s.msp.busy = none → s.msp.buf = [] →
     exec (.tblSelWrite w) s = .next (finish s (s.updMsp fun m => { m with tblSel := fld w 0 8 }))) ∧
  (∀ (s : State) (w : Word),
     s.power.porst = false → s.dev.ready = true → s.msp.busy = none → s.msp.hold = false →
     exec (.tblDataWrite w) s = .next (finish s ((s.tblChange s.msp.tblSel [(s.msp.tblAddr, w)]).tblStep))) ∧
  (∀ (s : State) (w : Word),
     s.power.porst = false → s.dev.ready = true → s.msp.busy = none → s.msp.hold = true → s.msp.buf.length < 128 →
     exec (.tblDataWrite w) s = .next (finish s (State.tblStep (s.updMsp fun m =>
       { m with buf := (m.buf.filter fun x => x.1 != m.tblAddr) ++ [(m.tblAddr, w)] })))) ∧
  (∀ (s : State),
     s.power.porst = false → s.dev.ready = true → s.msp.busy = none →
     exec .tblDataRead s = .next (finish s ((s.tblRead s.msp.tblSel s.msp.tblAddr).2.tblStep.updMsp fun m =>
       { m with readData := (s.tblRead s.msp.tblSel s.msp.tblAddr).1 }))) ∧
  (∀ (s : State) (w : Word),
     s.power.porst = false → s.dev.ready = true → s.msp.busy = none → s.msp.buf ≠ [] → bit w 1 = true →
     bit w 3 = false →
     exec (.commit w) s = .next (finish s
       (((s.updMsp fun m => { m with buf := [] }).tblChange s.msp.tblSel s.msp.buf).updMsp fun m =>
         { m with ainc := bit w 0, hold := true }))) ∧
  (∀ (s : State) (w : Word),
     s.power.porst = false → s.dev.ready = true → s.msp.busy = none → bit w 2 = false →
     exec (.discard w) s = .next (finish s
       (s.updMsp fun m => { m with buf := [], ainc := bit w 0, hold := bit w 1 }))) ∧
  (∀ (s : State) (b : TblCheck) (k : Nat) (n : Nat),
     s.power.porst = false → s.msp.busy = some b → s.sharedHeld = false → tblShape b.table = some (k, n) →
     ∃ t addr ws, t = (s.updMsp fun m => { m with busy := none }) ∧ addr = (b.words.head?.map (·.1)).getD 0 ∧
       ws = s.tblWrites b.table n b.words ∧
       exec .tableCheckEnd s = .next (finish s (match t.tblAdmit b.table ws with
         | none => (t.tblApply b.table ws).tblReport b.table addr none
         | some f => t.tblReport b.table addr (some f))))

/-- LOCK_SET with LOCK clear sets LOCK and takes HARD; LOCK_CLEAR with the key and HARD clear clears LOCK, and with
HARD set it is ignored and counted under LOCK. With READY set: EVT_CAUSE_READ with a record waiting pops the oldest, answers its
code and object, and loads EVT_DETAIL and EVT_INFO; WARM with the configuration unlocked takes AUTOLOAD and runs a warm reset; a
register write over a management port that is not silent reaches its direct register, with the warm reset that it may ask for. A
write and a read of BAR0 of a function that answers act on its region (R180, R407, R417, R437, Table 17.6). -/
def Obligations.Device_registers : Prop :=
  (∀ (s : State) (w : Word),
     s.power.porst = false → s.dev.lock = false →
     exec (.lockSet w) s = .next (finish s (s.updDev fun d => { d with lock := true, hard := bit w 1 }))) ∧
  (∀ (s : State) (w : Word),
     s.power.porst = false → s.dev.lock = true → s.dev.hard = false → fld w 16 16 = 0x4C0C →
     exec (.lockClear w) s = .next (finish s (s.updDev fun d => { d with lock := false }))) ∧
  (∀ (s : State) (w : Word),
     s.power.porst = false → s.dev.lock = true → s.dev.hard = true →
     exec (.lockClear w) s = .next (finish s (s.errLock))) ∧
  (∀ (s : State) (c : Cause) (rest : List Cause),
     s.power.porst = false → s.dev.ready = true → s.dev.causes = c :: rest →
     exec .evtCauseRead s = .next (finish s ((s.updDev fun d =>
       { d with
         causes := rest, evtDetail := put 0 (c.detail % 65536) ||| put 16 (c.saggar % 256), evtInfo := c.info }).updMsp fun m =>
       { m with readData := put 0 (c.code % 65536) ||| put 16 (c.object % 65536) }))) ∧
  (∀ (s : State) (w : Word),
     s.power.porst = false → s.dev.ready = true → s.dev.lock = false →
     exec (.warm w) s = .next (finish s (State.warmRun (State.warmBegin
       { s with
         dev := { s.dev with autoload := bit w 0 }
         power := { s.power with warmReq := false } } false)))) ∧
  (∀ (s : State) (a : Nat) (v : DWord),
     s.power.porst = false → s.dev.ready = true → s.mspSilent = false → a < 128 →
     exec (.registerWrite (.msp a) v) s = .next (finish s ((s.regPut a (v.setWidth 32)).warmAsked))) ∧
  (∀ (s : State) (fn : Nat) (off : Nat) (size : Nat) (v : DWord),
     s.power.porst = false → fn < 64 → off < 4194304 → s.barOn fn = true →
     exec (.registerWrite (.bar0 fn off size) v) s = .next (finish s (s.barWrite fn off size v))) ∧
  (∀ (s : State) (fn : Nat) (off : Nat) (size : Nat),
     s.power.porst = false → fn < 64 → off < 4194304 → s.barOn fn = true →
     exec (.bar0Read fn off size) s = .next (finish s ((s.barRead fn off size).2.updFn fn fun f =>
       { f with barData := (s.barRead fn off size).1 })))

/-- With READY set: a valid kick before the end of the window clears BITE, takes WDG_PER into force and, with EN,
starts the timer anew; WDG_ENABLE with EN clear and the configuration unlocked sets EN, takes STRICT and starts the timer.
DEVICE_WDG_BITE at or after the end of the window sets BITE, stops the timer, applies cause DWDG to the ports with ON_DWDG and
raises DEVICE_WDG (R398, R399). -/
def Obligations.Device_watchdog : Prop :=
  (∀ (s : State),
     s.power.porst = false → s.dev.ready = true → (s.wdgEnd.all fun t => decide (s.clk < t)) = true →
     exec (.wdgKick 0x00004B1C) s = .next (finish s (s.updDev fun d =>
       { d with wdgBite := false, wdgPerInForce := d.wdgPer, wdgSince := if d.wdgEn then some s.clk else none }))) ∧
  (∀ (s : State) (w : Word),
     s.power.porst = false → s.dev.ready = true → s.dev.lock = false → s.dev.wdgEn = false → s.dev.wdgSince = none →
     exec (.wdgEnable w) s = .next (finish s (s.updDev fun d =>
       { d with wdgEn := true, wdgStrict := bit w 2, wdgSince := some s.clk }))) ∧
  (∀ (s : State) (t : Nat),
     s.power.porst = false → s.wdgEnd = some t → t ≤ s.clk →
     exec .deviceWdgBite s = .next (finish s
       (((s.updDev fun d => { d with wdgBite := true, wdgSince := none }).safeApply 2 (s.onPorts 9) none).raiseF 0 0x0104 0 0)))

/-- With READY set, the configuration unlocked and no bite of the device watchdog due, a write of SAFE_CTL takes its FS
bits and: APPLY applies cause SUP to the ports with ON_SUP; REL_SUP releases it; REL_OVR releases OVR while CONSEC is 0; REL_DWDG
releases DWDG while BITE is clear; each where no other of the four is written (R401, R404, R405, Table 16.5). -/
def Obligations.Supervisor_safe_control : Prop :=
  (∀ (s : State) (w : Word),
     s.power.porst = false → s.dev.ready = true → s.dev.lock = false → (s.wdgEnd.all fun t => decide (s.clk < t)) = true → bit w 1 = false → bit w 2 = false →
     bit w 3 = false →
     exec (.apply w) s = .next (finish s (
       (s.updDev fun d => { d with fsOvr := bit w 4, fsSup := bit w 5, fsForce := bit w 6 }).safeApply 3 (s.onPorts 10) none))) ∧
  (∀ (s : State) (w : Word),
     s.power.porst = false → s.dev.ready = true → s.dev.lock = false → (s.wdgEnd.all fun t => decide (s.clk < t)) = true → bit w 0 = false → bit w 2 = false →
     bit w 3 = false →
     exec (.relSup w) s = .next (finish s (
       (s.updDev fun d => { d with fsOvr := bit w 4, fsSup := bit w 5, fsForce := bit w 6 }).safeRelease 3))) ∧
  (∀ (s : State) (w : Word),
     s.power.porst = false → s.dev.ready = true → s.dev.lock = false → (s.wdgEnd.all fun t => decide (s.clk < t)) = true → bit w 0 = false → bit w 1 = false →
     bit w 3 = false → s.kiln.ovrConsec = 0 →
     exec (.relOvr w) s = .next (finish s (
       (s.updDev fun d => { d with fsOvr := bit w 4, fsSup := bit w 5, fsForce := bit w 6 }).safeRelease 1))) ∧
  (∀ (s : State) (w : Word),
     s.power.porst = false → s.dev.ready = true → s.dev.lock = false → (s.wdgEnd.all fun t => decide (s.clk < t)) = true → bit w 0 = false → bit w 1 = false →
     bit w 2 = false → s.dev.wdgBite = false →
     exec (.relDwdg w) s = .next (finish s (
       (s.updDev fun d => { d with fsOvr := bit w 4, fsSup := bit w 5, fsForce := bit w 6 }).safeRelease 2)))

/-- With READY set: WM_CLR treats each monitor whose bit is set as a request to clear it; a write of JRN_CTL with WAKE that
leaves MAXPS as it is counts, with the journal awake, as its latest work, and with the journal in a power state that it is not
yet leaving, begins the exit, which in JPS2 counts in WAKES. With the configuration unlocked too: SHP_CTL with EN = 1, while the
slim host port is off, binds it to a saggar whose function is off; LNK_CTL takes its fields and, with RETRAIN clear, inserts a
node that is off the ring where EN is written 1 and KILN_SRC names the link, and takes a node off the ring where EN is written
0; with EN = 1 for a node on the ring and RETRAIN = 1 it trains the sides anew (R161, R262, R311, R333, R334, R336, R429). -/
def Obligations.Unit_register_writes : Prop :=
  (∀ (s : State) (w : Word),
     s.power.porst = false → s.dev.ready = true →
     exec (.wmClr w) s = .next (finish s (
       (List.range 32).foldl (fun s n => if bit w n then s.clearReq n else s) s))) ∧
  (∀ (s : State) (w : Word),
     s.power.porst = false → s.dev.ready = true → fld w 0 2 = s.jrn.maxps → s.jrn.ps = 0 →
     exec (.wake w) s = .next (finish s (s.updJrn fun j => { j with lastOp := s.clk }))) ∧
  (∀ (s : State) (w : Word),
     s.power.porst = false → s.dev.ready = true → fld w 0 2 = s.jrn.maxps → s.jrn.ps ≠ 0 → s.jrn.exitAt = none →
     exec (.wake w) s = .next (finish s (s.updJrn fun j =>
       { j with exitAt := some (s.clk + exitNs j.ps), wakes := if j.ps = 2 then sat16 j.wakes else j.wakes }))) ∧
  (∀ (s : State) (w : Word),
     s.power.porst = false → s.dev.ready = true → s.dev.lock = false → s.shp.en = false → bit w 0 = true →
     (s.fn (fld w 8 6)).en = false →
     exec (.shpCtlWrite w) s = .next (finish s (State.shpRefresh (s.updShp fun p =>
       { p with en := true, sag := fld w 8 6, quad := bit w 16, cfgErr := false })))) ∧
  (∀ (s : State) (w : Word),
     s.power.porst = false → s.dev.ready = true → s.dev.lock = false → s.kiln.src = 2 → s.lnk.en = false →
     bit w 24 = false →
     exec (.lnkEnable w) s = .next (finish s (State.lnkOn (s.updLnk fun l =>
       { l with mcap := bit w 1, mtick := bit w 2, tsync := bit w 3, rto := fld w 8 16 })))) ∧
  (∀ (s : State) (w : Word),
     s.power.porst = false → s.dev.ready = true → s.dev.lock = false → s.lnk.en = true → bit w 24 = false →
     exec (.lnkDisable w) s = .next (finish s (State.lnkOff (s.updLnk fun l =>
       { l with mcap := bit w 1, mtick := bit w 2, tsync := bit w 3, rto := fld w 8 16 })))) ∧
  (∀ (s : State) (w : Word),
     s.power.porst = false → s.dev.ready = true → s.dev.lock = false → s.kiln.src = 2 → s.lnk.en = true →
     bit w 0 = true →
     exec (.retrain w) s = .next (finish s (State.retrain (s.updLnk fun l =>
       { l with mcap := bit w 1, mtick := bit w 2, tsync := bit w 3, rto := fld w 8 16 }))))

/-- Written through the BAR0 of a function that answers, by a saggar whose SAG_EN is 1, in 4 or 8 bytes: the tail of the admin
queue of a ready, enabled function, below its size, and the tail of the function's own open SQ that no reset or deletion
empties, below its size, take the index, a tail that moves back over unfetched entries marking which slots are fetched as not
defined; the head of the function's own CQ within [head, tail] takes the index, and its held completions move; the head of the
event queue within [head, tail] takes the index, with the loss that an event waited to report where the index differs from the
head, and changes nothing where it is the head; an SQ tail not below the SQ's size changes nothing but DEV_ERR.HOST (R114, R115,
R117, R131, R132, R159, R167). -/
def Obligations.Doorbells_move_indexes : Prop :=
  (∀ (s : State) (fn : Nat) (size : Nat) (v : DWord),
     s.power.porst = false → fn < 64 → s.barOn fn = true → (s.sag fn).en = true → (s.fn fn).rdy = true →
     (s.fn fn).en = true → fld v 0 16 < (s.fn fn).sqn → size = 4 ∨ size = 8 →
     exec (.sqTailDoorbell fn none size v) s = .next (finish s (
       s.updFn fn fun f => { f with
         sqTail := fld v 0 16, loose := fld v 0 16 != f.sqHead && (f.loose || tailBack f.sqHead f.sqTail (fld v 0 16) f.sqn) }))) ∧
  (∀ (s : State) (fn : Nat) (n : Nat) (size : Nat) (v : DWord),
     s.power.porst = false → fn < 64 → s.barOn fn = true → (s.sag fn).en = true → n < 256 → (s.sq n).state ≠ .free →
     (s.sq n).opened = true → (s.sq n).fn = fn → (s.sq n).ending = false → fld v 0 16 < (s.sq n).n →
     size = 4 ∨ size = 8 →
     exec (.sqTailDoorbell fn (some n) size v) s = .next (finish s (
       s.updSq n fun q => { q with
         tail := fld v 0 16, loose := fld v 0 16 != q.head && (q.loose || tailBack q.head q.tail (fld v 0 16) q.n) }))) ∧
  (∀ (s : State) (fn : Nat) (n : Nat) (size : Nat) (v : DWord),
     s.power.porst = false → fn < 64 → s.barOn fn = true → (s.sag fn).en = true → n < 256 → (s.cq n).exists_ = true →
     (s.cq n).fn = fn → inRing (fld v 0 16) (s.cq n).head (s.cq n).tail (s.cq n).n = true → size = 4 ∨ size = 8 →
     exec (.cqHeadDoorbell fn (some n) size v) s = .next (finish s (
       (s.updCq n fun q => { q with head := fld v 0 16 }).cqDrain n (s.cq n).held.length))) ∧
  (∀ (s : State) (fn : Nat) (size : Nat) (v : DWord),
     s.power.porst = false → fn < 64 → s.barOn fn = true → (s.sag fn).en = true → (s.fn fn).evqOn = true →
     inRing (fld v 0 16) (s.fn fn).evqHead (s.fn fn).evqTail (s.fn fn).evqN = true → size = 4 ∨ size = 8 →
     fld v 0 16 ≠ (s.fn fn).evqHead →
     exec (.evqHeadDoorbell fn size v) s = .next (finish s (
       (s.updFn fn fun f => { f with evqHead := fld v 0 16 }).evqOverflow fn))) ∧
  (∀ (s : State) (fn : Nat) (size : Nat) (v : DWord),
     s.power.porst = false → fn < 64 → s.barOn fn = true → (s.sag fn).en = true → (s.fn fn).evqOn = true →
     inRing (fld v 0 16) (s.fn fn).evqHead (s.fn fn).evqTail (s.fn fn).evqN = true → size = 4 ∨ size = 8 →
     fld v 0 16 = (s.fn fn).evqHead →
     exec (.evqHeadDoorbell fn size v) s = .next (finish s s)) ∧
  (∀ (s : State) (fn : Nat) (n : Nat) (size : Nat) (v : DWord),
     s.power.porst = false → fn < 64 → s.barOn fn = true → (s.sag fn).en = true → n < 256 → (s.sq n).n ≤ fld v 0 16 →
     exec (.sqTailDoorbell fn (some n) size v) s = .next (finish s (s.errHost)))

/-- The heartbeat doorbell of a ready function with a heartbeat period, by a saggar whose SAG_EN is 1: it starts a timer that
does not run, and starts a running one anew before its period has passed; with the heartbeat down it ends the loss and raises
HEARTBEAT_RESTORED; at or after the end of the period the loss comes first and then the doorbell's own effect. HEARTBEAT_LOST at
or after the end of the period stops the timer, sets the saggar's heartbeat down, counts the loss and raises HEARTBEAT_LOST;
with HALT set it then ends the autonomous queues of the saggar as they drain, halts the saggar's programs in the order of their
queues and applies cause HB to its ACTUATE ports. A nudge of a subchannel that an SQ of the function reserves: a PARKED one that
is not already being read again reads its CCW again; a PARKED one that is, and one in any other state but IDLE and ARMED, keeps
the nudge latched; with IDLE or ARMED nothing changes. MSIX_UNMASK of a vector of a function that answers clears its mask and
sends the message that was pending, where the function mask is clear and MSI-X enabled. AGG_TIME_EXPIRY, AGG_TIME µs or more
after the first of the pending completions of a CQ with a vector, sends its message and clears their count (R104, R135, R136,
R173, R174, R175). -/
def Obligations.Heartbeat_and_nudge : Prop :=
  (∀ (s : State) (fn : Nat),
     s.power.porst = false → fn < 64 → s.barOn fn = true → (s.sag fn).en = true → (s.fn fn).rdy = true →
     (s.sag fn).hbPer ≠ 0 → (s.sag fn).hbDown = false → (s.sag fn).hbSince = none →
     exec (.heartbeatDoorbell fn) s = .next (finish s (
       s.updSag fn fun x => { x with hbSince := some s.clk, hbDown := false }))) ∧
  (∀ (s : State) (fn : Nat) (t : Nat),
     s.power.porst = false → fn < 64 → s.barOn fn = true → (s.sag fn).en = true → (s.fn fn).rdy = true →
     (s.sag fn).hbPer ≠ 0 → (s.sag fn).hbDown = false → (s.sag fn).hbSince = some t →
     s.clk < t + 1000000 * (s.sag fn).hbPer →
     exec (.heartbeatDoorbell fn) s = .next (finish s (
       s.updSag fn fun x => { x with hbSince := some s.clk, hbDown := false }))) ∧
  (∀ (s : State) (fn : Nat) (t : Nat),
     s.power.porst = false → fn < 64 → s.barOn fn = true → (s.sag fn).en = true → (s.fn fn).rdy = true →
     (s.sag fn).hbSince = some t → t + 1000000 * (s.sag fn).hbPer ≤ s.clk →
     exec (.heartbeatDoorbell fn) s = .next (finish s ((s.hbLose fn).heartbeat fn))) ∧
  (∀ (s : State) (fn : Nat),
     s.power.porst = false → fn < 64 → s.barOn fn = true → (s.sag fn).en = true → (s.fn fn).rdy = true →
     (s.sag fn).hbPer ≠ 0 → (s.sag fn).hbDown = true → (s.sag fn).hbSince = none →
     exec (.heartbeatDoorbell fn) s = .next (finish s (
       (s.updSag fn fun x => { x with hbSince := some s.clk, hbDown := false }).raiseF 0 0x0101 fn 0))) ∧
  (∀ (s : State) (g : Nat) (t : Nat),
     s.power.porst = false → g < 64 → (s.sag g).hbSince = some t → (s.sag g).hbPer ≠ 0 →
     t + 1000000 * (s.sag g).hbPer ≤ s.clk → (s.sag g).hbHalt = false →
     exec (.heartbeatLost g) s = .next (finish s (
       (s.updSag g fun x => { x with hbSince := none, hbDown := true, hbLost := sat16 x.hbLost }).raiseF 0 0x0100 g 0))) ∧
  (∀ (s : State) (g : Nat) (t : Nat),
     s.power.porst = false → g < 64 → (s.sag g).hbSince = some t → (s.sag g).hbPer ≠ 0 →
     t + 1000000 * (s.sag g).hbPer ≤ s.clk → (s.sag g).hbHalt = true →
     ∃ u v w : State,
     u = (s.updSag g fun x => { x with hbSince := none, hbDown := true, hbLost := sat16 x.hbLost }).raiseF 0 0x0100 g 1 ∧
     v = { u with autos := u.autos.map fun e => (e.1, e.2.map fun a => if a.sag == g then { a with ending := true } else a) } ∧
     w = (sortBy (fun n => ((v.sch n).owner.map QRef.order).getD 0) (v.schsOfSag g)).foldl (fun x n => x.haltSch n .heartbeat) v ∧
     exec (.heartbeatLost g) s = .next (finish s (
       (w.autos.foldl (fun x e => x.autoCheck (.auto e.1)) w).safeApply 0
         ((w.autos.foldl (fun x e => x.autoCheck (.auto e.1)) w).actPorts g) none))) ∧
  (∀ (s : State) (fn : Nat) (k : Nat) (n : Nat),
     s.power.porst = false → fn < 64 → s.barOn fn = true → (s.sag fn).en = true → k < 256 →
     (s.sch k).owner = some (.sq n) → (s.sq n).fn = fn →
     (s.sch k).state = .parked → (s.sch k).reread = false →
     exec (.nudge fn k) s = .next (finish s ((s.updSch k fun c => { c with reread := true }).goto k (s.sch k).pc))) ∧
  (∀ (s : State) (fn : Nat) (k : Nat) (n : Nat),
     s.power.porst = false → fn < 64 → s.barOn fn = true → (s.sag fn).en = true → k < 256 →
     (s.sch k).owner = some (.sq n) → (s.sq n).fn = fn → (s.sch k).state ≠ .idle → (s.sch k).state ≠ .armed →
     (s.sch k).state ≠ .parked ∨ (s.sch k).reread = true →
     exec (.nudge fn k) s = .next (finish s (s.updSch k fun c => { c with nudgeL := true }))) ∧
  (∀ (s : State) (fn : Nat) (k : Nat) (n : Nat),
     s.power.porst = false → fn < 64 → s.barOn fn = true → (s.sag fn).en = true → k < 256 →
     (s.sch k).owner = some (.sq n) → (s.sq n).fn = fn → (s.sch k).state = .idle ∨ (s.sch k).state = .armed →
     exec (.nudge fn k) s = .next (finish s s)) ∧
  (∀ (s : State) (fn : Nat) (vec : Nat),
     s.power.porst = false → fn < 64 → vec < 33 → s.barOn fn = true →
     exec (.msixUnmask fn vec) s = .next (finish s (State.flushMsix
       { s with msix := s.msix.set {} (msixKey fn vec) { s.msix.get {} (msixKey fn vec) with masked := false } } fn vec))) ∧
  (∀ (s : State) (fn : Nat) (vec : Nat),
     s.power.porst = false → fn < 64 → vec < 33 → s.barOn fn = true → (s.msix.get {} (msixKey fn vec)).pending = true →
     (s.fn fn).fnMask = false → (s.fn fn).msixEn = true →
     ∃ m, m = { s.msix.get {} (msixKey fn vec) with masked := false } ∧
     exec (.msixUnmask fn vec) s = .next (finish s (State.sendMsix
       { s with
         msix := (s.msix.set {} (msixKey fn vec) m).set {} (msixKey fn vec) { m with pending := false } } fn vec))) ∧
  (∀ (s : State) (n : Nat),
     s.power.porst = false → n < 256 → (s.cq n).exists_ = true → (s.cq n).vector ≠ 0 → (s.cq n).pendCnt ≠ 0 →
     (s.cq n).aggTime ≠ 0 → (s.cq n).pendSince + 1000 * (s.cq n).aggTime ≤ s.clk →
     exec (.aggTimeExpiry n) s = .next (finish s (
       (s.updCq n fun q => { q with pendCnt := 0 }).sendMsix (s.cq n).fn (s.cq n).vector)))

/-- ENTRY_FETCH, each with what the host's memory answers: the entry at the head of a function's admin queue whose fetch is due;
the CID of an entry before T_r of an SQ that a reset or deletion empties; the entry at the head of a G queue that may be fetched
from, of a B queue that may be and that W lets in, and of the W queue whose turn it is; and the slim host port's entry in its
turn. A host read that returns, or gets no completion in time, with the completion timeout reported, reaches the operation that
waits for it (R109, R129, R139, R150, R441, R447, R496, R498, R500). -/
def Obligations.Fetch_and_reads : Prop :=
  (∀ (s : State) (fn : Nat) (d : HostData),
     s.power.porst = false → fn < 64 → s.adminDue fn = true →
     exec (.entryFetch (.admin fn) d) s = .next (finish s ((s.hostFault fn d).takeAdmin fn (entryBytes d)))) ∧
  (∀ (s : State) (n : Nat) (d : HostData),
     s.power.porst = false → n < 256 → (s.sq n).ending = true → (s.sq n).head ≠ (s.sq n).tr →
     exec (.entryFetch (.sq n) d) s = .next (finish s ((s.hostFault (s.sq n).fn d).takeSq n (entryBytes d)))) ∧
  (∀ (s : State) (n : Nat) (d : HostData),
     s.power.porst = false → n < 256 → (s.sq n).ending = false → s.canFetchSq n = true →
     (s.sq n).cls = .g ∨ ((s.sq n).cls = .b ∧ s.bOpen n = true) →
     exec (.entryFetch (.sq n) d) s = .next (finish s ((s.hostFault (s.sq n).fn d).takeSq n (entryBytes d)))) ∧
  (∀ (s : State) (n : Nat) (d : HostData),
     s.power.porst = false → n < 256 → (s.sq n).ending = false → s.canFetchSq n = true → (s.sq n).cls = .w →
     s.fetchTurn.1 = some n →
     exec (.entryFetch (.sq n) d) s = .next (finish s (
       (s.fetchTurn.2.useTurn.hostFault (s.sq n).fn d).takeSq n (entryBytes d)))) ∧
  (∀ (s : State) (d : HostData),
     s.power.porst = false → s.fetchTurn.1 = some 256 →
     exec (.entryFetch .shp d) s = .next (finish s (s.fetchTurn.2.useTurn.takeShp))) ∧
  (∀ (s : State) (r : HostRead) (id : Nat) (d : HostData),
     s.power.porst = false → s.reads.find? (fun r => r.id == id) = some r →
     exec (.hostReadReturn id d) s = .next (finish s ((s.hostFault r.fn d).readDone id (hostBytes d r.len)))) ∧
  (∀ (s : State) (r : HostRead) (id : Nat),
     s.power.porst = false → s.reads.find? (fun r => r.id == id) = some r →
     exec (.completionTimeout id) s = .next (finish s ((s.aer r.fn 14).readDone id none)))

/-- The oldest waiting START of an SQ of class W or B that may start, with room for W and B work on its processor and a
subchannel of the SQ that is IDLE, starts on the first such subchannel; the oldest waiting TRG of such an SQ, whose saggar may
observe the port its trigger names, arms the first such subchannel. The oldest RESUME and HALT act on a subchannel that the SQ
reserves: RESUME resumes it and completes with OK, and HALT halts it, completing at once where the subchannel is IDLE then; on
any other subchannel both complete with PROTECTION_CHECK (R81, R91, R92, R95, R98, R499). -/
def Obligations.Channel_entries : Prop :=
  (∀ (s : State) (n : Nat) (e : Entry),
     s.power.porst = false → n < 256 → s.oldest (.sq n) .start = some e →
     exec (.start (.sq n)) s = .next (finish s (s.tryStart (.sq n) e.eid))) ∧
  (∀ (s : State) (n : Nat) (e : Entry) (k : Nat),
     s.power.porst = false → n < 256 → s.oldest (.sq n) .start = some e → s.entry? (.sq n) e.eid = some e →
     e.kind = .start → e.phase = .waiting → s.qCls (.sq n) ≠ .g → s.mayStart (.sq n) = true →
     s.wbOpen (s.qCp (.sq n)) = true → s.idleSch (.sq n) = some k →
     exec (.start (.sq n)) s = .next (finish s (s.startOn (.sq n) e k))) ∧
  (∀ (s : State) (n : Nat) (e : Entry),
     s.power.porst = false → n < 256 → s.oldest (.sq n) .trg = some e → s.qCls (.sq n) ≠ .g →
     s.mayStart (.sq n) = true →
     exec (.trg (.sq n)) s = .next (finish s (s.takeTrg (.sq n) e))) ∧
  (∀ (s : State) (n : Nat) (e : Entry) (k : Nat),
     s.power.porst = false → n < 256 → s.oldest (.sq n) .trg = some e → s.qCls (.sq n) ≠ .g →
     s.mayStart (.sq n) = true → ((trgPort e.trigger).all fun p => s.mayObserve (s.qSag (.sq n)) p) = true →
     s.idleSch (.sq n) = some k →
     exec (.trg (.sq n)) s = .next (finish s (s.armOn (.sq n) e k))) ∧
  (∀ (s : State) (n : Nat) (e : Entry),
     s.power.porst = false → n < 256 → s.oldest (.sq n) .resume = some e → (s.sch e.sch).owner = some (.sq n) →
     exec (.resume (.sq n)) s = .next (finish s ((s.resumeSch e.sch).endEntry (.sq n) e.eid .ok))) ∧
  (∀ (s : State) (n : Nat) (e : Entry),
     s.power.porst = false → n < 256 → s.oldest (.sq n) .halt = some e → (s.sch e.sch).owner = some (.sq n) →
     ∃ t, t = (s.updEntry (.sq n) e.eid fun x => { x with phase := .begun }).haltSch e.sch .halt ∧
     exec (.halt (.sq n)) s = .next (finish s (if (t.sch e.sch).state = .idle then t.endHalts (.sq n) e.sch else t))) ∧
  (∀ (s : State) (n : Nat) (e : Entry),
     s.power.porst = false → n < 256 → s.oldest (.sq n) .resume = some e → (s.sch e.sch).owner ≠ some (.sq n) →
     exec (.resume (.sq n)) s = .next (finish s (s.endEntry (.sq n) e.eid .protectionCheck))) ∧
  (∀ (s : State) (n : Nat) (e : Entry),
     s.power.porst = false → n < 256 → s.oldest (.sq n) .halt = some e → (s.sch e.sch).owner ≠ some (.sq n) →
     exec (.halt (.sq n)) s = .next (finish s (s.endEntry (.sq n) e.eid .protectionCheck)))

/-- The running entry of a function's admin queue: CREATE_CQ of a granted, absent CQ makes it with the entry's fields; DELETE_CQ
and RESET_CQ of the function's own CQ that no SQ names remove it, or set its head, tail and stall count to 0 and its phase to 1;
CREATE_EVQ of an absent event queue makes it with the entry's fields and reports a loss that waited, DELETE_EVQ removes one, and
RESET_EVQ sets its head, tail and count of lost events to 0 and its phase to 1; each of these completes with OK. Without the
grant CREATE_CQ completes with REFUSED_RIGHTS (R143, R144, R145). -/
def Obligations.Admin_completion_queues : Prop :=
  (∀ (s : State) (fn : Nat),
     s.power.porst = false → s.runsAdmin fn 0x80 = true → bit (s.sag fn).cqGrant ((s.fn fn).arg 4 2) = true →
     (s.cq ((s.fn fn).arg 4 2)).exists_ = false →
     exec (.createCq fn) s = .next (finish s ((s.setCq ((s.fn fn).arg 4 2)
       { exists_ := true, fn, base := BitVec.ofNat 64 ((s.fn fn).arg 8 8), n := (s.fn fn).arg 16 2,
          vector := (s.fn fn).arg 18 1, aggCnt := (s.fn fn).arg 19 1, aggTime := (s.fn fn).arg 20 2 }).admDone fn .ok 0))) ∧
  (∀ (s : State) (fn : Nat),
     s.power.porst = false → s.runsAdmin fn 0x80 = true → bit (s.sag fn).cqGrant ((s.fn fn).arg 4 2) = false →
     exec (.createCq fn) s = .next (finish s (s.admDone fn .refusedRights 0))) ∧
  (∀ (s : State) (fn : Nat),
     s.power.porst = false → s.runsAdmin fn 0x81 = true → s.cqFree fn ((s.fn fn).arg 4 2) = true →
     exec (.deleteCq fn) s = .next (finish s ((s.setCq ((s.fn fn).arg 4 2) {}).admDone fn .ok 0))) ∧
  (∀ (s : State) (fn : Nat),
     s.power.porst = false → s.runsAdmin fn 0x82 = true → s.cqFree fn ((s.fn fn).arg 4 2) = true →
     exec (.resetCq fn) s = .next (finish s (
       (s.updCq ((s.fn fn).arg 4 2) fun q =>
         { q with head := 0, tail := 0, phase := true, stallFr := 0, heldInFrame := false }).admDone fn .ok 0))) ∧
  (∀ (s : State) (fn : Nat),
     s.power.porst = false → s.runsAdmin fn 0x86 = true → (s.fn fn).evqOn = false →
     exec (.createEvq fn) s = .next (finish s (((s.updFn fn fun f =>
       { f with evqOn := true, evqBase := BitVec.ofNat 64 (f.arg 8 8), evqN := f.arg 16 2, evqHead := 0, evqTail := 0, evqPhase := true }).evqOverflow
         fn).admDone fn .ok 0))) ∧
  (∀ (s : State) (fn : Nat),
     s.power.porst = false → s.runsAdmin fn 0x87 = true → (s.fn fn).evqOn = true →
     exec (.deleteEvq fn) s = .next (finish s ((s.updFn fn fun f =>
       { f with evqOn := false, evqBase := 0, evqN := 0, evqHead := 0, evqTail := 0, evqPhase := true }).admDone fn .ok 0))) ∧
  (∀ (s : State) (fn : Nat),
     s.power.porst = false → s.runsAdmin fn 0x88 = true → (s.fn fn).evqOn = true →
     exec (.resetEvq fn) s = .next (finish s ((s.updFn fn fun f =>
       { f with evqHead := 0, evqTail := 0, evqPhase := true, evqLost := 0 }).admDone fn .ok 0)))

/-- CREATE_SQ of a granted, FREE context whose ring is not being zeroed, on the function's own CQ, for a class that the saggar
holds: a journal queue of class W is made at once; a channel queue of class W, within the saggar's subchannel limit, takes the
first placement of its subchannels; a G channel queue without a report, within that limit, with a placement and no change of
KILN_PER waiting, goes to the admission tests with that placement, and so again 4 frames after its queries to other nodes
(ADMISSION_QUERY_TIMEOUT). DELETE_SQ and RESET_SQ of the function's own SQ that is neither FREE nor STOPPED nor already being
emptied take its tail as T_r, end what waits with ABORTED, halt its subchannels and complete what may be completed. ABORT of a
CID that one uncompleted entry of the SQ carries: where it is caught and no journal work holds it, answers ABORT_CAUGHT and ends
the entry with ABORTED; where it is not, answers ABORT_MISSED (R146, R147, R150, R151, R153, R360). -/
def Obligations.Admin_submission_queues : Prop :=
  (∀ (s : State) (fn : Nat),
     s.power.porst = false → s.runsAdmin fn 0x83 = true → (s.sq ((s.fn fn).arg 4 2)).state = .free →
     (s.sq ((s.fn fn).arg 4 2)).zeroing = false → bit (s.sag fn).sqGrant ((s.fn fn).arg 4 2) = true →
     (s.cq ((s.fn fn).arg 6 2)).exists_ = true → (s.cq ((s.fn fn).arg 6 2)).fn = fn →
     (Cls.ofNum ((s.fn fn).arg 19 1)) = .w → (s.sag fn).clsW = true → ((s.fn fn).arg 18 1) = 1 →
     exec (.createSq fn) s = .next (finish s (
       (s.setSq ((s.fn fn).arg 4 2) ((s.fn fn).newSq fn 0 [] [])).admDone fn .ok (createInfo 0 0xFF 0)))) ∧
  (∀ (s : State) (fn : Nat) (cp : Nat) (l : List Nat),
     s.power.porst = false → s.runsAdmin fn 0x83 = true → (s.sq ((s.fn fn).arg 4 2)).state = .free →
     (s.sq ((s.fn fn).arg 4 2)).zeroing = false → bit (s.sag fn).sqGrant ((s.fn fn).arg 4 2) = true →
     (s.cq ((s.fn fn).arg 6 2)).exists_ = true → (s.cq ((s.fn fn).arg 6 2)).fn = fn →
     (Cls.ofNum ((s.fn fn).arg 19 1)) = .w → (s.sag fn).clsW = true → ((s.fn fn).arg 18 1) ≠ 1 →
     s.schsHeld fn + ((s.fn fn).arg 21 1) ≤ (s.sag fn).subLim →
     s.placeQueue .w ((s.fn fn).arg 32 1) ((s.fn fn).arg 21 1) = some (cp, l) →
     exec (.createSq fn) s = .next (finish s (((s.reserve (.sq ((s.fn fn).arg 4 2)) l).setSq ((s.fn fn).arg 4 2)
       ((s.fn fn).newSq fn cp l [])).admDone fn .ok (createInfo 0 cp (ctxMask l))))) ∧
  (∀ (s : State) (fn : Nat) (cp : Nat) (l : List Nat),
     s.power.porst = false → s.runsAdmin fn 0x83 = true → (s.sq ((s.fn fn).arg 4 2)).state = .free →
     (s.sq ((s.fn fn).arg 4 2)).zeroing = false → bit (s.sag fn).sqGrant ((s.fn fn).arg 4 2) = true →
     (s.cq ((s.fn fn).arg 6 2)).exists_ = true → (s.cq ((s.fn fn).arg 6 2)).fn = fn →
     (Cls.ofNum ((s.fn fn).arg 19 1)) = .g → (s.sag fn).clsG = true → ((s.fn fn).arg 18 1) ≠ 1 →
     ((s.fn fn).arg 24 8) = 0 → s.kiln.perPend = [] → s.schsHeld fn + ((s.fn fn).arg 21 1) ≤ (s.sag fn).subLim →
     s.placeQueue .g ((s.fn fn).arg 32 1) ((s.fn fn).arg 21 1) = some (cp, l) →
     exec (.createSq fn) s = .next (finish s (s.createG fn ((s.fn fn).arg 4 2) cp l))) ∧
  (∀ (s : State) (fn : Nat) (cp : Nat) (l : List Nat),
     s.power.porst = false → s.runsAdmin fn 0x83 = true → s.queryLate (s.fn fn) = true →
     (s.sq ((s.fn fn).arg 4 2)).state = .free →
     (s.sq ((s.fn fn).arg 4 2)).zeroing = false → bit (s.sag fn).sqGrant ((s.fn fn).arg 4 2) = true →
     (s.cq ((s.fn fn).arg 6 2)).exists_ = true → (s.cq ((s.fn fn).arg 6 2)).fn = fn →
     (Cls.ofNum ((s.fn fn).arg 19 1)) = .g → (s.sag fn).clsG = true → ((s.fn fn).arg 18 1) ≠ 1 →
     ((s.fn fn).arg 24 8) = 0 → s.kiln.perPend = [] → s.schsHeld fn + ((s.fn fn).arg 21 1) ≤ (s.sag fn).subLim →
     s.placeQueue .g ((s.fn fn).arg 32 1) ((s.fn fn).arg 21 1) = some (cp, l) →
     exec (.admissionQueryTimeout fn) s = .next (finish s (s.createG fn ((s.fn fn).arg 4 2) cp l))) ∧
  (∀ (s : State) (fn : Nat),
     s.power.porst = false → s.runsAdmin fn 0x84 = true → ((s.fn fn).arg 4 2) < 256 →
     (s.sq ((s.fn fn).arg 4 2)).state ≠ .free → (s.sq ((s.fn fn).arg 4 2)).state ≠ .stopped →
     (s.sq ((s.fn fn).arg 4 2)).fn = fn → (s.sq ((s.fn fn).arg 4 2)).ending = false →
     ∃ t, t = ((s.updSq ((s.fn fn).arg 4 2) fun q => { q with state := .deleting, tr := q.tail, aborted := 0, loose := false }).dropWaiting ((s.fn fn).arg 4 2)).flushDone ∧
     exec (.deleteSq fn) s = .next (finish s (((t.schsOf (.sq ((s.fn fn).arg 4 2))).foldl (fun t k => t.haltSch k .reset) t).sqFlush ((s.fn fn).arg 4 2)))) ∧
  (∀ (s : State) (fn : Nat),
     s.power.porst = false → s.runsAdmin fn 0x85 = true → ((s.fn fn).arg 4 2) < 256 →
     (s.sq ((s.fn fn).arg 4 2)).state ≠ .free → (s.sq ((s.fn fn).arg 4 2)).state ≠ .stopped →
     (s.sq ((s.fn fn).arg 4 2)).fn = fn → (s.sq ((s.fn fn).arg 4 2)).ending = false →
     ∃ t, t = ((s.updSq ((s.fn fn).arg 4 2) fun q => { q with state := .resetting, tr := q.tail, aborted := 0, loose := false }).dropWaiting ((s.fn fn).arg 4 2)).flushDone ∧
     exec (.resetSq fn) s = .next (finish s (((t.schsOf (.sq ((s.fn fn).arg 4 2))).foldl (fun t k => t.haltSch k .reset) t).sqFlush ((s.fn fn).arg 4 2)))) ∧
  (∀ (s : State) (fn : Nat) (e : Entry),
     s.power.porst = false → s.runsAdmin fn 0x89 = true → ((s.fn fn).arg 4 2) < 256 →
     (s.sq ((s.fn fn).arg 4 2)).state ≠ .free → (s.sq ((s.fn fn).arg 4 2)).fn = fn →
     (s.uncompleted ((s.fn fn).arg 4 2)).filter (fun e => e.cid == (s.fn fn).arg 6 2) = [e] →
     s.abortCatches ((s.fn fn).arg 4 2) e = true → s.jobOf (.sq ((s.fn fn).arg 4 2)) e.eid = none →
     exec (.abort fn) s = .next (finish s (
       (((s.admDone fn .abortCaught 0).endEntry (.sq ((s.fn fn).arg 4 2)) e.eid .aborted).jrnWork).work))) ∧
  (∀ (s : State) (fn : Nat) (e : Entry),
     s.power.porst = false → s.runsAdmin fn 0x89 = true → ((s.fn fn).arg 4 2) < 256 →
     (s.sq ((s.fn fn).arg 4 2)).state ≠ .free → (s.sq ((s.fn fn).arg 4 2)).fn = fn →
     (s.uncompleted ((s.fn fn).arg 4 2)).filter (fun e => e.cid == (s.fn fn).arg 6 2) = [e] →
     s.abortCatches ((s.fn fn).arg 4 2) e = false →
     exec (.abort fn) s = .next (finish s (s.admDone fn .abortMissed 0)))

/-- ALLOC_PAGES for which pages can be chosen takes them: with all of them zeroed it completes with OK, and else it waits for
their zeroing; where none can be chosen it completes with REFUSED_RESOURCE. FREE_PAGES of mapped pages without a program lock
unmaps each and completes with OK. CREATE_NS of an absent identifier other than 0 that is not being zeroed, within the saggar's
limits and the free folios, makes the namespace with the entry's type and size, and completes with OK; CREATE_NS of identifier 0
completes with REFUSED_RIGHTS. DELETE_NS of the function's own namespace that nothing names, SEALED only with DEL_OK, begins its
zeroing and completes with OK (R154, R155, R289). -/
def Obligations.Admin_pages_and_namespaces : Prop :=
  (∀ (s : State) (fn : Nat) (l : List Nat),
     s.power.porst = false → s.runsAdmin fn 0x8A = true → (s.fn fn).pagesWait = none →
     s.allocPages fn ((s.fn fn).arg 4 4) ((s.fn fn).arg 8 4) = some l → s.pagesFree l = true →
     exec (.allocPages fn) s = .next (finish s (
       (s.updFn fn fun f => { f with pagesWait := some l }).admDone fn .ok 0))) ∧
  (∀ (s : State) (fn : Nat) (l : List Nat),
     s.power.porst = false → s.runsAdmin fn 0x8A = true → (s.fn fn).pagesWait = none →
     s.allocPages fn ((s.fn fn).arg 4 4) ((s.fn fn).arg 8 4) = some l → s.pagesFree l = false →
     exec (.allocPages fn) s = .next (finish s (s.updFn fn fun f => { f with pagesWait := some l }))) ∧
  (∀ (s : State) (fn : Nat),
     s.power.porst = false → s.runsAdmin fn 0x8A = true → (s.fn fn).pagesWait = none →
     s.allocPages fn ((s.fn fn).arg 4 4) ((s.fn fn).arg 8 4) = none →
     exec (.allocPages fn) s = .next (finish s (s.admDone fn .refusedResource 0))) ∧
  (∀ (s : State) (fn : Nat),
     s.power.porst = false → s.runsAdmin fn 0x8B = true → ((s.fn fn).arg 4 4) + ((s.fn fn).arg 8 4) ≤ 4096 →
     (List.range ((s.fn fn).arg 8 4)).all (fun i => (s.viewPage fn (((s.fn fn).arg 4 4) + i)).isSome && !s.ls.locks.any fun l => l.sag == fn && l.view == ((s.fn fn).arg 4 4) + i) = true →
     exec (.freePages fn) s = .next (finish s (
       ((List.range ((s.fn fn).arg 8 4)).foldl (fun s i => s.unmapPage fn (((s.fn fn).arg 4 4) + i)) s).admDone fn .ok 0))) ∧
  (∀ (s : State) (fn : Nat),
     s.power.porst = false → s.runsAdmin fn 0x8C = true → ((s.fn fn).arg 4 4) ≠ 0 →
     (s.ns ((s.fn fn).arg 4 4)).exist = false → (s.ns ((s.fn fn).arg 4 4)).zeroing = false →
     s.nsFits fn ((s.fn fn).arg 16 4) = true → ((s.fn fn).arg 16 4) ≤ s.jrnFree →
     exec (.createNs fn) s = .next (finish s ((s.setNs ((s.fn fn).arg 4 4)
       { owner := fn, exist := true, type := .ofNum ((s.fn fn).arg 8 1), nfol := ((s.fn fn).arg 16 4), createStime := s.stime }).admDone fn .ok 0))) ∧
  (∀ (s : State) (fn : Nat),
     s.power.porst = false → s.runsAdmin fn 0x8C = true → ((s.fn fn).arg 4 4) = 0 →
     exec (.createNs fn) s = .next (finish s (s.admDone fn .refusedRights 0))) ∧
  (∀ (s : State) (fn : Nat),
     s.power.porst = false → s.runsAdmin fn 0x8D = true → ((s.fn fn).arg 4 4) ≤ 1023 → ((s.fn fn).arg 4 4) ≠ 0 →
     (s.ns ((s.fn fn).arg 4 4)).exist = true → (s.ns ((s.fn fn).arg 4 4)).zeroing = false →
     (s.ns ((s.fn fn).arg 4 4)).owner = fn →
     (s.ns ((s.fn fn).arg 4 4)).type ≠ .sealed ∨ (s.ns ((s.fn fn).arg 4 4)).delOk = true →
     s.nsAdmitted ((s.fn fn).arg 4 4) = false → s.nsNamed ((s.fn fn).arg 4 4) = false →
     exec (.deleteNs fn) s = .next (finish s ((s.startZero ((s.fn fn).arg 4 4) true fn).admDone fn .ok 0)))

/-- GET_FEATURE of features 1 to 7 of an object of the function's own answers the value; SET_FEATURE of the arbitration of its
own SQ, with a weight that fits the class, has effect from the next fetch round, and of the coalescing of its own CQ at once,
each completing with OK, and of any other of features 1 to 7 completes with REFUSED_RIGHTS; IDENTIFY writes its block, and
GET_QUEUE the block of an SQ or CQ that is absent or the function's own, to a valid buffer and completes with OK, a CQ's stall
count being cleared by it (R156, R157). -/
def Obligations.Admin_features_and_queries : Prop :=
  (∀ (s : State) (fn : Nat),
     s.power.porst = false → s.runsAdmin fn 0x8E = true → 1 ≤ ((s.fn fn).arg 4 4) → ((s.fn fn).arg 4 4) ≤ 7 →
     s.featObj fn ((s.fn fn).arg 4 4) ((s.fn fn).arg 8 4) = true →
     exec (.getFeature fn) s = .next (finish s (
       s.admDone fn .ok (s.featValue fn ((s.fn fn).arg 4 4) ((s.fn fn).arg 8 4))))) ∧
  (∀ (s : State) (fn : Nat),
     s.power.porst = false → s.runsAdmin fn 0x8F = true → ((s.fn fn).arg 4 4) = 5 →
     s.featObj fn 5 ((s.fn fn).arg 8 4) = true →
     (((s.fn fn).arg 12 4) % 256 == 0) ≠ ((s.sq ((s.fn fn).arg 8 4)).cls == .w) →
     exec (.setFeature fn) s = .next (finish s ((s.updSq ((s.fn fn).arg 8 4) fun q =>
       { q with arbNext := some ((s.fn fn).arg 12 4 % 256, (s.fn fn).arg 12 4 / 256 % 128) }).admDone fn .ok 0))) ∧
  (∀ (s : State) (fn : Nat),
     s.power.porst = false → s.runsAdmin fn 0x8F = true → ((s.fn fn).arg 4 4) = 6 →
     s.featObj fn 6 ((s.fn fn).arg 8 4) = true →
     exec (.setFeature fn) s = .next (finish s ((s.updCq ((s.fn fn).arg 8 4) fun q =>
       { q with aggCnt := (s.fn fn).arg 12 4 % 256, aggTime := (s.fn fn).arg 12 4 / 256 % 65536 }).admDone fn .ok 0))) ∧
  (∀ (s : State) (fn : Nat),
     s.power.porst = false → s.runsAdmin fn 0x8F = true → 1 ≤ ((s.fn fn).arg 4 4) → ((s.fn fn).arg 4 4) ≤ 7 →
     ((s.fn fn).arg 4 4) ≠ 5 → ((s.fn fn).arg 4 4) ≠ 6 →
     exec (.setFeature fn) s = .next (finish s (s.admDone fn .refusedRights 0))) ∧
  (∀ (s : State) (fn : Nat),
     s.power.porst = false → s.runsAdmin fn 0x90 = true →
     s.admBuf fn (BitVec.ofNat 64 ((s.fn fn).arg 24 8)) 256 = none →
     exec (.identify fn) s = .next (finish s (
       (s.memWrite fn (BitVec.ofNat 64 ((s.fn fn).arg 24 8)) (s.identifyBlock fn)).admDone fn .ok 0))) ∧
  (∀ (s : State) (fn : Nat),
     s.power.porst = false → s.runsAdmin fn 0x91 = true →
     s.admBuf fn (BitVec.ofNat 64 ((s.fn fn).arg 24 8)) 32 = none → ((s.fn fn).arg 6 2) < 256 →
     ((s.fn fn).arg 4 1) = 0 → (s.sq ((s.fn fn).arg 6 2)).state = .free ∨ (s.sq ((s.fn fn).arg 6 2)).fn = fn →
     exec (.getQueue fn) s = .next (finish s (
       (s.memWrite fn (BitVec.ofNat 64 ((s.fn fn).arg 24 8))
         ((s.sq ((s.fn fn).arg 6 2)).block (s.uncompleted ((s.fn fn).arg 6 2)).length)).admDone fn .ok 0))) ∧
  (∀ (s : State) (fn : Nat),
     s.power.porst = false → s.runsAdmin fn 0x91 = true →
     s.admBuf fn (BitVec.ofNat 64 ((s.fn fn).arg 24 8)) 32 = none → ((s.fn fn).arg 6 2) < 256 →
     ((s.fn fn).arg 4 1) ≠ 0 → (s.cq ((s.fn fn).arg 6 2)).exists_ = false ∨ (s.cq ((s.fn fn).arg 6 2)).fn = fn →
     exec (.getQueue fn) s = .next (finish s (((s.memWrite fn (BitVec.ofNat 64 ((s.fn fn).arg 24 8)) (s.cq ((s.fn fn).arg 6 2)).block).setCq ((s.fn fn).arg 6 2)
       { s.cq ((s.fn fn).arg 6 2) with stallFr := 0 }).admDone fn .ok 0)))

/-- A subchannel that is its processor's choice reaches a CCW that passes R54: NOP completes with OK; JUMP to an address that
may hold a CCW completes and continues there; TEST of a condition that the saggar may read completes with OK where it holds and
skips the next CCW where it does not; LOOP in the space it jumps in, with a counter of 2 or more, decrements it, completes and
continues at ADDR; SETC loads the counter and completes with OK; COLOPHON of a program that is not HALTING ends it with its
retained status, or parks it when open (R54, R64, R65, R66, R103). -/
def Obligations.Flow_words : Prop :=
  (∀ (s : State) (n : Nat) (c : Ccw),
     s.power.porst = false → s.reaches n 0x0F c = true →
     exec (.ccwNop n) s = .next (finish s ((s.begun n c).ccwOk n c))) ∧
  (∀ (s : State) (n : Nat) (c : Ccw),
     s.power.porst = false → s.reaches n 0x10 c = true →
     (s.begun n c).ccwAddr ((s.begun n c).schSag n) c.addr = none →
     exec (.ccwJump n) s = .next (finish s ((s.begun n c).ccwDone n c .ok (.at c.addr)))) ∧
  (∀ (s : State) (n : Nat) (c : Ccw),
     s.power.porst = false → s.reaches n 0x11 c = true → condValid c.condCode = true →
     (s.begun n c).condRight n c = none →
     exec (.ccwTest n) s = .next (finish s (
       if (s.begun n c).ccwCond n c then (s.begun n c).ccwOk n c else (s.begun n c).ccwSkip n c))) ∧
  (∀ (s : State) (n : Nat) (c : Ccw) (a : DWord),
     s.power.porst = false → s.reaches n 0x15 c = true → ((s.begun n c).sch n).curPc = .at a → isLs a = isLs c.addr →
     (isLs c.addr && lsResv c.addr) = false → (s.begun n c).ccwAddr ((s.begun n c).schSag n) c.addr = none →
     2 ≤ (((s.begun n c).sch n).lc (fld c.count 0 2)).toNat →
     exec (.ccwLoop n) s = .next (finish s ((((s.begun n c).updSch n fun x =>
       x.setLc (fld c.count 0 2) (x.lc (fld c.count 0 2) - 1))).ccwDone n c .ok (.at c.addr)))) ∧
  (∀ (s : State) (n : Nat) (c : Ccw) (a : DWord),
     s.power.porst = false → s.reaches n 0x15 c = true → ((s.begun n c).sch n).curPc = .at a → isLs a = isLs c.addr →
     (isLs c.addr && lsResv c.addr) = false → (s.begun n c).ccwAddr ((s.begun n c).schSag n) c.addr = none →
     (((s.begun n c).sch n).lc (fld c.count 0 2)).toNat ≤ 1 →
     exec (.ccwLoop n) s = .next (finish s ((s.begun n c).ccwOk n c))) ∧
  (∀ (s : State) (n : Nat) (c : Ccw),
     s.power.porst = false → s.reaches n 0x16 c = true →
     exec (.ccwSetc n) s = .next (finish s (
       ((s.begun n c).updSch n fun x => x.setLc (fld c.addr 0 2) c.count).ccwOk n c))) ∧
  (∀ (s : State) (n : Nat) (c : Ccw),
     s.power.porst = false → s.reaches n 0x7F c = true → c.pause = false → ((s.begun n c).sch n).state ≠ .halting →
     exec (.ccwColophon n) s = .next (finish s ((s.begun n c).progEnd n ((s.begun n c).sch n).retained))) ∧
  (∀ (s : State) (n : Nat) (c : Ccw) (a : DWord),
     s.power.porst = false → s.reaches n 0x7F c = true → c.pause = true → ((s.begun n c).sch n).curPc = .at a →
     ((s.begun n c).sch n).state ≠ .halting →
     exec (.ccwColophon n) s = .next (finish s ((s.begun n c).park n)))

/-- A CCW that passes R54: WAITT with COUNT above 0 waits until COUNT µs after its dispatch; WAITC of a readable condition that
does not hold, with a timeout, waits for it until the timeout; WAITF with COUNT above 0 waits for COUNT ticks, or with ADDR[0]
for the tick that opens a frame still in the future. At or after its instant WAITT_EXPIRY, before the timeout and with the
condition true WAITC_TRUE, and with the ticks counted, or the frame open or past, WAITF_DONE complete the CCW with OK;
WAITC_TIMEOUT at or after its instant completes it and skips the next one (R67, R68, R69). -/
def Obligations.Wait_words : Prop :=
  (∀ (s : State) (n : Nat) (c : Ccw),
     s.power.porst = false → s.reaches n 0x12 c = true → c.count ≠ 0 →
     exec (.ccwWaitt n) s = .next (finish s (
       (s.begun n c).await n (.time ((s.begun n c).clk + 1000 * c.count.toNat))))) ∧
  (∀ (s : State) (n : Nat) (c : Ccw),
     s.power.porst = false → s.reaches n 0x13 c = true → condValid c.condCode = true →
     (s.begun n c).condRight n c = none → (s.begun n c).ccwCond n c = false → fld c.addr 0 32 ≠ 0 →
     exec (.ccwWaitc n) s = .next (finish s ((s.begun n c).await n
       (.cond (BitVec.ofNat 16 c.condCode) (bit c.count 16) (some ((s.begun n c).clk + 1000 * fld c.addr 0 32)))))) ∧
  (∀ (s : State) (n : Nat) (c : Ccw),
     s.power.porst = false → s.reaches n 0x14 c = true → bit c.addr 0 = false → c.count ≠ 0 →
     exec (.ccwWaitf n) s = .next (finish s ((s.begun n c).await n (.ticks c.count.toNat)))) ∧
  (∀ (s : State) (n : Nat) (c : Ccw),
     s.power.porst = false → s.reaches n 0x14 c = true → bit c.addr 0 = true → c.count ≠ (s.begun n c).kiln.frame →
     inPast c.count (s.begun n c).kiln.frame = false →
     exec (.ccwWaitf n) s = .next (finish s ((s.begun n c).await n (.frame c.count)))) ∧
  (∀ (s : State) (n : Nat) (d : Nat),
     s.power.porst = false → n < 256 → (s.sch n).wait = .time d → d ≤ s.clk →
     exec (.waittExpiry n) s = .next (finish s (s.ccwOk n (s.curCcw n)))) ∧
  (∀ (s : State) (n : Nat) (k : BitVec 16) (i : Bool) (d : Option Nat),
     s.power.porst = false → n < 256 → (s.sch n).wait = .cond k i d → s.cond n k.toNat ≠ i →
     timedOut d s.clk = false →
     exec (.waitcTrue n) s = .next (finish s (s.ccwOk n (s.curCcw n)))) ∧
  (∀ (s : State) (n : Nat) (k : BitVec 16) (i : Bool) (d : Nat),
     s.power.porst = false → n < 256 → (s.sch n).wait = .cond k i (some d) → d ≤ s.clk →
     exec (.waitcTimeout n) s = .next (finish s (s.ccwSkip n (s.curCcw n)))) ∧
  (∀ (s : State) (n : Nat),
     s.power.porst = false → n < 256 → (s.sch n).wait = .ticks 0 →
     exec (.waitfDone n) s = .next (finish s (s.ccwOk n (s.curCcw n)))) ∧
  (∀ (s : State) (n : Nat) (f : Word),
     s.power.porst = false → n < 256 → (s.sch n).wait = .frame f → f = s.kiln.frame ∨ inPast f s.kiln.frame = true →
     exec (.waitfDone n) s = .next (finish s (s.ccwOk n (s.curCcw n))))

/-- A CCW that passes R54: FENCE with COUNT 0 waits for the transmit queue of a port of this node that the saggar may observe,
and with COUNT above 0 waits on a mapped address in local store or reads 8 bytes at an aligned address in host memory; POST
writes the status word with its user code to STATA or to its address and completes with OK; SIGNAL raises its event to its
saggar, fires the trigger of a subchannel of its saggar or nudges it, and completes with OK; CLAIM of a shared port by its
holder completes with OK, and by another that has a slot waits with its request raised; RELEASE by the holder ends the grant and
completes with OK; FENCE_DONE completes a FENCE on local store, and a FENCE on a port whose transmit queue holds nothing more of
the subchannel, with the status that the standing conditions give (R71, R72, R73, R74, R246, R250). -/
def Obligations.Service_words : Prop :=
  (∀ (s : State) (n : Nat) (c : Ccw),
     s.power.porst = false → s.reaches n 0x09 c = true → c.count = 0 → fld c.tgt 9 7 = (s.begun n c).lnk.node →
     1 ≤ portKind (fencePort c) → portKind (fencePort c) ≤ 3 →
     (portKind (fencePort c) == 1 && ((s.begun n c).portMode (fencePort c) == 0 || (s.begun n c).portMode (fencePort c) == 5)) = false →
     (s.begun n c).mayObserve ((s.begun n c).schSag n) (fencePort c) = true →
     exec (.ccwFence n) s = .next (finish s ((s.begun n c).await n (.fencePort (fencePort c))))) ∧
  (∀ (s : State) (n : Nat) (c : Ccw),
     s.power.porst = false → s.reaches n 0x09 c = true → c.count ≠ 0 → isLs c.addr = true → lsResv c.addr = false →
     (s.begun n c).checkRange ((s.begun n c).schSag n) c.addr 1 = none →
     exec (.ccwFence n) s = .next (finish s ((s.begun n c).await n .fenceLs))) ∧
  (∀ (s : State) (n : Nat) (c : Ccw),
     s.power.porst = false → s.reaches n 0x09 c = true → c.count ≠ 0 → isLs c.addr = false → fld c.addr 0 3 = 0 →
     (s.begun n c).checkRange ((s.begun n c).schSag n) c.addr 8 = none →
     ((s.begun n c).fn ((s.begun n c).schSag n)).busMaster = true →
     exec (.ccwFence n) s = .next (finish s
       (((s.begun n c).await n .fenceHost).hostRead ((s.begun n c).schSag n) c.addr 8 (.fence n)))) ∧
  (∀ (s : State) (n : Nat) (c : Ccw) (a : DWord),
     s.power.porst = false → s.reaches n 0x18 c = true → (isLs c.addr && lsResv c.addr) = false →
     a = (if c.addr = 0 then ((s.begun n c).sch n).stata else c.addr) → a ≠ 0 → fld a 0 4 = 0 →
     (s.begun n c).checkWrite ((s.begun n c).schSag n) a 16 = none →
     exec (.ccwPost n) s = .next (finish s (((s.begun n c).memWrite ((s.begun n c).schSag n) a ((s.begun n c).statusWord n ((s.begun n c).sch n).retained
       ((s.begun n c).sch n).state.num false (some (fld c.count 0 16)))).ccwOk n c))) ∧
  (∀ (s : State) (n : Nat) (c : Ccw),
     s.power.porst = false → s.reaches n 0x19 c = true → fld c.count 30 2 = 0 →
     exec (.ccwSignal n) s = .next (finish s (
       ((s.begun n c).raiseF ((s.begun n c).schSag n) 1 n (fld c.count 0 16)).ccwOk n c))) ∧
  (∀ (s : State) (n : Nat) (c : Ccw) (q : QRef),
     s.power.porst = false → s.reaches n 0x19 c = true → fld c.count 30 2 = 1 →
     ((s.begun n c).sch (fld c.count 0 8)).owner = some q → (s.begun n c).qSag q = (s.begun n c).schSag n →
     exec (.ccwSignal n) s = .next (finish s (((s.begun n c).fire (fld c.count 0 8)).ccwOk n c))) ∧
  (∀ (s : State) (n : Nat) (c : Ccw) (q : QRef),
     s.power.porst = false → s.reaches n 0x19 c = true → fld c.count 30 2 = 2 →
     ((s.begun n c).sch (fld c.count 0 8)).owner = some q → (s.begun n c).qSag q = (s.begun n c).schSag n →
     exec (.ccwSignal n) s = .next (finish s (((s.begun n c).nudgeSch (fld c.count 0 8)).ccwOk n c))) ∧
  (∀ (s : State) (n : Nat) (c : Ccw),
     s.power.porst = false → s.reaches n 0x1C c = true → (s.begun n c).sharedTgt c = true →
     ((s.begun n c).slotOn (fld c.tgt 0 9) n).isSome = true → (s.begun n c).holds (fld c.tgt 0 9) n = true →
     exec (.ccwClaim n) s = .next (finish s ((s.begun n c).ccwOk n c))) ∧
  (∀ (s : State) (n : Nat) (c : Ccw) (g : Nat) (k : Nat),
     s.power.porst = false → s.reaches n 0x1C c = true → (s.begun n c).sharedTgt c = true →
     (s.begun n c).slotOn (fld c.tgt 0 9) n = some (g, k) → (s.begun n c).holds (fld c.tgt 0 9) n = false →
     exec (.ccwClaim n) s = .next (finish s (
       (((s.begun n c).await n (.claim (fld c.tgt 0 9))).raiseReq g k).work))) ∧
  (∀ (s : State) (n : Nat) (c : Ccw) (g : Nat) (k : Nat),
     s.power.porst = false → s.reaches n 0x1D c = true → (s.begun n c).sharedTgt c = true →
     (s.begun n c).slotOn (fld c.tgt 0 9) n = some (g, k) → ((s.begun n c).claim g).holder = some k →
     exec (.ccwRelease n) s = .next (finish s
       ((((s.begun n c).setClaim g { (s.begun n c).claim g with holder := none, sampled := [] }).ccwOk n c).work))) ∧
  (∀ (s : State) (n : Nat),
     s.power.porst = false → n < 256 → (s.sch n).wait = .fenceLs →
     exec (.fenceDone n) s = .next (finish s (s.ccwOk n (s.curCcw n)))) ∧
  (∀ (s : State) (n : Nat) (p : Nat),
     s.power.porst = false → n < 256 → (s.sch n).wait = .fencePort p → s.fenceDue n p = true →
     exec (.fenceDone n) s = .next (finish s (s.fencePortEnd n p)))

/-- A port CCW that passes steps 1 to 4 of R54: WRITE, READ, CONTROL, SENSE and EXCHANGE make an operation on their port with
the instants that its table gives at that moment; the subchannel waits; a WRITE, READ, SENSE or EXCHANGE on this node joins the
port's queue, and a CONTROL, or a CCW of another node, gathers its operand first. STAGE of a valid operand on an enabled port of
this node writes the staging image, in a Commit slice the image of the frame after next, notes it and completes; SNAP on this
node stores its part of the frame's input image as its saggar may see it and completes (R14, R15, R54, R58, R62, R63). -/
def Obligations.Port_words : Prop :=
  (∀ (s : State) (n : Nat) (c : Ccw),
     s.power.porst = false → s.reaches n 0x01 c = true → (s.begun n c).portStep2 n c = true →
     (s.begun n c).portStep3 n c = none → (s.begun n c).portStep4 n c = none →
     exec (.ccwWrite n) s = .next (finish s ((s.begun n c).startPortCcw n c))) ∧
  (∀ (s : State) (n : Nat) (c : Ccw),
     s.power.porst = false → s.reaches n 0x02 c = true → (s.begun n c).portStep2 n c = true →
     (s.begun n c).portStep3 n c = none → (s.begun n c).portStep4 n c = none →
     exec (.ccwRead n) s = .next (finish s ((s.begun n c).startPortCcw n c))) ∧
  (∀ (s : State) (n : Nat) (c : Ccw),
     s.power.porst = false → s.reaches n 0x03 c = true → (s.begun n c).portStep2 n c = true →
     (s.begun n c).portStep3 n c = none → (s.begun n c).portStep4 n c = none →
     exec (.ccwControl n) s = .next (finish s ((s.begun n c).startPortCcw n c))) ∧
  (∀ (s : State) (n : Nat) (c : Ccw),
     s.power.porst = false → s.reaches n 0x04 c = true → (s.begun n c).portStep2 n c = true →
     (s.begun n c).portStep3 n c = none → (s.begun n c).portStep4 n c = none →
     exec (.ccwSense n) s = .next (finish s ((s.begun n c).startPortCcw n c))) ∧
  (∀ (s : State) (n : Nat) (c : Ccw),
     s.power.porst = false → s.reaches n 0x05 c = true → (s.begun n c).portStep2 n c = true →
     (s.begun n c).portStep3 n c = none → (s.begun n c).portStep4 n c = none →
     exec (.ccwExchange n) s = .next (finish s ((s.begun n c).startPortCcw n c))) ∧
  (∀ (s : State) (n : Nat) (c : Ccw) (l : List Byte),
     s.power.porst = false → s.reaches n 0x0A c = true → (s.begun n c).portStep2 n c = true →
     c.count.toNat = stageSize c.port → isLs c.addr = true → lsResv c.addr = false → fld c.addr 0 3 = 0 →
     (s.begun n c).checkRange ((s.begun n c).schSag n) c.addr c.count.toNat = none →
     (s.begun n c).portStep4 n c = none →
     l = (s.begun n c).lsRead ((s.begun n c).schSag n) (lsOff c.addr) c.count.toNat →
     (s.begun n c).lsPoisoned ((s.begun n c).schSag n) (lsOff c.addr) ((c.count.toNat + 7) / 8 * 8) = false →
     stageOk c.port l = true → (s.begun n c).isRemote c = false → (s.begun n c).portEn c.port = true →
     ((s.begun n c).inCommit = false ∨ (s.begun n c).kiln.slice = 15) →
     exec (.ccwStage n) s = .next (finish s ((((s.begun n c).stagePut n c.port l).noteStage n).instantCcw n c []))) ∧
  (∀ (s : State) (n : Nat) (c : Ccw) (l : List Byte),
     s.power.porst = false → s.reaches n 0x0A c = true → (s.begun n c).portStep2 n c = true →
     c.count.toNat = stageSize c.port → isLs c.addr = true → lsResv c.addr = false → fld c.addr 0 3 = 0 →
     (s.begun n c).checkRange ((s.begun n c).schSag n) c.addr c.count.toNat = none →
     (s.begun n c).portStep4 n c = none →
     l = (s.begun n c).lsRead ((s.begun n c).schSag n) (lsOff c.addr) c.count.toNat →
     (s.begun n c).lsPoisoned ((s.begun n c).schSag n) (lsOff c.addr) ((c.count.toNat + 7) / 8 * 8) = false →
     stageOk c.port l = true → (s.begun n c).isRemote c = false → (s.begun n c).portEn c.port = true →
     (s.begun n c).inCommit = true → (s.begun n c).kiln.slice ≠ 15 →
     exec (.ccwStage n) s = .next (finish s (
       (((s.begun n c).commitBegin.stagePut n c.port l).noteStage n).instantCcw n c []))) ∧
  (∀ (s : State) (n : Nat) (c : Ccw),
     s.power.porst = false → s.reaches n 0x0B c = true → (s.begun n c).portStep2 n c = true →
     c.count.toNat = snapSize c.port → (isLs c.addr && lsResv c.addr) = false → fld c.addr 0 3 = 0 →
     (s.begun n c).checkRange ((s.begun n c).schSag n) c.addr c.count.toNat = none →
     (s.begun n c).portStep4 n c = none → (s.begun n c).isRemote c = false →
     exec (.ccwSnap n) s = .next (finish s (
       (s.begun n c).instantCcw n c ((s.begun n c).snapPart ((s.begun n c).schSag n) c.port)))) ∧
  (∀ (s : State) (n : Nat) (c : Ccw) (o : PortOp),
     s.isRemote c = false → c.op ≠ 0x03 →
     o =
         { seq := s.tick1.serial, respNs := s.respNs c.port, byteNs := s.byteNs c.port, turnNs := s.turnNs c.port
           ovhNs := s.ovhNs c.port, ccw := c, port := c.port, node := c.node, phase := .prep, t0 := s.clk
           pieces := if c.list || !c.usesAddr then [] else [(c.addr, c.bufLen (s.ccwI2c c))]
           listNext := if c.list && c.usesAddr && c.bufLen (s.ccwI2c c) ≠ 0 then some c.addr else none } →
     s.startPortCcw n c = State.enqueueOp (s.tick1.updSch n fun x =>
       { x with state := if x.state == .halting then .halting else .waiting, op := some o }) n o) ∧
  (∀ (s : State) (n : Nat) (c : Ccw) (o : PortOp),
     s.isRemote c = true ∨ c.op = 0x03 →
     o =
         { seq := s.tick1.serial, respNs := s.respNs c.port, byteNs := s.byteNs c.port, turnNs := s.turnNs c.port
           ovhNs := s.ovhNs c.port, ccw := c, port := c.port, node := c.node, phase := .prep, t0 := s.clk
           pieces := if c.list || !c.usesAddr then [] else [(c.addr, c.bufLen (s.ccwI2c c))]
           listNext := if c.list && c.usesAddr && c.bufLen (s.ccwI2c c) ≠ 0 then some c.addr else none } →
     s.startPortCcw n c = (State.prepTx n prepFuel (s.tick1.updSch n fun x =>
       { x with state := if x.state == .halting then .halting else .waiting, op := some o })).opReady n)

/-- PORT_TRANSFER_END: an operation whose data phase is over, whose bytes are placed and whose t3 is reached ends with its
status; a transfer without characters on a serial port ends as the line reports; a WRITE in characters completes once its bytes
have room in the transmit FIFO; and where the subchannel has no operation and the line of its port is its own, the last
character sent, the transmission ends: waiting requests are sampled, the line is freed, and where the WRITE was not held this is
a break point. LINE_TURNAROUND on a line that no operation holds lets DE fall once TURN_NS has passed; of an EXCHANGE with a
receive part, TURN_NS after its last character, and of a READ after its program's own transmission, it lets DE fall and opens
the receiver. PORT_TIMEOUT at or after t3 + RESP_NS ends a listening operation with PORT_TIMEOUT, a break received in it
reported. READ_IDLE_END, BYTE_NS after the last byte of a READ, ends its receiving; END_OF_FRAME, the gap after the last
character, ends the discarding of a frame's rest, and the receiving of an operation that has part of a frame, with EOF (R58,
R59, R213, R215, R224, R247). -/
def Obligations.Transfer_ends : Prop :=
  (∀ (s : State) (n : Nat) (o : PortOp) (e : LineEnd),
     s.power.porst = false → n < opLimit → (s.sch n).op = some o → o.phase = .ended → o.t3 ≤ s.clk →
     o.rxPlaced = true →
     exec (.portTransferEnd n e) s = .next (finish s (s.finishOp n o none))) ∧
  (∀ (s : State) (n : Nat) (o : PortOp) (e : LineEnd),
     s.power.porst = false → n < opLimit → (s.sch n).op = some o → o.phase = .line → portKind o.port = 1 →
     o.ccw.op ≠ 0x03 → s.charMode o.port = false →
     exec (.portTransferEnd n e) s = .next (finish s (s.lineEnd n o e))) ∧
  (∀ (s : State) (n : Nat) (o : PortOp) (e : LineEnd),
     s.power.porst = false → n < opLimit → (s.sch n).op = some o → o.phase = .line → portKind o.port = 1 →
     o.ccw.op = 0x01 → s.charMode o.port = true → s.writeRoom o.port = true →
     exec (.portTransferEnd n e) s = .next (finish s (s.writeEntered n o))) ∧
  (∀ (s u : State) (n p : Nat) (e : LineEnd),
     s.power.porst = false → n < opLimit → (s.sch n).op = none → s.lineOf n = some p → (s.port p).txOwner = some n →
     (s.port p).txEnd ≤ s.clk → (s.sch n).spanOn p = false →
     u = ((s.sampleReqsAt p n ((s.port p).txEnd - s.charNs p)).drained p).freeLine p →
     exec (.portTransferEnd n e) s = .next (finish s
       (((if (s.port p).brkPt then (u.breakPoint p n).2 else u).liveCheck p).work))) ∧
  (∀ (s : State) (p : Nat),
     s.power.porst = false → p < 512 → portKind p = 1 → s.charMode p = true → (s.port p).lineBusy = none →
     (s.port p).txEnd + (s.port p).txTurn ≤ s.clk →
     exec (.lineTurnaround p) s = .next (finish s (s.updPort p fun x => { x with de := false }))) ∧
  (∀ (s u : State) (p n : Nat) (o : PortOp),
     s.power.porst = false → p < 512 → portKind p = 1 → s.charMode p = true → (s.port p).lineBusy = some n →
     u = s.transmitEnds p n → (u.port p).lineBusy = some n → (u.sch n).op = some o → o.port = p → o.phase = .line →
     o.ccw.op = 0x05 → o.t2 + o.turnNs ≤ u.clk → o.ccw.rxLen false ≠ 0 →
     exec (.lineTurnaround p) s = .next (finish s (
       ((u.drained p).updPort p fun x => { x with de := false, txOwner := none }).updOp n fun q =>
         { q with t3 := o.t2 + o.turnNs, phase := .listen }))) ∧
  (∀ (s u : State) (p n : Nat) (o : PortOp),
     s.power.porst = false → p < 512 → portKind p = 1 → s.charMode p = true → (s.port p).lineBusy = some n →
     u = s.transmitEnds p n → (u.port p).lineBusy = some n → (u.sch n).op = some o → o.port = p → o.phase = .line →
     o.ccw.op = 0x02 → (u.port p).txEnd + (u.port p).txTurn ≤ u.clk →
     exec (.lineTurnaround p) s = .next (finish s (
       ((u.drained p).updPort p fun x => { x with de := false, txOwner := none }).updOp n fun o =>
         { o with t3 := (u.port p).txEnd + (u.port p).txTurn, phase := .listen }))) ∧
  (∀ (s : State) (n : Nat) (o : PortOp),
     s.power.porst = false → n < opLimit → (s.sch n).op = some o → o.phase = .listen → o.t3 + o.respNs ≤ s.clk →
     exec (.portTimeout n) s = .next (finish s (
       s.finishOp n { o with dstat := o.dstat ||| dbit 3 (s.port o.port).brk } (some .portTimeout)))) ∧
  (∀ (s : State) (n : Nat) (o : PortOp),
     s.power.porst = false → n < opLimit → (s.sch n).op = some o → o.phase = .receive → o.ccw.op = 0x02 →
     o.lastByte + o.byteNs ≤ s.clk →
     exec (.readIdleEnd n) s = .next (finish s (s.receiveEnds n o.port 0))) ∧
  (∀ (s : State) (p : Nat) (g : Nat),
     s.power.porst = false → p < 512 → portKind p = 1 → s.charMode p = true → s.frameGap p = some g →
     (s.port p).lastRx + g ≤ s.clk → (s.port p).lineBusy = none →
     exec (.endOfFrame p) s = .next (finish s (s.updPort p fun x => { x with discard := false }))) ∧
  (∀ (s : State) (p g n : Nat) (o : PortOp),
     s.power.porst = false → p < 512 → portKind p = 1 → s.charMode p = true → s.frameGap p = some g →
     (s.port p).lastRx + g ≤ s.clk → (s.port p).lineBusy = some n → (s.sch n).op = some o → o.port = p →
     o.phase = .receive → (s.port p).frameRx ≠ [] →
     exec (.endOfFrame p) s = .next (finish s (
       (s.updPort p fun x => { x with discard := false }).receiveEnds n p (dbit 5 true))))

/-- CCW_WATCHDOG, CCW_WDG µs or more after the dispatch of a timed CCW or after the reading of a CCW began, records its cause
and stops the program, or the span and the program, with CCW_WATCHDOG. CLAIM_WATCHDOG_HOLD of an enabled claim group whose grant
has been held for CWDG µs counts and reports it, drops the holder's grants, stops the line where the holder has it with no
operation under way on it, grants the port to the next waiter and then stops the holder's program with CLAIM_WATCHDOG.
CLAIM_WATCHDOG_WAIT of a request that has waited CWDG µs counts and reports it, ends the request and stops the waiter's program
with CLAIM_WATCHDOG. REMOTE_TIMEOUT at or after the deadline of a remote CCW that has had no response ends it with
LINK_UNREACHABLE (R107, R108, R252, R359). -/
def Obligations.Watchdogs_of_programs_and_ports : Prop :=
  (∀ (s : State) (n : Nat),
     s.power.porst = false → n < 256 → (s.sch n).timed = true → s.bitten n = false →
     (s.sch n).dispatchedAt + 1000 * (s.sch n).wdgInForce ≤ s.clk →
     exec (.ccwWatchdog n) s = .next (finish s (
       (s.pushCause 0x0108 n (s.schSag n) (s.schSag n) s.kiln.frame).stopProgram n .ccwWatchdog))) ∧
  (∀ (s : State) (n : Nat),
     s.power.porst = false → n < 256 → (s.sch n).timed = false → s.readingCcw n = true →
     (s.sch n).readySince + 1000 * (s.sch n).ccwWdg ≤ s.clk →
     exec (.ccwWatchdog n) s = .next (finish s (
       ((s.pushCause 0x0108 n (s.schSag n) (s.schSag n) s.kiln.frame).stopSpan n).progEnd n .ccwWatchdog))) ∧
  (∀ (s u v : State) (g k n p : Nat),
     s.power.porst = false → g < 16 → (s.claim g).holder = some k → (s.claim g).en = true →
     (s.claim g).holdSince + (s.claim g).cwdgNs ≤ s.clk → n = ((s.claim g).slot k).sch → p = (s.claim g).port →
     u = (s.claimEvent g k n 0).dropGrants n →
     v = (if (u.port p).lineBusy == some n &&
             !(match (u.sch n).op with | some o => o.port == p && o.phase != .queued | none => false)
           then (u.stopLine p).freeLine p else u) →
     exec (.claimWatchdogHold g) s = .next (finish s (State.stopProgram (match v.grantFree 1 with
       | some (q, m, w) => if q == p then w.granted p m else v
       | none => v) n .claimWatchdog))) ∧
  (∀ (s : State) (g : Nat) (k : Nat) (t : Nat),
     s.power.porst = false → g < 16 → k < 16 → ((s.claim g).slot k).reqSince = some t → (s.claim g).en = true →
     t + (s.claim g).cwdgNs ≤ s.clk →
     ∃ u, u = s.claimEvent g k ((s.claim g).slot k).sch 1 ∧
     exec (.claimWatchdogWait g k) s = .next (finish s
       ((u.setClaim g ((u.claim g).endReq k u.clk false)).stopProgram ((s.claim g).slot k).sch .claimWatchdog))) ∧
  (∀ (s : State) (n : Nat) (o : PortOp),
     s.power.porst = false → n < 256 → (s.sch n).op = some o → o.phase = .remote → o.remoteSt = none →
     o.deadline ≤ s.clk →
     exec (.remoteTimeout n) s = .next (finish s (s.ccwFail n o.ccw .linkUnreachable)))

/-- The CONTROL CCW of an operation that the port logic has taken up, by its code: FLUSH empties the port's FIFOs, CLRERR clears
ESTAT, CAN_MB configures a message buffer, a frame waiting in it being withdrawn with ABANDON, SET_EDGE and PHASE write their
field, which takes effect at once while no frame runs and else at the next tick, PRESET while frames run waits for the next
tick, CLR_INDEX clears the index count, CLR_TRIP asks for the clearing of the monitor's latch, SET_WIN while frames run writes
the window, CONV_RESET while frames run asks for the reset of the record count; each then completes. I2C_RECOVER and BREAK hold
the line for their time, BREAK with TXD low (R219, R227, R228, R232, R237, R238, R239, R274, R282). -/
def Obligations.Control_codes : Prop :=
  (∀ (s : State) (n : Nat) (o : PortOp),
     s.power.porst = false → n < opLimit → s.codeOp n 0x0001 = some o →
     exec (.portFlush n) s = .next (finish s ((s.emptyFifos o.port).codeDone n o))) ∧
  (∀ (s : State) (n : Nat) (o : PortOp),
     s.power.porst = false → n < opLimit → s.codeOp n 0x0002 = some o →
     exec (.clrerr n) s = .next (finish s ((s.clearEstat o.port).codeDone n o))) ∧
  (∀ (s : State) (n : Nat) (o : PortOp),
     s.power.porst = false → n < opLimit → s.codeOp n 0x0010 = some o →
     exec (.i2cRecover n) s = .next (finish s (
       s.updOp n fun _ => { o with phase := .ended, txCount := o.tx.length, t3 := s.clk + 9 * s.bitNs o.port }))) ∧
  (∀ (s : State) (n : Nat) (o : PortOp),
     s.power.porst = false → n < opLimit → s.codeOp n 0x0011 = some o →
     exec (.breakCode n) s = .next (finish s (
       (s.updPort o.port fun x => { x with txdLow := s.clk + leAt o.tx 4 4 * s.bitNs o.port }).updOp n fun _ =>
         { o with phase := .ended, txCount := o.tx.length, t3 := s.clk + leAt o.tx 4 4 * s.bitNs o.port }))) ∧
  (∀ (s : State) (n : Nat) (o : PortOp),
     s.power.porst = false → n < opLimit → s.codeOp n 0x0020 = some o →
     exec (.canMb n) s = .next (finish s (
       (s.updPort o.port fun x =>
         { x with
           abandon := if (x.mbs.get {} (leAt o.tx 4 1)).kind == 2 && (x.mbs.get {} (leAt o.tx 4 1)).full then
             x.abandon ++ [(x.mbs.get {} (leAt o.tx 4 1)).sch] else x.abandon
           lineBusy := if (x.mbs.get {} (leAt o.tx 4 1)).kind == 2 && (x.mbs.get {} (leAt o.tx 4 1)).full &&
             x.lineBusy == some (x.mbs.get {} (leAt o.tx 4 1)).sch then none else x.lineBusy
           mbs := x.mbs.set {} (leAt o.tx 4 1) { kind := leAt o.tx 5 1, filter := w32 (leAt o.tx 8 4), mask := w32 (leAt o.tx 12 4) } }).codeDone n o))) ∧
  (∀ (s : State) (n : Nat) (o : PortOp),
     s.power.porst = false → n < opLimit → s.codeOp n 0x0040 = some o →
     exec (.setEdge n) s = .next (finish s (
       ((s.setPortField 0x60 (5 + leAt o.tx 4 1 / 16) (2 * (leAt o.tx 4 1 % 16)) 2 (leAt o.tx 5 1)).setEdgeKind
         (leAt o.tx 4 1) (leAt o.tx 5 1)).codeDone n o))) ∧
  (∀ (s : State) (n : Nat) (o : PortOp),
     s.power.porst = false → n < opLimit → s.codeOp n 0x0060 = some o →
     exec (.phase n) s = .next (finish s (
       ((s.setPortField o.port 2 0 24 (leAt o.tx 4 4)).setPhase (o.port - 0x70) (leAt o.tx 4 4)).codeDone n o))) ∧
  (∀ (s : State) (n : Nat) (o : PortOp),
     s.power.porst = false → n < opLimit → s.codeOp n 0x0050 = some o → s.kiln.frameRuns = true →
     exec (.preset n) s = .next (finish s (
       (s.setEnc (o.port - 0x80) { s.enc (o.port - 0x80) with preset := some (w32 (leAt o.tx 4 4)) }).codeDone n o))) ∧
  (∀ (s : State) (n : Nat) (o : PortOp),
     s.power.porst = false → n < opLimit → s.codeOp n 0x0051 = some o →
     exec (.clrIndex n) s = .next (finish s (
       (s.setEnc (o.port - 0x80) { s.enc (o.port - 0x80) with indexCount := 0 }).codeDone n o))) ∧
  (∀ (s : State) (n : Nat) (o : PortOp),
     s.power.porst = false → n < opLimit → s.codeOp n 0x0070 = some o →
     exec (.clrTrip n) s = .next (finish s ((s.clearReq (o.port - 0xA0)).codeDone n o))) ∧
  (∀ (s : State) (n : Nat) (o : PortOp),
     s.power.porst = false → n < opLimit → s.codeOp n 0x0071 = some o → s.kiln.run = true → s.kiln.frameRuns = true →
     exec (.setWin n) s = .next (finish s (
       (s.updWm (o.port - 0xA0) fun m =>
         { m with cfg := { m.cfg with upper := leAt o.tx 4 2, lower := leAt o.tx 6 2 } }).codeDone n o))) ∧
  (∀ (s : State) (n : Nat) (o : PortOp),
     s.power.porst = false → n < opLimit → s.codeOp n 0x0080 = some o → s.kiln.run = true → s.kiln.frameRuns = true →
     exec (.convReset n) s = .next (finish s (({ s with adc := { s.adc with resetNext := true } }).codeDone n o)))

/-- MDIO_WRITE and MDIO_READ of a CONTROL CCW that is not yet on the MDIO line, none dispatched before it still waiting to join,
join the line's queue with their PHY, register and data; MDIO_DONE, 25,600 ns or more after the operation at the head began,
hands the line to the next, leaves a read's result in the SENSE block of its port and completes the CCW (R235). -/
def Obligations.Mdio_operations : Prop :=
  (∀ (s : State) (n : Nat) (o : PortOp),
     s.power.porst = false → n < opLimit → s.codeOp n 0x0030 = some o → (s.mdio.any fun m => m.sch == n) = false →
     s.mdioEarlier o = false →
     exec (.mdioWrite n) s = .next (finish s (s.mdioPut
       { sch := n, mac := o.port, phy := leAt o.tx 4 1, reg := leAt o.tx 5 1, data := some (BitVec.ofNat 16 (leAt o.tx 6 2)) } o.seq))) ∧
  (∀ (s : State) (n : Nat) (o : PortOp),
     s.power.porst = false → n < opLimit → s.codeOp n 0x0031 = some o → (s.mdio.any fun m => m.sch == n) = false →
     s.mdioEarlier o = false →
     exec (.mdioRead n) s = .next (finish s (s.mdioPut
       { sch := n, mac := o.port, phy := leAt o.tx 4 1, reg := leAt o.tx 5 1, data := none } o.seq))) ∧
  (∀ (s : State) (m : MdioOp) (o : PortOp) (d : BitVec 16),
     s.power.porst = false → s.mdio = [m] → (s.sch m.sch).op = some o → o.t1 + 25600 ≤ s.clk → m.data = none →
     exec (.mdioDone d) s = .next (finish s ((State.updPort { s with mdio := [] } m.mac fun x =>
       { x with mdioData := d, mdioValid := true }).codeDone m.sch o))) ∧
  (∀ (s : State) (m : MdioOp) (o : PortOp) (d : BitVec 16),
     s.power.porst = false → s.mdio = [m] → (s.sch m.sch).op = some o → o.t1 + 25600 ≤ s.clk → m.data.isSome = true →
     exec (.mdioDone d) s = .next (finish s (State.codeDone { s with mdio := [] } m.sch o))) ∧
  (∀ (s u : State) (m h : MdioOp) (rest : List MdioOp) (o : PortOp) (d : BitVec 16),
     s.power.porst = false → s.mdio = m :: h :: rest → (s.sch m.sch).op = some o → o.t1 + 25600 ≤ s.clk →
     u = State.updOp { s with mdio := h :: rest } h.sch (fun o => { o with t1 := s.clk }) →
     exec (.mdioDone d) s = .next (finish s ((if m.data.isNone then u.updPort m.mac fun x =>
       { x with mdioData := d, mdioValid := true } else u).codeDone m.sch o)))

/-- On an enabled channel whose saggar's function answers, with no slim host port on that saggar, not being zeroed nor held:
BM_GO on an IDLE channel with no waiting MOVE begins buffer A; BM_ABORT of a running channel makes it finish its burst;
BM_DISABLE of a channel that does not wait between buffers disables it, and the oldest waiting MOVE follows; BM_STAT_CLEAR of
such a channel clears the W1C bits written 1. On a channel that is held each changes nothing but DEV_ERR.HOST (R186, R187, R194,
R201, R202, R203). -/
def Obligations.Block_mover_registers : Prop :=
  (∀ (s : State) (ch : Nat),
     s.power.porst = false → ch < 16 → (s.bm ch).en = true → s.shpBound (s.bm ch).sag = false →
     s.barOn (s.bm ch).sag = true → (s.bm ch).zeroing = false → (s.bm ch).shut = false → (s.bm ch).vec ≤ 32 →
     (s.bm ch).state = .idle → (s.bm ch).waiters = [] →
     exec (.bmGo ch) s = .next (finish s ((s.setBm ch (s.bm ch)).bmBegin ch))) ∧
  (∀ (s : State) (ch : Nat),
     s.power.porst = false → ch < 16 → (s.bm ch).en = true → s.shpBound (s.bm ch).sag = false →
     s.barOn (s.bm ch).sag = true → (s.bm ch).zeroing = false → (s.bm ch).shut = false → (s.bm ch).vec ≤ 32 →
     (s.bm ch).state = .run →
     exec (.bmAbort ch) s = .next (finish s (
       (s.setBm ch (s.bm ch)).setBm ch { s.bm ch with state := .aborting }))) ∧
  (∀ (s : State) (ch : Nat),
     s.power.porst = false → ch < 16 → (s.bm ch).en = true → s.shpBound (s.bm ch).sag = false →
     s.barOn (s.bm ch).sag = true → (s.bm ch).zeroing = false → (s.bm ch).shut = false → (s.bm ch).vec ≤ 32 →
     (s.bm ch).state ≠ .stalled →
     exec (.bmDisable ch) s = .next (finish s (((s.setBm ch (s.bm ch)).bmDisable ch).bmNext ch))) ∧
  (∀ (s : State) (ch : Nat) (w : Word),
     s.power.porst = false → ch < 16 → (s.bm ch).en = true → s.shpBound (s.bm ch).sag = false →
     s.barOn (s.bm ch).sag = true → (s.bm ch).zeroing = false → (s.bm ch).shut = false → (s.bm ch).state ≠ .stalled →
     exec (.bmStatClear ch w) s = .next (finish s (s.setBm ch
       { s.bm ch with
         half := (s.bm ch).half && !bit w 3, fullA := (s.bm ch).fullA && !bit w 4, fullB := (s.bm ch).fullB && !bit w 5
         abortedB := (s.bm ch).abortedB && !bit w 6, err := (s.bm ch).err && !bit w 7, short := (s.bm ch).short && !bit w 8
         disabled := (s.bm ch).disabled && !bit w 9 }))) ∧
  (∀ (s : State) (ch : Nat) (cmd : Instr) (w : Word),
     s.power.porst = false → ch < 16 → (s.bm ch).en = true → s.shpBound (s.bm ch).sag = false →
     s.barOn (s.bm ch).sag = true → (s.bm ch).zeroing = false → (s.bm ch).shut = true →
     cmd = .bmGo ch ∨ cmd = .bmAbort ch ∨ cmd = .bmDisable ch ∨ cmd = .bmStatClear ch w →
     exec cmd s = .next (finish s (s.errHost)))

/-- Of a running buffer: BM_HALF not yet reached moves it to the end of the burst that reaches half, and counts it as half done;
BM_BUFFER_END moves it to its full count and ends it with OK; to a short count not below what is moved, where an end is a port
and PACE does not hold it, and ends it with LENGTH_MISMATCH, bytes too few for a snapshot being taken from the FIFO; or to the
place of an error that is not at a port source, and ends it with DATA_INTEGRITY. BM_ABORT_DONE of an aborting channel moves the
burst in progress and ends the buffer: in register use with ABORTED, for a MOVE with OK where the count is done and else with
CCW_WATCHDOG (R191, R193, R195, R200, R202). -/
def Obligations.Block_mover_progress : Prop :=
  (∀ (s : State) (ch : Nat),
     s.power.porst = false → ch < 16 → (s.bm ch).state = .run → (s.bm ch).halfDone = false →
     exec (.bmHalf ch) s = .next (finish s (((s.bmMove ch (s.bm ch).sag (s.bm ch).run.halfGoal (s.bm ch).run.count
       ((s.bm ch).run.count + 1)).2).bmHalfEvent ch))) ∧
  (∀ (s : State) (ch : Nat),
     s.power.porst = false → ch < 16 → (s.bm ch).state = .run →
     exec (.bmBufferEnd ch .full) s = .next (finish s (s.bmFinish ch (s.bm ch).run.count .ok))) ∧
  (∀ (s : State) (ch : Nat) (m : Nat),
     s.power.porst = false → ch < 16 → (s.bm ch).state = .run →
     ((s.bm ch).run.sPort || (s.bm ch).run.dPort) = true → ((s.bm ch).mover.isNone && (s.bm ch).pace) = false →
     m < (s.bm ch).run.count → (s.bm ch).done ≤ m →
     exec (.bmBufferEnd ch (.short m)) s = .next (finish s ((s.bmFinish ch m .lengthMismatch).bmSpill (s.bm ch)))) ∧
  (∀ (s : State) (ch : Nat) (m : Nat),
     s.power.porst = false → ch < 16 → (s.bm ch).state = .run →
     (s.bm ch).run.sPort = false → m < (s.bm ch).run.count → (s.bm ch).done ≤ m →
     exec (.bmBufferEnd ch (.error m)) s = .next (finish s (s.bmFinish ch m .dataIntegrity))) ∧
  (∀ (s : State) (ch : Nat) (m : Nat) (t : State),
     s.power.porst = false → ch < 16 → (s.bm ch).state = .aborting →
     t = (s.bmRunTo ch (min m (s.bm ch).run.count)).2 →
     exec (.bmAbortDone ch m) s = .next (finish s (
       t.bmEnd ch (if (s.bm ch).mover.isSome then (if decide ((s.bm ch).run.count ≤ (t.bm ch).done) then .ok else .ccwWatchdog) else .aborted))))

/-- A CCW that passes R54: MOVE with a valid descriptor of an enabled channel of its saggar that no other queue reserves, which
its rights permit and which has not failed, waits for that channel behind those that wait already; JAPPEND with a valid
descriptor, a namespace of its saggar that takes appends and an engine left becomes the newest journal job and waits for it
(R54, R70, R75, R206). -/
def Obligations.Words_that_hand_over : Prop :=
  (∀ (s : State) (n : Nat) (c : Ccw) (g : BmCfg),
     s.power.porst = false → s.reaches n 0x08 c = true → (isLs c.addr && lsResv c.addr) = false →
     (s.begun n c).descAt ((s.begun n c).schSag n) c.addr = true →
     (s.begun n c).lsPoisoned ((s.begun n c).schSag n) (lsOff c.addr) 32 = false → g = (s.begun n c).moveOf n c →
     (s.begun n c).bmOk g true = true → ((s.begun n c).bm g.chan).en = true →
     ((s.begun n c).bm g.chan).sag = (s.begun n c).schSag n →
     ((s.begun n c).bm g.chan).gres = none ∨ ((s.begun n c).bm g.chan).gres = ((s.begun n c).sch n).owner →
     (s.begun n c).bmRights ((s.begun n c).schSag n) g = true → ((s.begun n c).bm g.chan).failed = false →
     exec (.ccwMove n) s = .next (finish s
       ((((s.begun n c).await n (.move g.chan)).setBm g.chan
         { (s.begun n c).bm g.chan with waiters := ((s.begun n c).bm g.chan).waiters ++ [(n, g)] }).bmNext g.chan))) ∧
  (∀ (s : State) (n : Nat) (c : Ccw) (d : List Byte) (u : State) (j : Job),
     s.power.porst = false → s.reaches n 0x20 c = true → c.count = 32 → (isLs c.addr && lsResv c.addr) = false →
     (s.begun n c).descAt ((s.begun n c).schSag n) c.addr = true →
     (s.begun n c).lsPoisoned ((s.begun n c).schSag n) (lsOff c.addr) 32 = false →
     d = (s.begun n c).jappendDesc n c → jappendOk d = true → fld (BitVec.ofNat 64 (leAt d 24 8)) 0 3 = 0 →
     (s.begun n c).checkRange ((s.begun n c).schSag n) (BitVec.ofNat 64 (leAt d 24 8)) 8 = none →
     (s.begun n c).jappendNs ((s.begun n c).schSag n) (leAt d 0 4) = none →
     (s.begun n c).checkWrite ((s.begun n c).schSag n) (BitVec.ofNat 64 (leAt d 24 8)) 8 = none →
     (s.begun n c).health.engines.isEmpty = false → u = (s.begun n c).tick1 →
     j =
         { id := u.jrn.nextJob, who := .jappend n, sag := u.schSag n, rank := (match u.schCls n with | .g => 0 | .w => 2 | .b => 3),
           opc := 0x42, nsid := leAt d 0 4, folio := 0, nfol := 0, coding := w32 (leAt d 4 4), samples := leAt d 16 4,
           srcAddr := BitVec.ofNat 64 (leAt d 8 8), stride := leAt d 20 4, res := BitVec.ofNat 64 (leAt d 24 8),
           firstStime := u.stime, askedAt := u.clk, seq := u.serial } →
     exec (.ccwJappend n) s = .next (finish s (((u.updJrn fun x =>
       { x with nextJob := x.nextJob + 1, jobs := x.jobs ++ [j] }).await n (.jappend u.jrn.nextJob)).jrnWork)))

/-- With the receiver on, BYTE_RECEIVED counts the character, bit 7 cleared on a 7-bit line and stamped one character time
earlier, and gives it to the operation that receives on the port; without an operation on the line it enters the receive FIFO, a
full FIFO of 256 dropping it with OVR; after a frame that ended at COUNT it is dropped and counted until the line has been idle
long enough, and then enters as before. BREAK_RECEIVED ends the receiving of an operation that receives or listens with BRK, and
on a line that no operation holds waits for the next one. With the receiver off neither has an effect (R215, R218, R223, R224).
-/
def Obligations.Serial_characters : Prop :=
  (∀ (s : State) (p : Nat) (b : Byte) (fe : Bool) (pe : Bool) (n : Nat) (o : PortOp) (r : RxByte) (u : State),
     s.power.porst = false → p < 512 → s.receiverOn p = true → (s.port p).discard = false →
     (s.port p).lineBusy = some n → (s.sch n).op = some o → o.port = p → o.phase = .receive →
     r =
         { b := if bit (s.liveWord p 2) 0 then b &&& 0x7F else b, fe := fe, pe := pe,
           stime := s.stime - BitVec.ofNat 64 (s.charNs p) } →
     u = (s.updPort p fun x => { x with rxTotal := x.rxTotal + 1, lastRx := s.clk }) →
     exec (.byteReceived p b fe pe) s = .next (finish s (u.byteToOp n p r))) ∧
  (∀ (s : State) (p : Nat) (b : Byte) (fe : Bool) (pe : Bool) (r : RxByte),
     s.power.porst = false → p < 512 → s.receiverOn p = true → (s.port p).lineBusy = none →
     (s.port p).discard = false → (s.port p).rx.length < 256 →
     r =
         { b := if bit (s.liveWord p 2) 0 then b &&& 0x7F else b, fe := fe, pe := pe,
           stime := s.stime - BitVec.ofNat 64 (s.charNs p) } →
     exec (.byteReceived p b fe pe) s = .next (finish s
       ((s.updPort p fun x => { x with rxTotal := x.rxTotal + 1, lastRx := s.clk }).updPort p fun x =>
         { x with rx := x.rx ++ [r] }))) ∧
  (∀ (s : State) (p : Nat) (b : Byte) (fe : Bool) (pe : Bool) (r : RxByte),
     s.power.porst = false → p < 512 → s.receiverOn p = true → (s.port p).lineBusy = none →
     (s.port p).discard = false → 256 ≤ (s.port p).rx.length →
     r =
         { b := if bit (s.liveWord p 2) 0 then b &&& 0x7F else b, fe := fe, pe := pe,
           stime := s.stime - BitVec.ofNat 64 (s.charNs p) } →
     exec (.byteReceived p b fe pe) s = .next (finish s
       ((s.updPort p fun x => { x with rxTotal := x.rxTotal + 1, lastRx := s.clk }).dropFull p 0 (some r) []))) ∧
  (∀ (s : State) (p : Nat) (b : RxByte) (l : LateDrop),
     l = { fifo := 0, at_ := s.clk, rx := some b, record := [], drops := (s.port p).drops, estat := (s.port p).estat
           flag := s.overrun p 0 } →
     s.dropFull p 0 (some b) [] =
       (((s.setOverrun p 0 true).drops p).addEstat p 4).updPort p fun x => { x with late := some l }) ∧
  (∀ (s : State) (p : Nat) (b : Byte) (fe : Bool) (pe : Bool),
     s.power.porst = false → p < 512 → s.receiverOn p = true → (s.port p).discard = true → s.frameOver p = false →
     exec (.byteReceived p b fe pe) s = .next (finish s
       ((s.updPort p fun x => { x with rxTotal := x.rxTotal + 1, lastRx := s.clk }).drops p))) ∧
  (∀ (s : State) (p : Nat) (b : Byte) (fe : Bool) (pe : Bool) (r : RxByte),
     s.power.porst = false → p < 512 → s.receiverOn p = true → (s.port p).discard = true → s.frameOver p = true →
     (s.port p).lineBusy = none → (s.port p).rx.length < 256 →
     r =
         { b := if bit (s.liveWord p 2) 0 then b &&& 0x7F else b, fe := fe, pe := pe,
           stime := s.stime - BitVec.ofNat 64 (s.charNs p) } →
     exec (.byteReceived p b fe pe) s = .next (finish s
       ((s.updPort p fun x => { x with rxTotal := x.rxTotal + 1, lastRx := s.clk, discard := false }).updPort p fun x =>
         { x with rx := x.rx ++ [r] }))) ∧
  (∀ (s : State) (p : Nat) (n : Nat) (o : PortOp),
     s.power.porst = false → p < 512 → s.receiverOn p = true → (s.port p).lineBusy = some n → (s.sch n).op = some o →
     o.port = p → o.phase = .receive ∨ o.phase = .listen →
     exec (.breakReceived p) s = .next (finish s (
       (s.updPort p fun x => { x with lastRx := s.clk }).receiveEnds n p 8))) ∧
  (∀ (s : State) (p : Nat),
     s.power.porst = false → p < 512 → s.receiverOn p = true → (s.port p).lineBusy = none →
     exec (.breakReceived p) s = .next (finish s
       ((s.updPort p fun x => { x with lastRx := s.clk }).updPort p fun x => { x with brk := true }))) ∧
  (∀ (s : State) (p : Nat) (b : Byte) (fe : Bool) (pe : Bool) (cmd : Instr),
     s.power.porst = false → p < 512 → s.receiverOn p = false →
     cmd = .byteReceived p b fe pe ∨ cmd = .breakReceived p →
     exec cmd s = .next (finish s (s)))

/-- On an enabled controller: CAN_FRAME_RECEIVED, not discarded by a safe state, stores the frame, with its time and buffer
number, in the lowest-numbered empty RX buffer that accepts it, and drops it with RXOVR where all that accept it are full;
CAN_FRAME_SENT, in no safe state and not in listen-only mode, frees the buffer of the frame the bus took, records its time and
tells its program's port; CAN_WITHDRAW empties the buffers whose frames have waited RESP_NS, with ABANDON, their programs' port
being told; CAN_BUS_ERROR moves TEC and REC and with them the state and its bits, and with NORETX a rise of TEC withdraws the
frame next to send. BUS_OFF_RECOVERY_DONE of a recovering controller sets both counters to 0 and the state to error active
(R221, R229, R230, R232). -/
def Obligations.CAN_frames : Prop :=
  (∀ (s : State) (p : Nat) (id : Word) (fl : Byte) (d : List Byte) (age : Nat) (i : Nat) (t : DWord),
     s.power.porst = false → p < 512 → s.canOn p = true → canLenOk d.length = true →
     ((s.port p).safe && (s.port p).safeOpt == 1) = false →
     (((List.range 64).filter fun i => ((s.port p).mbs.get {} i).accepts id).find? fun i => !((s.port p).mbs.get {} i).full) = some i →
     t = s.stime - BitVec.ofNat 64 age → Instr.wf (.canFrameReceived p id fl d age) = true →
     exec (.canFrameReceived p id fl d age) s = .next (finish s (s.updPort p fun x =>
       { x with
         mbs := x.mbs.set {} i { x.mbs.get {} i with full := true, record := canHeader id d.length fl i t ++ d, stime := t } }))) ∧
  (∀ (s : State) (p : Nat) (id : Word) (fl : Byte) (d : List Byte) (age : Nat),
     s.power.porst = false → p < 512 → s.canOn p = true → ((s.port p).safe && (s.port p).safeOpt == 1) = false →
     canLenOk d.length = true → Instr.wf (.canFrameReceived p id fl d age) = true →
     ((List.range 64).filter fun i => ((s.port p).mbs.get {} i).accepts id) ≠ [] →
     (((List.range 64).filter fun i => ((s.port p).mbs.get {} i).accepts id).find? fun i => !((s.port p).mbs.get {} i).full) = none →
     exec (.canFrameReceived p id fl d age) s = .next (finish s (
       ((s.updPort p fun x => { x with rxOvr := true }).drops p).addEstat p 0x20))) ∧
  (∀ (s : State) (p : Nat) (age : Nat) (i : Nat),
     s.power.porst = false → p < 512 → s.canOn p = true → (s.port p).safe = false → bit (s.liveWord p 0) 10 = false →
     (s.port p).canNext (s.clk - age) = some i → Instr.wf (.canFrameSent p age) = true →
     exec (.canFrameSent p age) s = .next (finish s ((s.updPort p fun x =>
       { x with
         mbs := x.mbs.set {} i (x.mbs.get {} i).emptied, lastTxStime := s.stime - BitVec.ofNat 64 age }).recordOut p
           ((s.port p).mbs.get {} i).sch ((s.port p).mbs.get {} i).brkPt))) ∧
  (∀ (s : State) (p : Nat),
     s.power.porst = false → p < 512 → portKind p = 2 → s.respNs p ≠ 0 →
     ((s.port p).mbs.any fun e => (e.2.kind == 2 && e.2.full && decide (e.2.queuedAt + s.respNs p ≤ s.clk))) = true →
     exec (.canWithdraw p) s = .next (finish s (
       s.canWithdrawn p fun m => m.kind == 2 && m.full && decide (m.queuedAt + s.respNs p ≤ s.clk)))) ∧
  (∀ (s : State) (p : Nat) (pick : CanMb → Bool) (gone : List CanMb),
     gone = (((s.port p).mbs.filter fun e => pick e.2).map (·.2)) →
     s.canWithdrawn p pick = gone.foldl (fun s m => s.recordOut p m.sch m.brkPt) ((s.updPort p fun x =>
       { x with
         abandon := x.abandon ++ gone.map fun m => m.sch
         mbs := x.mbs.map fun e => if pick e.2 then (e.1, e.2.emptied) else e }).addEstat p 0x10)) ∧
  (∀ (s : State) (p : Nat) (td : Int) (rd : Int) (tec : Nat) (rec : Nat) (st : Nat),
     s.power.porst = false → p < 512 → s.canOn p = true → tec = (max 0 (((s.port p).tec : Int) + td)).toNat →
     rec = (max 0 (((s.port p).recErr : Int) + rd)).toNat →
     st = (if 255 < tec then 2 else if 127 < tec ∨ 127 < rec then 1 else 0) →
     (s.port p).canNext s.clk = none ∨ td ≤ 0 ∨ bit (s.liveWord p 0) 11 = false →
     exec (.canBusError p td rd) s = .next (finish s ((s.updPort p fun x =>
       { x with tec := min 255 tec, recErr := min 255 rec, canState := st }).addEstat p
         (dbit 0 (st == 2) ||| dbit 1 (st == 1) ||| dbit 2 (decide (96 ≤ tec) || decide (96 ≤ rec)))))) ∧
  (∀ (s u : State) (p : Nat) (td rd : Int) (tec rec st i : Nat),
     s.power.porst = false → p < 512 → s.canOn p = true → tec = (max 0 (((s.port p).tec : Int) + td)).toNat →
     rec = (max 0 (((s.port p).recErr : Int) + rd)).toNat →
     st = (if 255 < tec then 2 else if 127 < tec ∨ 127 < rec then 1 else 0) →
     (s.port p).canNext s.clk = some i → 0 < td → bit (s.liveWord p 0) 11 = true →
     u = ((s.updPort p fun x =>
       { x with tec := min 255 tec, recErr := min 255 rec, canState := st }).addEstat p
         (dbit 0 (st == 2) ||| dbit 1 (st == 1) ||| dbit 2 (decide (96 ≤ tec) || decide (96 ≤ rec)))) →
     bit (u.liveWord p 0) 11 = true →
     exec (.canBusError p td rd) s = .next (finish s (u.canWithdrawn p (· == (s.port p).mbs.get {} i)))) ∧
  (∀ (s : State) (p : Nat),
     s.power.porst = false → p < 512 → portKind p = 2 → (s.port p).recovering = true →
     exec (.busOffRecoveryDone p) s = .next (finish s (
       s.updPort p fun x => { x with tec := 0, recErr := 0, canState := 0, recovering := false })))

/-- ETH_FRAME_RECEIVED of a frame of 14 to 1,518 bytes with a good FCS that the enabled MAC accepts, not discarded by a safe
state, stores its record of length, kind, time and bytes while the 16 KiB receive buffer has room; with a wrong FCS, or longer,
it is dropped and counted; ETH_FRAME_SENT, in no safe state, takes the oldest queued frame off the queue, keeps its time and TAG
where TSREQ asks and tells its program's port; ETH_ABANDON discards, with ABANDON, the frames behind the first that have waited
RESP_NS, and tells their programs' port (R233, R234). -/
def Obligations.Ethernet_frames : Prop :=
  (∀ (s : State) (p : Nat) (f : List Byte) (age : Nat) (r : List Byte),
     s.power.porst = false → p < 512 → portKind p = 3 → bit (s.liveWord p 0) 0 = true →
     fld (s.liveWord p 0) 4 4 = 1 → ((s.port p).safe && (s.port p).safeOpt == 1) = false → 14 ≤ f.length →
     f.length ≤ 1518 → s.ethAccepts p (f.take 6) = true → Instr.wf (.ethFrameReceived p f true age) = true →
     r = leBytes 2 f.length ++ leBytes 1 (b2n (bit (f.headD 0) 0 && !((f.take 6).all (· == 0xFF))) + 2 * b2n ((f.take 6).all (· == 0xFF)))
           ++ zeros 5 ++ leBytes 8 (s.stime - BitVec.ofNat 64 age).toNat ++ f →
     (s.port p).ethRx.foldl (fun n r => n + r.length) 0 + r.length ≤ 16384 →
     exec (.ethFrameReceived p f true age) s = .next (finish s (
       s.updPort p fun x => { x with ethRx := x.ethRx ++ [r] }))) ∧
  (∀ (s : State) (p : Nat) (f : List Byte) (ok : Bool) (age : Nat),
     s.power.porst = false → p < 512 → portKind p = 3 → bit (s.liveWord p 0) 0 = true →
     fld (s.liveWord p 0) 4 4 = 1 → ((s.port p).safe && (s.port p).safeOpt == 1) = false → 14 ≤ f.length →
     s.ethAccepts p (f.take 6) = true → Instr.wf (.ethFrameReceived p f ok age) = true →
     ok = false ∨ 1518 < f.length →
     exec (.ethFrameReceived p f ok age) s = .next (finish s (((s.drops p).updPort p fun x =>
       { x with dropped := x.dropped + 1, fcsErrs := if ok then x.fcsErrs else x.fcsErrs + 1, rxDrop := true }).addEstat p 4))) ∧
  (∀ (s : State) (p : Nat) (age : Nat) (e : EthTx) (l : List EthTx),
     s.power.porst = false → p < 512 → portKind p = 3 → bit (s.liveWord p 0) 0 = true → (s.port p).safe = false →
     (s.port p).ethTx = e :: l → Instr.wf (.ethFrameSent p age) = true →
     exec (.ethFrameSent p age) s = .next (finish s ((s.updPort p fun x =>
       if leAt e.record 2 1 % 2 = 1 then
         { x with ethTx := l, lastTxStime := s.stime - BitVec.ofNat 64 age, txTag := BitVec.ofNat 16 (leAt e.record 4 2) }
       else { x with ethTx := l }).recordOut p e.sch e.brkPt))) ∧
  (∀ (s : State) (p : Nat),
     s.power.porst = false → p < 512 → portKind p = 3 → s.respNs p ≠ 0 →
     (((s.port p).ethTx.drop 1).any fun e => decide (e.queuedAt + s.respNs p ≤ s.clk)) = true →
     ∃ gone, gone = ((s.port p).ethTx.drop 1).filter (fun e => decide (e.queuedAt + s.respNs p ≤ s.clk)) ∧
     exec (.ethAbandon p) s = .next (finish s (gone.foldl (fun s e => s.recordOut p e.sch e.brkPt)
       ((s.updPort p fun x =>
         { x with
           abandon := x.abandon ++ gone.map EthTx.sch
           ethTx := x.ethTx.take 1 ++ (x.ethTx.drop 1).filter fun e => !decide (e.queuedAt + s.respNs p ≤ s.clk) }).addEstat
             p 2))))

/-- EDGE_CAPTURE of the configured edge of a pin of the enabled bank that is no chip select sets its level and flag, pushes its
record, stamped to 2 ns, and fires the triggers on it; with room in the FIFO and no record of a higher pin at that stamp, the
record is appended. GPIO_SNAPSHOT at its place in the frame pushes the levels seen and names the next place. ENCODER_EDGE gives
the inputs their new levels, levels that have stood for FILTER being taken first and afterwards: taken ones add their step to
the 32-bit count, and an impossible transition of quadrature sets the error and QERR. INDEX on an enabled encoder counts,
stamps, pushes a record, with CAPOVR where the FIFO is full, and zeroes the count with ZRST (R98, R237, R239). -/
def Obligations.Edges_snapshots_encoders : Prop :=
  (∀ (s : State) (pin : Nat) (k : EdgeKind) (g : Gpio),
     s.power.porst = false → pin < 64 → bit (s.liveWord 0x60 0) 0 = true → s.isCs pin = false →
     s.gpio.edgeInForce.get 0 pin = edgeNum k ∨ s.gpio.edgeInForce.get 0 pin = 3 →
     g =
         { s.gpio with
           level := setBit s.gpio.level pin (k == .rising), edgeFlags := setBit s.gpio.edgeFlags pin true } →
     exec (.edgeCapture pin k) s = .next (finish s (State.fireSource (State.pushEdge { s with gpio := g }
       (leBytes 8 (s.stime.toNat / 2 * 2) ++ leBytes 1 pin ++ leBytes 1 (edgeNum k) ++ zeros 6)) 3 pin))) ∧
  (∀ (s : State) (r : List Byte),
     s.gpio.capture.length < 256 →
     (s.gpio.capture.all fun x => !(leAt x 0 8 == leAt r 0 8 && decide (leAt r 8 1 < leAt x 8 1))) = true →
     s.pushEdge r = { s with gpio := { s.gpio with capture := s.gpio.capture ++ [r] } }) ∧
  (∀ (s : State) (lv : DWord) (v : DWord) (u : State),
     s.power.porst = false → bit (s.liveWord 0x60 0) 0 = true → s.gpio.snapInForce ≠ 0 → s.kiln.frameRuns = true →
     s.gpio.snapNext ≤ s.clk → s.gpio.snapNext < s.kiln.tickAt + s.kiln.frameLen → v = s.seenLevels lv →
     u = { s with gpio := { s.gpio with level := v, snapNext := s.gpio.snapNext + s.gpio.snapInForce } } →
     exec (.gpioSnapshot lv) s = .next (finish s (u.pushSnap v))) ∧
  (∀ (s : State) (n : Nat) (a b : Bool),
     s.power.porst = false → n < 8 →
     exec (.encoderEdge n a b) s = .next (finish s (((s.encSettle n).setEnc n
       { (s.encSettle n).enc n with rawA := a, rawB := b, rawAt := s.clk }).encSettle n))) ∧
  (∀ (s : State) (n : Nat),
     ((s.enc n).rawA = (s.enc n).a ∧ (s.enc n).rawB = (s.enc n).b) ∨
       s.clk < (s.enc n).rawAt + fld (s.liveWord (0x80 + n) 1) 0 8 →
     s.encSettle n = s.setEnc n (s.enc n)) ∧
  (∀ (s : State) (n : Nat) (e : Enc),
     e = s.enc n → (e.rawA ≠ e.a ∨ e.rawB ≠ e.b) → e.rawAt + fld (s.liveWord (0x80 + n) 1) 0 8 ≤ s.clk →
     bit (s.liveWord (0x80 + n) 0) 0 = true →
     ¬ (fld (s.liveWord (0x80 + n) 0) 4 4 = 1 ∧ e.a ≠ e.rawA ∧ e.b ≠ e.rawB) →
     s.encSettle n = s.setEnc n { e with
       a := e.rawA, b := e.rawB
       count := e.count + encDelta (fld (s.liveWord (0x80 + n) 0) 4 4) e.a e.b e.rawA e.rawB }) ∧
  (∀ (s : State) (n : Nat) (e : Enc),
     e = s.enc n → e.qerr = false → e.rawAt + fld (s.liveWord (0x80 + n) 1) 0 8 ≤ s.clk →
     bit (s.liveWord (0x80 + n) 0) 0 = true → fld (s.liveWord (0x80 + n) 0) 4 4 = 1 → e.a ≠ e.rawA → e.b ≠ e.rawB →
     s.encSettle n = (s.setEnc n { e with a := e.rawA, b := e.rawB, qerr := true }).addEstat (0x80 + n) 1) ∧
  (∀ (s u : State) (n : Nat) (w : Word),
     s.power.porst = false → n < 8 → u = s.encSettle n → w = u.liveWord (0x80 + n) 0 → bit w 0 = true → fld w 4 4 ≠ 0 →
     (u.enc n).capture.length < 64 →
     exec (.index n) s = .next (finish s (u.setEnc n
       { u.enc n with
         indexCount := (u.enc n).indexCount + 1, indexStime := u.stime, count := if bit w 8 then 0 else (u.enc n).count
         capture := (u.enc n).capture ++ [leBytes 8 u.stime.toNat ++ leBytes 4 (u.enc n).count.toNat ++ zeros 4] }))) ∧
  (∀ (s u : State) (n : Nat) (w : Word),
     s.power.porst = false → n < 8 → u = s.encSettle n → w = u.liveWord (0x80 + n) 0 → bit w 0 = true → fld w 4 4 ≠ 0 →
     64 ≤ (u.enc n).capture.length →
     exec (.index n) s = .next (finish s ((u.setEnc n
       { u.enc n with
         indexCount := (u.enc n).indexCount + 1, indexStime := u.stime
         count := if bit w 8 then 0 else (u.enc n).count }).dropFull (0x80 + n) 3 none
           (leBytes 8 u.stime.toNat ++ leBytes 4 (u.enc n).count.toNat ++ zeros 4))))

/-- MONITOR_SAMPLE of an enabled sampled monitor whose instant it is, with READY set, evaluates both comparators at the voltage
given, keeps the voltage as the input's level and takes the result, in slice 0 into the image too; GUARD_CROSSING gives the
input its level and evaluates the comparators of an enabled guard monitor, clearing no latch; CONVERTER_SAMPLE of a set that is
due in FRAME mode turns the voltages of the enabled channels into codes, clamps them and adds the set while the record has room,
channel after channel; CONVERTER_RECORD writes a record that is due, whose configuration suits its frame, into mapped, unlocked
pages of an enabled saggar, and drops it whole otherwise (R259, R261, R262, R264, R267, R277, R278, R280, R281). -/
def Obligations.Monitors_and_converters : Prop :=
  (∀ (s : State) (n : Nat) (uv : Int) (a : Bool) (b : Bool) (u : State) (v : State),
     s.power.porst = false → n < 32 → Instr.wf (.monitorSample n uv) = true → s.dev.ready = true →
     s.sampleDue n = true → s.evaluate n uv = (a, b, u) →
     v = (u.updWm n fun m => { m with sampleAt := some u.sliceAt, input := uv }) → v.kiln.slice = 0 →
     exec (.monitorSample n uv) s = .next (finish s (State.monitorResult
       { v with image := { v.image with above := setBit v.image.above n a, below := setBit v.image.below n b } } n a b true))) ∧
  (∀ (s : State) (n : Nat) (uv : Int) (a : Bool) (b : Bool) (u : State),
     s.power.porst = false → n < 32 → Instr.wf (.monitorSample n uv) = true → s.dev.ready = true →
     s.sampleDue n = true → s.evaluate n uv = (a, b, u) → u.kiln.slice ≠ 0 →
     exec (.monitorSample n uv) s = .next (finish s (
       (u.updWm n fun m => { m with sampleAt := some u.sliceAt, input := uv }).monitorResult n a b true))) ∧
  (∀ (s v : State) (n : Nat) (uv : Int) (a b : Bool) (u : State),
     s.power.porst = false → n < 32 → v = (s.updWm n fun m => { m with input := uv }) → (v.wm n).live.en = true →
     (v.wm n).live.guard = true → v.evaluate n (v.wm n).input = (a, b, u) →
     exec (.guardCrossing n uv) s = .next (finish s (u.monitorResult n a b false))) ∧
  (∀ (s u : State) (i : ConverterInputs) (l : List Int),
     s.power.porst = false → s.setDue = true → i.volts.length = s.adc.live.nch → s.adcCodes i.vref i.volts = (l, u) →
     u.adc.sets.length < u.adc.live.npf → s.adc.live.free = false →
     exec (.converterSample i) s = .next (finish s { u with
       adc := { u.adc with
         lastSet := some u.image.stime, setStime := if u.adc.sets.isEmpty then u.image.stime else u.adc.setStime
         sets := u.adc.sets ++ [l.map fun v => (clamp16 v).1]
         clip := u.adc.clip || l.any fun v => (clamp16 v).2, clipSeen := u.adc.clipSeen || l.any fun v => (clamp16 v).2
         clips := satAdd 65535 u.adc.clips (l.filter fun v => (clamp16 v).2).length
         estat := u.adc.estat ||| dbit 1 (l.any fun v => (clamp16 v).2) } })) ∧
  (∀ (s : State) (vref : Nat) (p q : Int) (vs : List (Int × Int)),
     s.adcCodes vref [] = ([], s) ∧
     s.adcCodes vref ((p, q) :: vs) =
       ((s.adcCode (p - q) vref).1 :: ((s.adcCode (p - q) vref).2.adcCodes vref vs).1,
         ((s.adcCode (p - q) vref).2.adcCodes vref vs).2)) ∧
  (∀ (s : State) (d : AdcDue) (off : Nat),
     s.power.porst = false → s.adc.due = some d → off = d.cfg.base + d.slot * d.cfg.reclen →
     d.cfgOk = true → (s.sag d.cfg.sag).en = true → s.lsMapped d.cfg.sag off d.cfg.reclen = true →
     s.lsLocked d.cfg.sag off d.cfg.reclen = false →
     ∃ u, u = s.lsWrite d.cfg.sag off (d.bytes s.adc.gap) ∧ exec .converterRecord s = .next (finish s
       { u with adc := { s.adc with due := none, gap := false, lastFrame := d.frame, written := s.adc.written + 1, cfgErr := false } })) ∧
  (∀ (s : State) (d : AdcDue) (off : Nat),
     s.power.porst = false → s.adc.due = some d → off = d.cfg.base + d.slot * d.cfg.reclen →
     (d.cfgOk && (s.sag d.cfg.sag).en && s.lsMapped d.cfg.sag off d.cfg.reclen && !s.lsLocked d.cfg.sag off d.cfg.reclen) = false →
     exec .converterRecord s = .next (finish s { s with adc := { s.adc with
       due := none, gap := true, drops := sat16 s.adc.drops, notWritten := s.adc.notWritten + 1, dropSeen := true
       cfgErr := s.adc.cfgErr || !d.cfgOk
       estat := s.adc.estat ||| dbit 0 true ||| dbit 2 (!d.cfgOk) } }))

/-- The oldest waiting journal entry of a queue other than an admin queue, of the command's opcode, that passes the checks of
R292: READ, WRITE, APPEND, INFO and VERIFY become the newest job of the journal, which prepares and begins what it can; FLUSH
becomes a job that ends once no earlier work it waits for is under way; ZERO_RANGE clears its folios, which is all it does where
no append has taken folios of the namespace, and completes with OK; SEAL closes the namespace and completes with OK where count
and head agree, and completes with JRN_CHAIN_MISMATCH otherwise. An entry that fails a check ends with that status and no other
effect (R292, R293, R294, R295, R298, R299, R300). -/
def Obligations.Journal_commands_begin : Prop :=
  (∀ (s : State) (q : QueueId) (e : Entry),
     s.power.porst = false → q.wf = true → (∀ f, q ≠ .admin f) →
     (s.entries (qref q)).find? (fun e => e.kind == .journal && e.phase == .waiting) = some e → e.jrn.opc = 0x40 →
     s.jrnCheck (s.qSag (qref q)) e.jrn = none →
     exec (.jrnRead q) s = .next (finish s (((State.jrnPrep
       ((s.tick1.updEntry (qref q) e.eid fun x => { x with phase := .begun }).updJrn fun x =>
         { x with nextJob := x.nextJob + 1, jobs := x.jobs ++ [s.tick1.mkJob q e] })
       (s.tick1.mkJob q e).id jrnFuel)).jrnWork))) ∧
  (∀ (s : State) (q : QueueId) (e : Entry),
     s.power.porst = false → q.wf = true → (∀ f, q ≠ .admin f) →
     (s.entries (qref q)).find? (fun e => e.kind == .journal && e.phase == .waiting) = some e → e.jrn.opc = 0x41 →
     s.jrnCheck (s.qSag (qref q)) e.jrn = none →
     exec (.jrnWrite q) s = .next (finish s (((State.jrnPrep
       ((s.tick1.updEntry (qref q) e.eid fun x => { x with phase := .begun }).updJrn fun x =>
         { x with nextJob := x.nextJob + 1, jobs := x.jobs ++ [s.tick1.mkJob q e] })
       (s.tick1.mkJob q e).id jrnFuel)).jrnWork))) ∧
  (∀ (s : State) (q : QueueId) (e : Entry),
     s.power.porst = false → q.wf = true → (∀ f, q ≠ .admin f) →
     (s.entries (qref q)).find? (fun e => e.kind == .journal && e.phase == .waiting) = some e → e.jrn.opc = 0x42 →
     s.jrnCheck (s.qSag (qref q)) e.jrn = none →
     exec (.append q) s = .next (finish s (((State.jrnPrep
       ((s.tick1.updEntry (qref q) e.eid fun x => { x with phase := .begun }).updJrn fun x =>
         { x with nextJob := x.nextJob + 1, jobs := x.jobs ++ [s.tick1.mkJob q e] })
       (s.tick1.mkJob q e).id jrnFuel)).jrnWork))) ∧
  (∀ (s : State) (q : QueueId) (e : Entry),
     s.power.porst = false → q.wf = true → (∀ f, q ≠ .admin f) →
     (s.entries (qref q)).find? (fun e => e.kind == .journal && e.phase == .waiting) = some e → e.jrn.opc = 0x46 →
     s.jrnCheck (s.qSag (qref q)) e.jrn = none →
     exec (.info q) s = .next (finish s (((State.jrnPrep
       ((s.tick1.updEntry (qref q) e.eid fun x => { x with phase := .begun }).updJrn fun x =>
         { x with nextJob := x.nextJob + 1, jobs := x.jobs ++ [s.tick1.mkJob q e] })
       (s.tick1.mkJob q e).id jrnFuel)).jrnWork))) ∧
  (∀ (s : State) (q : QueueId) (e : Entry),
     s.power.porst = false → q.wf = true → (∀ f, q ≠ .admin f) →
     (s.entries (qref q)).find? (fun e => e.kind == .journal && e.phase == .waiting) = some e → e.jrn.opc = 0x47 →
     s.jrnCheck (s.qSag (qref q)) e.jrn = none →
     exec (.verify q) s = .next (finish s (((State.jrnPrep
       ((s.tick1.updEntry (qref q) e.eid fun x => { x with phase := .begun }).updJrn fun x =>
         { x with nextJob := x.nextJob + 1, jobs := x.jobs ++ [s.tick1.mkJob q e] })
       (s.tick1.mkJob q e).id jrnFuel)).jrnWork))) ∧
  (∀ (s : State) (q : QueueId) (e : Entry),
     s.power.porst = false → q.wf = true → (∀ f, q ≠ .admin f) →
     (s.entries (qref q)).find? (fun e => e.kind == .journal && e.phase == .waiting) = some e → e.jrn.opc = 0x43 →
     s.jrnCheck (s.qSag (qref q)) e.jrn = none →
     exec (.jrnFlush q) s = .next (finish s
       (((s.tick1.updEntry (qref q) e.eid fun x => { x with phase := .begun }).updJrn fun x =>
         { x with nextJob := x.nextJob + 1, jobs := x.jobs ++ [s.tick1.mkJob q e] }).flushDone))) ∧
  (∀ (s : State) (q : QueueId) (e : Entry),
     s.power.porst = false → q.wf = true → (∀ f, q ≠ .admin f) →
     (s.entries (qref q)).find? (fun e => e.kind == .journal && e.phase == .waiting) = some e → e.jrn.opc = 0x44 →
     s.jrnCheck (s.qSag (qref q)) e.jrn = none →
     exec (.zeroRange q) s = .next (finish s (
       (s.zeroRange e.jrn.nsid e.jrn.folio.toNat e.jrn.nfol).refuseJrn q e .ok))) ∧
  (∀ (s : State) (m i n : Nat),
     (s.jrn.jobs.all fun j => !(j.took && j.nsid == m)) = true →
     s.zeroRange m i n = (s.clearFolios m i n).updJrn fun y => { y with jobs := y.jobs.map id }) ∧
  (∀ (s : State) (q : QueueId) (e : Entry),
     s.power.porst = false → q.wf = true → (∀ f, q ≠ .admin f) →
     (s.entries (qref q)).find? (fun e => e.kind == .journal && e.phase == .waiting) = some e → e.jrn.opc = 0x45 →
     s.jrnCheck (s.qSag (qref q)) e.jrn = none → e.jrn.folio.toNat = (s.ns e.jrn.nsid).seq →
     e.jrn.chain = s.headOf e.jrn.nsid →
     exec (.seal q) s = .next (finish s (
       (s.setNs e.jrn.nsid { s.ns e.jrn.nsid with closed := true }).refuseJrn q e .ok))) ∧
  (∀ (s : State) (q : QueueId) (e : Entry),
     s.power.porst = false → q.wf = true → (∀ f, q ≠ .admin f) →
     (s.entries (qref q)).find? (fun e => e.kind == .journal && e.phase == .waiting) = some e → e.jrn.opc = 0x45 →
     s.jrnCheck (s.qSag (qref q)) e.jrn = none →
     ¬ (e.jrn.folio.toNat = (s.ns e.jrn.nsid).seq ∧ e.jrn.chain = s.headOf e.jrn.nsid) →
     exec (.seal q) s = .next (finish s (s.refuseJrn q e .jrnChainMismatch))) ∧
  (∀ (s : State) (q : QueueId) (e : Entry) (cmd : Instr) (opc : Nat) (r : Status),
     s.power.porst = false → q.wf = true → (∀ f, q ≠ .admin f) →
     (s.entries (qref q)).find? (fun e => e.kind == .journal && e.phase == .waiting) = some e → e.jrn.opc = opc →
     s.jrnCheck (s.qSag (qref q)) e.jrn = some r →
     (cmd, opc) ∈ [(Instr.jrnRead q, 0x40), (.jrnWrite q, 0x41), (.append q, 0x42), (.jrnFlush q, 0x43), (.zeroRange q, 0x44), (.seal q, 0x45), (.info q, 0x46), (.verify q, 0x47)] →
     exec cmd s = .next (finish s (s.refuseJrn q e r)))

/-- FLEOST_CHECK_END of an engine whose job has all its data, the check passed, codes the block: where it fits its namespace the
job becomes ready with its folios, and where it does not it ends with the status of R289. FOLIO_OP_END at or after its instant
counts the sectors that the command, or for a scrub the job, says the operation found, notes a folio with more than 4 corrected
bits in a sector, has the operation's effect, and ends the job with the status of an operation that fails, or with OK after the
last folio of one that is no zeroing, the array then going on. JOURNAL_SCRUB of a written folio with no scrub under way becomes
the newest job, at the lowest media priority (R301, R308, R326). -/
def Obligations.Folio_operations : Prop :=
  (∀ (s : State) (g : Nat) (j : Job) (b : Block) (k : Job),
     s.power.porst = false → g < 5 → s.jrn.jobs.find? (fun j => j.engine == some g) = some j → j.need ≤ j.data.length →
     b = codeBlock j.coding j.samples j.firstStime j.rejected j.data →
     (s.ns j.nsid).unfit (ceilDiv b.payload.length 4096) = none →
     k =
         { j with
           engine := none, data := [], tag := b.header, rawFall := b.raw, total := ceilDiv b.payload.length 4096,
           news := cutFolios (ceilDiv b.payload.length 4096) b.header b.payload } →
     exec (.fleostCheckEnd g false) s = .next (finish s (((s.updJob j.id fun _ => k).jobReady j.id).jrnWork))) ∧
  (∀ (s : State) (g : Nat) (j : Job) (st : Status),
     s.power.porst = false → g < 5 → s.jrn.jobs.find? (fun j => j.engine == some g) = some j → j.need ≤ j.data.length →
     (s.ns j.nsid).unfit
       (ceilDiv (codeBlock j.coding j.samples j.firstStime j.rejected j.data).payload.length 4096) = some st →
     exec (.fleostCheckEnd g false) s = .next (finish s ((s.endJob j st).jrnWork))) ∧
  (∀ (s u v : State) (sec bits unc id : Nat) (f : Nat × Nat × Nat) (i : Nat) (j j2 : Job) (r : Option Status) (st : Status),
     s.power.porst = false → s.jrn.cur = some id → s.job? id = some j → s.jrn.opEnd ≤ s.clk →
     f = j.found.getD (sec, bits, unc) →
     u = State.countSectors (s.updJrn fun x => { x with cur := none, lastOp := s.clk }) j.nsid f.1 f.2.2 →
     i = (if j.opc = 0x42 then (u.ns j.nsid).place (j.first + j.pos) else j.folio + j.pos) →
     u.folioEffect { j with remaps := if 4 < f.2.1 then j.remaps ++ [i] else j.remaps } (f.2.2 != 0) = (r, j2, v) →
     r = some st →
     exec (.folioOpEnd sec bits unc) s = .next (finish s ((v.endJob { j2 with pos := j2.pos + 1 } st).jrnWork))) ∧
  (∀ (s u v : State) (sec bits unc id : Nat) (f : Nat × Nat × Nat) (i : Nat) (j j2 : Job) (r : Option Status),
     s.power.porst = false → s.jrn.cur = some id → s.job? id = some j → s.jrn.opEnd ≤ s.clk →
     f = j.found.getD (sec, bits, unc) →
     u = State.countSectors (s.updJrn fun x => { x with cur := none, lastOp := s.clk }) j.nsid f.1 f.2.2 →
     i = (if j.opc = 0x42 then (u.ns j.nsid).place (j.first + j.pos) else j.folio + j.pos) →
     u.folioEffect { j with remaps := if 4 < f.2.1 then j.remaps ++ [i] else j.remaps } (f.2.2 != 0) = (r, j2, v) →
     r = none → j2.pos + 1 < j2.total ∨ j2.who = .zero j2.nsid →
     exec (.folioOpEnd sec bits unc) s = .next (finish s (
       (v.updJob j2.id fun _ => { j2 with pos := j2.pos + 1 }).jrnWork))) ∧
  (∀ (s u v : State) (sec bits unc id : Nat) (f : Nat × Nat × Nat) (i : Nat) (j j2 : Job) (r : Option Status),
     s.power.porst = false → s.jrn.cur = some id → s.job? id = some j → s.jrn.opEnd ≤ s.clk →
     f = j.found.getD (sec, bits, unc) →
     u = State.countSectors (s.updJrn fun x => { x with cur := none, lastOp := s.clk }) j.nsid f.1 f.2.2 →
     i = (if j.opc = 0x42 then (u.ns j.nsid).place (j.first + j.pos) else j.folio + j.pos) →
     u.folioEffect { j with remaps := if 4 < f.2.1 then j.remaps ++ [i] else j.remaps } (f.2.2 != 0) = (r, j2, v) →
     r = none → j2.total ≤ j2.pos + 1 → j2.who ≠ .zero j2.nsid →
     exec (.folioOpEnd sec bits unc) s = .next (finish s (((v.updJob j2.id fun _ =>
       { j2 with pos := j2.pos + 1 }).endJob { j2 with pos := j2.pos + 1 } .ok).jrnWork))) ∧
  (∀ (s : State) (n f sec bits unc : Nat),
     s.power.porst = false → n < 1024 → f < 2 ^ 20 → (s.folioAt n f).isSome = true →
     (s.jrn.jobs.all fun j => j.who != .scrub) = true →
     exec (.journalScrub n f sec bits unc) s = .next (finish s ((s.tick1.updJrn fun j =>
       { j with
         nextJob := j.nextJob + 1
         jobs := j.jobs ++ [{
           id := j.nextJob, who := .scrub, sag := 0, rank := 4, opc := 0x47, nsid := n, folio := f, nfol := 1, total := 1
           ready := true, seq := s.tick1.serial, found := some (sec, bits, unc) }] }).jrnWork)))

/-- With no journal work under way or ready and no exit under way: JPS1_ENTRY in JPS0, IDLE1 and MAXPS not 0, IDLE1 µs after the
latest operation, enters JPS1; JPS2_ENTRY not in JPS2, IDLE2 not 0, MAXPS at least 2 and no admitted journal capacity, IDLE2 µs
after it, enters JPS2. JPS_EXIT_DONE at or after its instant, with no CREATE_SQ running, puts the array back into JPS0, its
waiting work beginning (R306, R307). -/
def Obligations.Journal_power_states : Prop :=
  (∀ (s : State),
     s.power.porst = false → s.jrn.ps = 0 → s.jrn.idle1 ≠ 0 → s.jrn.maxps ≠ 0 → s.jrnIdle = true →
     s.jrn.lastOp + 1000 * s.jrn.idle1 ≤ s.clk →
     exec .jps1Entry s = .next (finish s (s.updJrn fun j => { j with ps := 1 }))) ∧
  (∀ (s : State),
     s.power.porst = false → s.jrn.ps ≠ 2 → s.jrn.idle2 ≠ 0 → s.jrn.maxps ≥ 2 → s.jrnCap = false → s.jrnIdle = true →
     s.jrn.lastOp + 1000 * s.jrn.idle2 ≤ s.clk →
     exec .jps2Entry s = .next (finish s (s.updJrn fun j => { j with ps := 2 }))) ∧
  (∀ (s : State) (t : Nat),
     s.power.porst = false → s.jrn.exitAt = some t → t ≤ s.clk →
     (s.jrnAwake.fns.all fun e => e.2.opc != some 0x83) = true →
     exec .jpsExitDone s = .next (finish s (s.jrnAwake)))

/-- ZEROING_DONE of a page in zeroing clears it and makes it free, or takes it out of the pool when it is being retired; of a
FIFO, of a prefetch buffer, of a channel's register set and of a namespace in zeroing it ends that zeroing; the commands that
waited for it then go on (R176, R178, R179). -/
def Obligations.Zeroing_ends : Prop :=
  (∀ (s : State) (p : Nat) (g : Nat),
     s.power.porst = false → Instr.wf (.zeroingDone (.page p)) = true → s.pageState p = .zeroing g →
     ∃ u, u = (s.clearPage p).setPage p (if s.ls.retiring.contains p then .retired else .free) ∧
     exec (.zeroingDone (.page p)) s = .next (finish s
       (State.afterZero { u with ls := { u.ls with retiring := u.ls.retiring.filter fun x => x != p } }))) ∧
  (∀ (s : State) (p : Nat),
     s.power.porst = false → Instr.wf (.zeroingDone (.fifo p)) = true →
     exec (.zeroingDone (.fifo p)) s = .next (finish s (
       (s.updPort p fun x => { x with zeroFor := none }).afterZero))) ∧
  (∀ (s : State) (n : Nat),
     s.power.porst = false → Instr.wf (.zeroingDone (.prefetch n)) = true → (s.sq n).zeroing = true →
     exec (.zeroingDone (.prefetch n)) s = .next (finish s ((s.setSq n {}).afterZero))) ∧
  (∀ (s : State) (ch : Nat),
     s.power.porst = false → Instr.wf (.zeroingDone (.bmSet ch)) = true → (s.bm ch).zeroing = true →
     exec (.zeroingDone (.bmSet ch)) s = .next (finish s (
       (s.updBm ch fun b => { b with zeroing := false, zeroFor := 0 }).afterZero))) ∧
  (∀ (s : State) (n : Nat),
     s.power.porst = false → Instr.wf (.zeroingDone (.ns n)) = true → (s.ns n).zeroing = true →
     exec (.zeroingDone (.ns n)) s = .next (finish s ((s.zeroNsDone n).afterZero)))

/-- On an enabled node, BYPASS_TEST_END 100 µs or more after the test began: passed, it inserts the node; failed, it arranges
the next test 100 ms after this one began and raises LINK_FAULT the first time. BYPASS_TEST_REPEAT at that instant begins the
test again. SIDE_TRAINING_START on a side of an inserted node that is neither up nor training, 5 ms after the insertion, begins
its training, and SIDE_TRAINING_RETRY of a training side begins it anew; TRAIN of a training side that has made fewer than 64
exchanges adds its exchange. SIDE_UP of a training side with 64 exchanges takes its delay and sets it up, with the state of the
ring that follows; SIDE_DOWN of a side that is up takes it down. LINK_WRAP on a side down for 2 ticks, the other up and not
wrapped there, wraps with its event; LINK_UNWRAP of a wrapped side that has been up, without a CRC error, for 5 ms and 2 ticks
unwraps with its event; both end the remote work (R336, R338, R339, R340, R364, R365). -/
def Obligations.Link_sides : Prop :=
  (∀ (s : State) (t : Nat),
     s.power.porst = false → s.lnk.testAt = some t → s.lnk.en = true → t + 100000 ≤ s.clk →
     exec (.bypassTestEnd true) s = .next (finish s
       { s with
         pins := { s.pins with lkInsert := true }
         lnk := { s.lnk with testAt := none, retryAt := none, faultRaised := false, state := 1, insertAt := s.clk } })) ∧
  (∀ (s : State) (t : Nat) (u : State),
     s.power.porst = false → s.lnk.testAt = some t → s.lnk.en = true → t + 100000 ≤ s.clk →
     u = (s.updLnk fun l => { l with testAt := none, retryAt := some (t + 100000000), faultRaised := true }) →
     exec (.bypassTestEnd false) s = .next (finish s (if s.lnk.faultRaised then u else u.raiseF 0 0x0311 0 0))) ∧
  (∀ (s : State) (t : Nat),
     s.power.porst = false → s.lnk.retryAt = some t → s.lnk.en = true → t ≤ s.clk →
     exec .bypassTestRepeat s = .next (finish s (
       s.updLnk fun l => { l with retryAt := none, testAt := some s.clk }))) ∧
  (∀ (s : State) (d : Side) (u : State),
     s.power.porst = false → s.inserted = true → (s.lnk.side d).up = false → (s.lnk.side d).training = false →
     s.lnk.insertAt + 5000000 ≤ s.clk →
     u = (s.updSide d fun x => { x with training := true, trainAt := s.clk, exchanges := 0, sum := 0 }) →
     exec (.sideTrainingStart d) s = .next (finish s (
       if u.lnk.state = 1 then u.updLnk fun l => { l with state := 2 } else u))) ∧
  (∀ (s : State) (d : Side),
     s.power.porst = false → (s.lnk.side d).training = true →
     exec (.sideTrainingRetry d) s = .next (finish s (
       s.updSide d fun x => { x with trainAt := s.clk, exchanges := 0, sum := 0 }))) ∧
  (∀ (s : State) (d : Side) (a : Nat) (b : Nat) (c : Nat) (e : Nat),
     s.power.porst = false → Instr.wf (.train d a b c e) = true → (s.lnk.side d).up = false →
     (s.lnk.side d).training = true → (s.lnk.side d).exchanges < 64 →
     exec (.train d a b c e) s = .next (finish s (s.updSide d fun x =>
       { x with exchanges := x.exchanges + 1, sum := x.sum + (((e : Int) - a) - ((c : Int) - b)) }))) ∧
  (∀ (s : State) (d : Side) (u : State) (v : State),
     s.power.porst = false → (s.lnk.side d).training = true → 64 ≤ (s.lnk.side d).exchanges →
     u = (s.updSide d fun x =>
         { x with
           up := true, training := false, delay := x.mean, exchanges := 0, sum := 0, upAt := s.clk, upTicks := 0, downTicks := 0,
           badCells := 0 }) →
     v = (if s.lnk.east.up || s.lnk.west.up then u else u.updLnk fun l => { l with runSince := s.clk }) →
     exec (.sideUp d) s = .next (finish s
       (if v.lnk.east.up && v.lnk.west.up && !v.lnk.wrapped then v.updLnk fun l => { l with state := 3 }
        else if v.lnk.state = 5 then v.updLnk fun l => { l with state := 2 } else v))) ∧
  (∀ (s : State) (d : Side),
     s.power.porst = false → (s.lnk.side d).up = true →
     exec (.sideDown d) s = .next (finish s (s.sideDown d))) ∧
  (∀ (s : State) (d : Side) (o : Nat) (u : State),
     s.power.porst = false → Instr.wf (.linkWrap d o) = true → s.inserted = true → (s.lnk.side d).up = false →
     2 ≤ (s.lnk.side d).downTicks → (s.lnk.side (otherSide d)).up = true →
     (s.lnk.wrapped && (s.lnk.side d).wrapped) = false →
     u = ((s.updSide d fun x => { x with wrapped := true }).updLnk fun l => { l with
           state := 4, wrapped := true, wrapWest := if d == .west then l.node else o, wrapEast := if d == .east then l.node else o }) →
     exec (.linkWrap d o) s = .next (finish s ((u.raiseF 0 0x0312 o (sideNum d)).endRemotes))) ∧
  (∀ (s : State) (d : Side) (u : State),
     s.power.porst = false → (s.lnk.side d).wrapped = true → (s.lnk.side d).up = true →
     (s.lnk.side d).upAt + 5000000 ≤ s.clk → (s.lnk.side d).crcAt = 0 ∨ (s.lnk.side d).crcAt + 5000000 ≤ s.clk →
     2 ≤ (s.lnk.side d).upTicks →
     u = ((s.updSide d fun x => { x with wrapped := false }).updLnk fun l => { l with state := 3, wrapped := false, wrapWest := 0xFF, wrapEast := 0xFF }) →
     exec (.linkUnwrap d) s = .next (finish s ((u.raiseF 0 0x0313 0 0).endRemotes)))

/-- On an inserted node: SLOT_START of a slot of the segment in progress, or of a new one, strips or forwards what arrives on a
side that is up and fills an empty slot, its cell leaving on the other side while that is up; SYNC of the node's own frame at a
master keeps the presence collected, and SYNC of the master it follows, the first in a frame, is forwarded with its delay, takes
its presence and is followed; ELECTION of a lower-numbered candidate makes a candidate withdraw; MASTER_SELF_START of a
master-capable node with a side up that has RUN set, source LINK, no frames and no SYNC for two periods opens frame 0, with
MTICK at the next edge; IMAGE of a cell of a subscribed publisher, not seen before in its frame, is written to its mapped,
unlocked place and counted, the last of a complete image making it current (R344, R349, R350, R351, R352, R353, R363). -/
def Obligations.Link_cells : Prop :=
  (∀ (s : State) (ln : Lane) (g : Nat) (k : Nat) (i : SlotIn) (f : Side) (u : State) (fwd : Option Cell) (v : State) (out : Option Cell) (w : State),
     s.power.porst = false → Instr.wf (.slotStart ln g k i) = true → s.inserted = true → k < s.nSeg → g < 16 →
     f = (match ln with | .a => Side.west | .b => Side.east) →
     u = (if s.lnk.segment = some g then s
       else s.updLnk fun l =>
         { l with segment := some g, peers := l.peers.map fun e => (e.1, { e.2 with segCells := 0 }) }) →
     (if (u.lnk.side f).up then u.stripCell f i else (none, u)) = (fwd, v) →
     (match fwd with | some c => (some c, v) | none => v.fillSlot ln g k) = (out, w) →
     (w.lnk.side (otherSide f)).up = true →
     exec (.slotStart ln g k i) s = .next (finish s
       (match ln with
        | .a => w.updLnk fun l => { l with slotOutA := out }
        | .b => w.updLnk fun l => { l with slotOutB := out }))) ∧
  (∀ (s : State) (ln : Lane) (p : List Byte),
     s.power.porst = false → Instr.wf (.sync ln p) = true → s.inserted = true →
     (s.lnk.side (match ln with | .a => .west | .b => .east)).up = true → p.length = 64 → leAt p 12 1 = s.lnk.node →
     s.lnk.master = true → leAt p 13 1 % 2 = 0 →
     exec (.sync ln p) s = .next (finish s (s.updLnk fun l =>
       { l with presAcc := l.presAcc ||| BitVec.ofNat 128 (leAt p 24 16), presSeen := true }))) ∧
  (∀ (s : State) (ln : Lane) (p : List Byte) (m : Nat) (f : Side) (a1 : State) (a2 : State) (acc : Nat),
     s.power.porst = false → Instr.wf (.sync ln p) = true → s.inserted = true →
     f = (match ln with | .a => Side.west | .b => Side.east) → (s.lnk.side f).up = true → p.length = 64 →
     m = leAt p 12 1 → m ≠ s.lnk.node → leAt p 13 1 = 0 → (s.lnk.master = false ∨ m < s.lnk.node) →
     s.lnk.lastSync.isSome = true → s.lnk.masterValid = true → s.lnk.masterNode = m →
     (∀ t, s.lnk.lastSync = some t → s.periodNs ≤ 2 * (s.clk - t)) → s.lnk.wrapped = false →
     leAt p 14 1 = s.lnk.wrapWest → leAt p 15 1 = s.lnk.wrapEast → leAt p 20 4 = s.lnk.generation →
     acc = leAt p 16 4 + (s.lnk.side f).delay →
     a1 = ((s.forwardSync ln (s.lnk.side f).delay p).updLnk fun l => { l with master := false, candidate := false, electing := false, missedTicks := 0, lastSync := some s.clk }) →
     a2 = (a1.setMaster m).setPres (BitVec.ofNat 128 (leAt p 40 16)) →
     exec (.sync ln p) s = .next (finish s (a2.followSync (a2.clk - acc) (w32 (leAt p 8 4))
       (BitVec.ofNat 64 (leAt p 0 8)) (BitVec.ofNat 64 (leAt p 0 8) + BitVec.ofNat 64 acc)))) ∧
  (∀ (s : State) (n : Nat),
     s.power.porst = false → Instr.wf (.election n) = true → s.inserted = true →
     exec (.election n) s = .next (finish s (
       if s.lnk.candidate && decide (n < s.lnk.node) then s.updLnk fun l => { l with candidate := false } else s))) ∧
  (∀ (s : State),
     s.power.porst = false → s.inserted = true → s.lnk.mcap = true → s.kiln.src = 2 → s.kiln.run = true →
     s.kiln.frameRuns = false → (s.lnk.east.up || s.lnk.west.up) = true → s.lnk.runSince + 2 * s.periodNs ≤ s.clk →
     (match s.lnk.lastSync with | some t => decide (t + 2 * s.periodNs ≤ s.clk) | none => true) = true →
     exec .masterSelfStart s = .next (finish s (
       if s.lnk.mtick then s.updKiln fun k => { k with zeroByEdge := true } else s.openFrame 0 true))) ∧
  (∀ (s : State) (c : Cell) (t : DWord) (off : Nat) (u : State) (v : State),
     s.power.porst = false → Instr.wf (.image c t) = true → s.inserted = true → (s.peer c.src).sub = true →
     (s.peer c.src).rxDone = false → (s.peer c.src).rxSeen.contains c.index = false → off = (s.peer c.src).subOff + 16 + 64 * c.index →
     s.lsMapped (s.peer c.src).subSag (s.peer c.src).subOff (16 + 64 * c.index + 64) = true →
     s.lsLocked (s.peer c.src).subSag (s.peer c.src).subOff (16 + 64 * c.index + 64) = false →
     u = s.lsWrite (s.peer c.src).subSag off (padTo 64 c.payload) →
     v = (u.updPeer c.src fun p =>
       { p with rxGot := p.rxGot + 1, rxSeen := c.index :: p.rxSeen, rxStime := some t }) →
     exec (.image c t) s = .next (finish s (
       if c.last && (v.peer c.src).rxGot == c.index + 1 then v.subHeader c.src false else v)))

/-- On an inserted node, a new RPORT_REQ of another node: while RUN is 0 it is answered LINK_UNREACHABLE; without the right, or
for a shared port, PROTECTION_CHECK; a valid WRITE, READ, SENSE or EXCHANGE that class G or the room for other work admits
becomes an operation of its port, with the instants of the port's table. RPORT_RSP for no CCW is counted in LOST; in time for
the CCW that waits for it, it gives the CCW its bytes and, once they are placed, ends it, which without bytes to store sets its
residual, DSTAT and, for a STAGE, its frame, and completes it with the status; PROTECTION_CHECK is counted in DENIED. MAIL acts
by its kind: JOIN, BLOCKS at a node that is not master, QUERY, REPLY, and RELEASE, which drops the reservation (R346, R357,
R358, R359, R360, R361, R366). -/
def Obligations.Link_remote_work : Prop :=
  (∀ (s : State) (src : Nat) (sag : Nat) (cls : Nat) (tag : Nat) (fr : Nat) (cb : List Byte) (d : List Byte),
     s.power.porst = false → Instr.wf (.rportReq src sag cls tag fr cb d) = true → s.inserted = true →
     src ≠ s.lnk.node → (s.remoteOf (remoteNum src tag)).isSome = false → s.kiln.run = false →
     exec (.rportReq src sag cls tag fr cb d) s = .next (finish s (
       s.sendRsp src tag cls .linkUnreachable 0 0 s.kiln.frame []))) ∧
  (∀ (s : State) (src : Nat) (sag : Nat) (cls : Nat) (tag : Nat) (fr : Nat) (cb : List Byte) (d : List Byte) (c : Ccw),
     s.power.porst = false → Instr.wf (.rportReq src sag cls tag fr cb d) = true → s.inserted = true →
     src ≠ s.lnk.node → (s.remoteOf (remoteNum src tag)).isSome = false → s.kiln.run = true →
     c = { Ccw.ofBytes (padTo 16 cb) with flags := 0 } →
     s.remoteRight src sag c = false ∨ (portKind c.port ≤ 3 ∧ s.portShared c.port = true) →
     exec (.rportReq src sag cls tag fr cb d) s = .next (finish s (
       s.sendRsp src tag cls .protectionCheck 0 0 s.kiln.frame []))) ∧
  (∀ (s : State) (src : Nat) (sag : Nat) (cls : Nat) (tag : Nat) (fr : Nat) (cb : List Byte) (d : List Byte) (c : Ccw) (n : Nat) (ls : Nat) (u : State) (o : PortOp),
     s.power.porst = false → Instr.wf (.rportReq src sag cls tag fr cb d) = true → s.inserted = true →
     src ≠ s.lnk.node → n = remoteNum src tag → (s.remoteOf n).isSome = false → s.kiln.run = true →
     c = { Ccw.ofBytes (padTo 16 cb) with flags := 0 } → s.remoteRight src sag c = true →
     ¬ (portKind c.port ≤ 3 ∧ s.portShared c.port = true) → cls = 0 ∨ s.remoteRoom = true →
     c.op = 0x01 ∨ c.op = 0x02 ∨ c.op = 0x04 ∨ c.op = 0x05 →
     ls = (((s.grantOf src sag).map fun e => (s.grant e).lsag).getD 0) →
     u = (s.tick1.updLnk fun l => { l with remotes := l.remotes ++ [{ src := src, tag := tag, cls := cls, sch := n, sag := ls, frame := s.kiln.frame }] }) →
     u.portStep2 n c = true →
     o =
         { seq := u.serial, respNs := u.respNs c.port, byteNs := u.byteNs c.port, turnNs := u.turnNs c.port
           ovhNs := u.ovhNs c.port, ccw := c, port := c.port, node := u.lnk.node, phase := .queued, tx := d, t0 := u.clk } →
     exec (.rportReq src sag cls tag fr cb d) s = .next (finish s (
       (u.setSch n { state := .waiting, op := some o }).work))) ∧
  (∀ (s : State) (src : Nat) (tag : Nat) (st : Nat) (ds : BitVec 16) (res : Nat) (fr : Nat) (d : List Byte),
     s.power.porst = false → Instr.wf (.rportRsp src tag st ds res fr d) = true → (s.sch (tag % 256)).op = none →
     exec (.rportRsp src tag st ds res fr d) s = .next (finish s (
       s.updPeer src fun p => { p with lost := sat16 p.lost }))) ∧
  (∀ (s u v : State) (src tag st : Nat) (ds : BitVec 16) (res fr : Nat) (d b : List Byte) (o q : PortOp),
     s.power.porst = false → Instr.wf (.rportRsp src tag st ds res fr d) = true → (s.sch (tag % 256)).op = some o →
     o.phase = .remote → o.node = src → o.seq = tag / 256 → o.remoteSt = none → s.clk < o.deadline →
     u = (if Status.ofCode st = .protectionCheck then s.updPeer src fun p => { p with denied := sat16 p.denied } else s) →
     b = (if o.ccw.op = 0x04 ∧ o.ccw.port = 0x1FF then u.ownCounters (tag % 256) d else d) →
     v = (u.updOp (tag % 256) fun o =>
       { o with rx := b, rxCount := b.length, remoteSt := some (Status.ofCode st, ds, res, fr) }).coverRx (tag % 256) →
     (v.sch (tag % 256)).op = some q → q.rxPlaced = true →
     exec (.rportRsp src tag st ds res fr d) s = .next (finish s (v.remoteEnd (tag % 256) q))) ∧
  (∀ (s : State) (n : Nat) (o : PortOp) (st : Status) (ds : BitVec 16) (res fr : Nat),
     o.remoteSt = some (st, ds, res, fr) → o.ccw.stores = false ∨ o.rx = [] →
     s.remoteEnd n o = ((s.updSch n fun x =>
       { x with
         residual := w32 res, dstat := ds
         applyFrame := if o.ccw.op == 0x0A && st == .ok then BitVec.ofNat 16 (fr + 1) else x.applyFrame
         stageTicks := if o.ccw.op == 0x0A && st == .ok then 0 else x.stageTicks, op := none }).opDone n o st).work) ∧
  (∀ (s : State) (m : MailMsg),
     s.power.porst = false → Instr.wf (.mail m) = true → s.inserted = true →
     exec (.mail m) s = .next (finish s
       (match m with
        | .join n size quota hopsA hopsB dlyA dlyB mcap => s.mailJoin n size quota hopsA hopsB dlyA dlyB mcap
        | .blocks gen sizes => if s.lnk.master then s else s.takeBlocks gen sizes
        | .query src sag sq depth cells ports => s.mailQuery src sag sq depth cells ports
        | .reply src sq reason sums => s.mailReply src sq reason sums
        | .release src sq =>
          (s.updLnk fun l => { l with resvs := l.resvs.filter fun r => !(r.src == src && r.sq == sq) }).refigure)))

/-- While the frame generator runs, ROTATION in slice 15 of a frame whose number is 127 modulo 128, not taken in that frame
before, rotation neither disabled nor halted, no processor fault of this instant, at least two tested spares: the logical
processor (number mod 4,096) / 128 moves to the spare that has been one the longest, and the unit it leaves is TESTING.
ROTATION_TEST_END of a unit in test makes it a spare (PASSED), or retires it with a record (kind 3) and MARGIN_DEC.
PROCESSOR_FAULT of a processor that has a unit moves it to a spare, or fails it; a struck program that is ACTIVE, WAITING or
HALTING ends first, with MIGRATED_ABORT (R375, R376, R378, R379, R385, R387). -/
def Obligations.Rotation_and_processor_faults : Prop :=
  (∀ (s : State) (f : Word) (e : Nat) (r : Nat) (u : State),
     s.power.porst = false → f = s.kiln.frame → s.kiln.frameRuns = true → s.kiln.run = true → s.kiln.slice = 15 →
     f.toNat % 128 = 127 → s.health.rotFrame ≠ some f → s.health.rotDis = false → s.health.rotHalted = false →
     s.health.faultAt ≠ some s.clk →
     u = (s.updHealth fun h => { h with rotFrame := some f }) → 2 ≤ (u.testedSpares 0).length →
     u.unitOf 0 (f.toNat % 4096 / 128) = some e → u.nextSpare 0 = some r →
     exec .rotation s = .next (finish s
       ((u.setUnit r { u.unit r with state := .active, logical := f.toNat % 4096 / 128 }).setUnit e
         { u.unit e with state := .testing, logical := 0xFF, tested := false, last := (u.unit e).logical }))) ∧
  (∀ (s : State) (e : Nat) (w : Nat),
     s.power.porst = false → Instr.wf (.rotationTestEnd e .passed w) = true → e < 36 → (s.unit e).state = .testing →
     ∃ u, u = s.measured e w ∧ exec (.rotationTestEnd e .passed w) s = .next (finish s (u.setUnit e
       { u.unit e with state := .spare, tested := true, tests := ((u.unit e).tests + 1) % 2 ^ 32, spareSince := u.clk }))) ∧
  (∀ (s : State) (e : Nat) (w : Nat) (r : UnitTest),
     s.power.porst = false → Instr.wf (.rotationTestEnd e r w) = true → e < 36 → (s.unit e).state = .testing →
     r ≠ .passed →
     ∃ u, u = s.measured e w ∧ exec (.rotationTestEnd e r w) s = .next (finish s
       (((u.retire e).record 3 0 (if r = .failedLogic then 1 else 2) (u.unit e).last e 0 0).marginDec 0 e))) ∧
  (∀ (s : State) (cp : Nat) (v : State) (ok : Bool),
     s.power.porst = false → cp < 32 → (s.unitOf 0 cp).isSome = true →
     (s.updHealth fun h => { h with faultAt := some s.clk }).faultUnit 0 cp 3 = (ok, v) →
     exec (.processorFault cp none) s = .next (finish s (if ok then v else v.processorFailed cp))) ∧
  (∀ (s u : State) (cp : Nat) (n : Nat) (v : State) (ok : Bool),
     s.power.porst = false → cp < 32 → n < 256 → n / 8 = cp → (s.unitOf 0 cp).isSome = true →
     (s.sch n).state = .active ∨ (s.sch n).state = .waiting ∨ (s.sch n).state = .halting →
     u = s.stopProgram n .migratedAbort →
     (u.updHealth fun h => { h with faultAt := some u.clk }).faultUnit 0 cp 3 = (ok, v) →
     exec (.processorFault cp (some n)) s = .next (finish s (if ok then v else v.processorFailed cp)))

/-- BM_BURST_FAULT on a channel in RUN or ABORTING gives it a spare, the buffer ending with MIGRATED_ABORT when the write had
been issued; without a spare the channel fails, its buffer and every MOVE that waits for it ending with REPAIR_EXHAUSTED.
SLICE_FAULT on a serial port that has not failed and whose line is idle counts the bytes of its transmit FIFO in DROPS, empties
the line and gives it a spare, or marks it failed, and frees the line. LOCAL_STORE_SCRUB does nothing to a clean unit, counts a
corrected one, counts a hard one and spares its row, and counts, poisons and spares the row of an uncorrectable one that is not
poisoned; the last unit counts a pass (R380, R382, R383, R384, R385). -/
def Obligations.Faults_of_channels_slices_rows : Prop :=
  (∀ (s : State) (ch : Nat) (wr : Bool) (v : State),
     s.power.porst = false → ch < 16 → (s.bm ch).state = .run ∨ (s.bm ch).state = .aborting →
     s.faultUnit 1 ch 7 = (true, v) →
     exec (.bmBurstFault ch wr) s = .next (finish s (if wr then v.bmEnd ch .migratedAbort else v))) ∧
  (∀ (s : State) (ch : Nat) (wr : Bool) (v : State),
     s.power.porst = false → ch < 16 → (s.bm ch).state = .run ∨ (s.bm ch).state = .aborting →
     s.faultUnit 1 ch 7 = (false, v) →
     exec (.bmBurstFault ch wr) s = .next (finish s
       (((v.updBm ch fun b => { b with failed := true, waiters := [] }).bmEnd ch .repairExhausted).endMoves
         ((v.bm ch).movers.filter fun m => some m.1 != (v.bm ch).mover) .repairExhausted))) ∧
  (∀ (s : State) (p : Nat) (b : Bool) (ok : Bool) (u : State) (v : State),
     s.power.porst = false → p < 512 → portKind p = 1 → (s.port p).failed = false → (s.port p).lineBusy = none →
     u = (s.updPort p fun x => { x with drops := satAdd 65535 x.drops x.tx.length }) →
     (u.stopLine p).faultUnit 3 p 8 = (ok, v) →
     exec (.sliceFault p b) s = .next (finish s (
       ((if ok then v else v.updPort p fun x => { x with failed := true }).freeLine p).work))) ∧
  (∀ (s : State) (n : Nat) (f : EccFound) (u : State),
     s.power.porst = false → Instr.wf (.localStoreScrub n f) = true →
     u = (match f with
         | .clean => s
         | .corrected => s.countCorrected n
         | .hard => (s.countCorrected n).spareRow (8 * n) 4
         | .uncorrectable => if s.ls.poison.contains n then s else
             ((s.updHealth fun h => { h with luncorr := sat8 h.luncorr }).poisonUnit n).spareRow (8 * n) 5) →
     exec (.localStoreScrub n f) s = .next (finish s (
       if n = 2097151 then u.updHealth fun h => { h with scrubs := (h.scrubs + 1) % 256 } else u)))

/-- With HOT and OVER both 0, TEMP records the reading and its peak, and reports it at TWARN (detail 0) or, below TWARN, at the
grade's limit (detail 1); with HOT alone set, a reading 2 °C or more under TWARN and below the limit clears it (detail 2). VOLT
records a rail, keeps whether it is outside its window, sets its VFLT bit when it goes out, and reports its going below (0),
above (1) and its return (2). REPAIR_RECORD_WRITE with a record waiting and no such write under way puts the write of the oldest
one, into its folio of namespace 0, into the queue of the array; FOLIO_OP_END ends it (R386, R387, R389, R390). -/
def Obligations.Health_measurements : Prop :=
  (∀ (s : State) (t : Int) (u : State),
     s.power.porst = false → Instr.wf (.temp t) = true → s.health.hot = false → s.health.overTemp = false →
     u = (s.updHealth fun h => { h with tempNow := t, tempPeak := max h.tempPeak (Int.fdiv t 8) }) →
     t < 8 * s.health.twarn → t < s.gradeLimit →
     exec (.temp t) s = .next (finish s (u))) ∧
  (∀ (s : State) (t : Int) (u : State),
     s.power.porst = false → Instr.wf (.temp t) = true → s.health.hot = false → s.health.overTemp = false →
     u = (s.updHealth fun h => { h with tempNow := t, tempPeak := max h.tempPeak (Int.fdiv t 8) }) →
     8 * s.health.twarn ≤ t → t < s.gradeLimit →
     exec (.temp t) s = .next (finish s ((u.updHealth fun h => { h with hot := true }).tempEvent 0 t))) ∧
  (∀ (s : State) (t : Int) (u : State),
     s.power.porst = false → Instr.wf (.temp t) = true → s.health.hot = true → s.health.overTemp = false →
     u = (s.updHealth fun h => { h with tempNow := t, tempPeak := max h.tempPeak (Int.fdiv t 8) }) →
     t ≤ 8 * s.health.twarn - 16 → t < s.gradeLimit →
     exec (.temp t) s = .next (finish s (
       (u.updHealth fun h => { h with hot := false, overTemp := false }).tempEvent 2 t))) ∧
  (∀ (s : State) (t : Int) (u : State),
     s.power.porst = false → Instr.wf (.temp t) = true → s.health.hot = false → s.health.overTemp = false →
     u = (s.updHealth fun h => { h with tempNow := t, tempPeak := max h.tempPeak (Int.fdiv t 8) }) →
     t < 8 * s.health.twarn → s.gradeLimit ≤ t →
     exec (.temp t) s = .next (finish s ((u.updHealth fun h => { h with overTemp := true }).tempEvent 1 t))) ∧
  (∀ (s : State) (r : Nat) (mv : Nat) (lo : Nat) (hi : Nat) (out : Bool) (u : State),
     s.power.porst = false → Instr.wf (.volt r mv) = true → railWindow r = (lo, hi) →
     out = decide (mv < lo ∨ hi < mv) →
     u = (s.updHealth fun h =>
           { h with
             rails := h.rails.set 0 r mv, vout := setBit h.vout r out,
             vflt := if out && !bit s.health.vout r then setBit h.vflt r true else h.vflt }) →
     exec (.volt r mv) s = .next (finish s
       (if out && !bit s.health.vout r then u.voltEvent r (if mv < lo then 0 else 1) mv
        else if bit s.health.vout r && !out then u.voltEvent r 2 mv else u))) ∧
  (∀ (s : State) (r : List Byte) (l : List (List Byte)),
     s.power.porst = false → s.health.recBuf = r :: l → (s.jrn.jobs.all fun j => j.who != .record) = true →
     exec .repairRecordWrite s = .next (finish s ((s.tick1.updJrn fun j =>
       { j with
         nextJob := j.nextJob + 1
         jobs := j.jobs ++ [{
           id := j.nextJob, who := .record, sag := 0, rank := 2, opc := 0, nsid := 0, folio := recordFolio (leAt r 0 4)
           nfol := 1, total := 1, ready := true, seq := s.tick1.serial, found := none }] }).jrnWork)))

/-- PORST_N_ASSERT and BROWN_OUT outside a reset settle the journal store and do the cold reset. PORST_N_RELEASE starts the
model's clock and STIME at 0 and, unless TEST_MODE is high, begins the bisque. TEST_MODE going high ends READY and any bisque.
WARM_N_ASSERT with the pin high begins a warm reset; WARM_N_RELEASE with it low runs it. BISQUE_END of a bisque does its work
(tests, march, zeroing, assignment of the units), loads the image when AUTOLOAD says so, sets STEP 0xFF and READY, and lets the
waiting admin queues start. JTAG_INSTRUCTION takes the codes 0 to 3 as they are (0 and 1 with what was scanned into the boundary
register) and every other code as BYPASS (R28, R454, R456, R457, R458, R460, R461, R469, R488). -/
def Obligations.Resets_and_bisque : Prop :=
  (∀ (s : State),
     s.power.porst = false →
     exec .porstNAssert s = .next (finish s ((s.journalLoss false).coldReset false))) ∧
  (∀ (s : State),
     s.power.porst = false →
     exec .brownOut s = .next (finish s ((s.journalLoss true).coldReset true))) ∧
  (∀ (s : State),
     s.power.porst = true →
     exec .porstNRelease s = .next (finish s
       { s with
         clk := 0, stime := 0
         power := { s.power with
           porst := false, brownOut := false, bisque := !s.power.testMode, bisqueWarm := false, stepAt := 0 }
         dev := { s.dev with step := if s.power.testMode then 0 else 1 } })) ∧
  (∀ (s : State) (b : Bool),
     b = true →
     exec (.testMode b) s = .next (finish s
       { s with
         power := { s.power with testMode := true, bisque := false }
         dev := { s.dev with ready := false, step := 0 } })) ∧
  (∀ (s : State) (b : Bool),
     b = false →
     exec (.testMode b) s = .next (finish s ({ s with power := { s.power with testMode := false } }))) ∧
  (∀ (s : State),
     s.power.porst = false → s.power.warmPin = false →
     exec .warmNAssert s = .next (finish s (s.warmBegin true))) ∧
  (∀ (s : State),
     s.power.porst = false → s.power.warmPin = true →
     exec .warmNRelease s = .next (finish s (s.warmRun))) ∧
  (∀ (s : State) (u : State) (v : State) (w : State),
     s.power.porst = false → s.power.bisque = true →
     u = s.bisqueWork →
     v = (if u.dev.autoload then u.autoloadStep else u) →
     w =
         { v with
           power := { v.power with bisque := false, bisqueWarm := false },
           dev := { v.dev with step := 0xFF, ready := true, bisqueFail := v.health.failMap != 0 } } →
     exec .bisqueEnd s = .next (finish s (
       ((w.fns.filter fun e => e.2.enHeld).foldl (fun s e => s.admTryEnable e.1) w).shpRefresh.jrnWork.work))) ∧
  (∀ (s : State) (l : JtagLoad),
     l.ir.toNat < 2 →
     exec (.jtagInstruction l) s = .next (finish s { s with power := { s.power with
       jtagIr := l.ir, boundary := l.scan.getD s.power.boundary } })) ∧
  (∀ (s : State) (l : JtagLoad),
     2 ≤ l.ir.toNat → l.ir.toNat < 4 →
     exec (.jtagInstruction l) s = .next (finish s { s with power := { s.power with jtagIr := l.ir } })) ∧
  (∀ (s : State) (l : JtagLoad),
     4 ≤ l.ir.toNat →
     exec (.jtagInstruction l) s = .next (finish s { s with power := { s.power with jtagIr := 0b111111 } }))

/-- PE_PERST_N_ASSERT with the pin high and outside PORST_N treats and resets every enabled function, clears the AER status and
leaves configuration space at its reset; PE_PERST_N_RELEASE lets the pin go high. DL_DOWN with the link up treats every enabled
function and keeps configuration space; DL_UP outside PERST brings the link up. After READY, FLR of an enabled function is FLR
(of the PF, of every enabled function), D3HOT treats a function that is not in D3hot and puts it there, VF_ENABLE with the link
up takes NumVFs and VF Enable. CONFIG_REQUEST with the link up gives no completion before READY; after it a read gives the
register, or all ones for a function that is not enabled, and a write to an enabled function writes its register. MALFORMED_TLP
with the link up sets bit 18, 19 or 20 of the AER status of every enabled function; a poisoned write to BAR0 sets bit 12 of its
function and is counted in DEV_ERR.HOST (R433, R434, R435, R438). -/
def Obligations.Pci_express_events : Prop :=
  (∀ (s : State),
     s.pcie.perst = false → s.power.porst = false →
     exec .pePerstNAssert s = .next (finish s
       { s.treatAll true with
         pcie := { perst := true }, fns := (s.treatAll true).fns.map fun e => (e.1, { e.2 with aer := 0 }) })) ∧
  (∀ (s : State),
     exec .pePerstNRelease s = .next (finish s ({ s with pcie := { s.pcie with perst := false } }))) ∧
  (∀ (s : State),
     s.power.porst = false → s.pcie.linkUp = true →
     exec .dlDown s = .next (finish s
       { s.treatAll false with pcie := { (s.treatAll false).pcie with linkUp := false } })) ∧
  (∀ (s : State),
     s.power.porst = false → s.pcie.perst = false →
     exec .dlUp s = .next (finish s ({ s with pcie := { s.pcie with linkUp := true } }))) ∧
  (∀ (s : State) (f : Nat),
     s.power.porst = false → f < 64 → s.fnOn f = true → s.dev.ready = true →
     exec (.flr f) s = .next (finish s (s.initiateFlr f))) ∧
  (∀ (s : State) (f : Nat),
     s.power.porst = false → f < 64 → s.fnOn f = true → s.dev.ready = true → (s.fn f).d3 = false →
     exec (.d3hot f) s = .next (finish s ((s.flrTreat f).updFn f fun f => { f with d3 := true }))) ∧
  (∀ (s : State) (n : Nat) (b : Bool),
     s.power.porst = false → n < 64 → s.pcie.linkUp = true → s.dev.ready = true →
     exec (.vfEnable n b) s = .next (finish s (s.setVfs n b))) ∧
  (∀ (s : State) (r : CfgReq),
     s.power.porst = false → Instr.wf (.configRequest r) = true → s.pcie.linkUp = true → s.dev.ready = false →
     exec (.configRequest r) s = .next (finish s ({ s with pcie := { s.pcie with cfgReply := none } }))) ∧
  (∀ (s : State) (f : Nat) (o : Nat),
     s.power.porst = false → Instr.wf (.configRequest (.read f o)) = true → s.pcie.linkUp = true →
     s.dev.ready = true →
     exec (.configRequest (.read f o)) s = .next (finish s
       { s with pcie := { s.pcie with cfgReply := some (if s.fnOn f then s.cfgRead f (o / 4 * 4) else 0xFFFFFFFF) } })) ∧
  (∀ (s : State) (f : Nat) (o : Nat) (w : Word),
     s.power.porst = false → Instr.wf (.configRequest (.write f o w)) = true → s.pcie.linkUp = true →
     s.dev.ready = true → s.fnOn f = true →
     ∃ u, u = s.cfgWrite f (o / 4 * 4) w ∧
     exec (.configRequest (.write f o w)) s = .next (finish s { u with pcie := { u.pcie with cfgReply := some 0 } })) ∧
  (∀ (s : State) (t : BadTlp) (k : Nat),
     s.power.porst = false → Instr.wf (.malformedTlp t) = true → s.pcie.linkUp = true →
     (t, k) ∈ [(BadTlp.malformed, 18), (.ecrc, 19), (.unsupported, 20)] →
     exec (.malformedTlp t) s = .next (finish s (s.enabledFns.foldl (fun s f => s.aer f k) s))) ∧
  (∀ (s : State) (f : Nat),
     s.power.porst = false → f < 64 → s.pcie.linkUp = true → s.barOn f = true →
     exec (.malformedTlp (.poisonedBar0Write f)) s = .next (finish s ((s.aer f 12).errHost)))

/-- A request with its command's code and length and a right CRC, to an enabled port: STATUS answers its block and clears
CTL_DONE; COMPLETE with n from 1 to 8 pops up to n completions. To a port that serves its saggar: SUBMIT with a free tag up to
31, neither in error nor in QRESET, queues its entry, after a heartbeat loss that is due; EVENTS with n from 1 to 8 pops up to n
events and reports a lost count; LS_WRITE writes a range that R445 allows, LS_READ reads one without poison; HEARTBEAT beats,
after a loss that is due; IDENTIFY answers the block with its SQ and CQ grants 0 (R384, R444, R445, R446, R447, R449). -/
def Obligations.Slim_port_requests : Prop :=
  (∀ (s : State) (req : List Byte) (t : State) (a : List Byte),
     s.power.porst = false → s.shp.en = true → leAt req 0 1 = 0x10 → shpLength req = some req.length →
     crc8 req.dropLast = req.getLastD 0 → t = (s.updShp fun p => { p with response := [] }) →
     a = (req.drop 1).dropLast →
     exec (.shpStatus req) s = .next (finish s (
       (t.updShp fun p => { p with ctlDone := false }).shpAck t.shpBlock))) ∧
  (∀ (s : State) (req : List Byte) (t : State) (a : List Byte),
     s.power.porst = false → s.shp.en = true → leAt req 0 1 = 0x11 → shpLength req = some req.length →
     crc8 req.dropLast = req.getLastD 0 → t = (s.updShp fun p => { p with response := [] }) →
     a = (req.drop 1).dropLast → s.shp.active = true → t.shp.error = false → leAt a 2 2 ≤ 31 →
     t.shpTags.contains (leAt a 2 2) = false → t.shp.qresetting = false →
     exec (.shpSubmit req) s = .next (finish s (
       ((t.hbLose t.shp.sag).updShp fun p => { p with waiting := p.waiting ++ [a] }).shpAck []))) ∧
  (∀ (s : State) (req : List Byte) (t : State) (a : List Byte),
     s.power.porst = false → s.shp.en = true → leAt req 0 1 = 0x12 → shpLength req = some req.length →
     crc8 req.dropLast = req.getLastD 0 → t = (s.updShp fun p => { p with response := [] }) →
     a = (req.drop 1).dropLast → 1 ≤ leAt a 0 1 → leAt a 0 1 ≤ 8 →
     exec (.shpComplete req) s = .next (finish s (
       (t.updShp fun p => { p with comps := p.comps.drop (leAt a 0 1) }).shpAck
       (leBytes 1 (t.shp.comps.take (leAt a 0 1)).length ++ (t.shp.comps.take (leAt a 0 1)).flatten)))) ∧
  (∀ (s : State) (req : List Byte) (t : State) (a : List Byte),
     s.power.porst = false → s.shp.en = true → leAt req 0 1 = 0x13 → shpLength req = some req.length →
     crc8 req.dropLast = req.getLastD 0 → t = (s.updShp fun p => { p with response := [] }) →
     a = (req.drop 1).dropLast → s.shp.active = true → 1 ≤ leAt a 0 1 → leAt a 0 1 ≤ 8 →
     exec (.shpEvents req) s = .next (finish s (
       (State.evqOverflow (t.updShp fun p => { p with events := p.events.drop (leAt a 0 1) }) t.shp.sag).shpAck
       (leBytes 1 (t.shp.events.take (leAt a 0 1)).length ++ (t.shp.events.take (leAt a 0 1)).flatten)))) ∧
  (∀ (s : State) (req : List Byte) (t : State) (a : List Byte),
     s.power.porst = false → s.shp.en = true → leAt req 0 1 = 0x14 → shpLength req = some req.length →
     crc8 req.dropLast = req.getLastD 0 → t = (s.updShp fun p => { p with response := [] }) →
     a = (req.drop 1).dropLast → s.shp.active = true → t.shpRange (leAt a 0 3) (leAt a 3 2) true = none →
     exec (.lsWrite req) s = .next (finish s ((t.lsWrite t.shp.sag (leAt a 0 3) (a.drop 5)).shpAck []))) ∧
  (∀ (s : State) (req : List Byte) (t : State) (a : List Byte),
     s.power.porst = false → s.shp.en = true → leAt req 0 1 = 0x15 → shpLength req = some req.length →
     crc8 req.dropLast = req.getLastD 0 → t = (s.updShp fun p => { p with response := [] }) →
     a = (req.drop 1).dropLast → s.shp.active = true → t.shpRange (leAt a 0 3) (leAt a 3 2) false = none →
     t.lsPoisoned t.shp.sag (leAt a 0 3) (leAt a 3 2) = false →
     exec (.lsRead req) s = .next (finish s (t.shpAck (t.lsRead t.shp.sag (leAt a 0 3) (leAt a 3 2))))) ∧
  (∀ (s : State) (req : List Byte) (t : State) (a : List Byte),
     s.power.porst = false → s.shp.en = true → leAt req 0 1 = 0x16 → shpLength req = some req.length →
     crc8 req.dropLast = req.getLastD 0 → t = (s.updShp fun p => { p with response := [] }) →
     a = (req.drop 1).dropLast → s.shp.active = true →
     exec (.shpHeartbeat req) s = .next (finish s ((t.hbBeat t.shp.sag).shpAck []))) ∧
  (∀ (s : State) (req : List Byte) (t : State) (a : List Byte),
     s.power.porst = false → s.shp.en = true → leAt req 0 1 = 0x1B → shpLength req = some req.length →
     crc8 req.dropLast = req.getLastD 0 → t = (s.updShp fun p => { p with response := [] }) →
     a = (req.drop 1).dropLast → s.shp.active = true →
     exec (.shpIdentify req) s = .next (finish s (t.shpAck (patch (t.identifyBlock t.shp.sag) 192 (zeros 64)))))

/-- A good SETUP, PAGES, NS or QRESET request, while no control command runs (SETUP: while no tag is in use), is accepted and
runs in the background; QRESET also takes its first step, which stops the queue. SHP_CONTROL_DONE, while no table check runs and
nothing that began earlier still changes shared state, ends a SETUP with the reservation, lets PAGES map or free, and NS create
or delete; a QRESET whose programs and media accesses have ended completes every entry left with ABORTED and clears the error
state (R154, R155, R159, R424, R446, R450). -/
def Obligations.Slim_port_control : Prop :=
  (∀ (s : State) (req : List Byte) (t : State) (a : List Byte),
     s.power.porst = false → s.shp.en = true → leAt req 0 1 = 0x17 → shpLength req = some req.length →
     crc8 req.dropLast = req.getLastD 0 → t = (s.updShp fun p => { p with response := [] }) →
     a = (req.drop 1).dropLast → s.shp.active = true → t.shp.ctl = none → t.shpTags = [] →
     exec (.shpSetup req) s = .next (finish s (
       (t.updShp fun p => { p with ctl := some { cmd := 0x17, req := a } }).shpAck []))) ∧
  (∀ (s : State) (req : List Byte) (t : State) (a : List Byte),
     s.power.porst = false → s.shp.en = true → leAt req 0 1 = 0x18 → shpLength req = some req.length →
     crc8 req.dropLast = req.getLastD 0 → t = (s.updShp fun p => { p with response := [] }) →
     a = (req.drop 1).dropLast → s.shp.active = true → t.shp.ctl = none →
     exec (.shpPages req) s = .next (finish s (
       (t.updShp fun p => { p with ctl := some { cmd := 0x18, req := a } }).shpAck []))) ∧
  (∀ (s : State) (req : List Byte) (t : State) (a : List Byte),
     s.power.porst = false → s.shp.en = true → leAt req 0 1 = 0x19 → shpLength req = some req.length →
     crc8 req.dropLast = req.getLastD 0 → t = (s.updShp fun p => { p with response := [] }) →
     a = (req.drop 1).dropLast → s.shp.active = true → t.shp.ctl = none →
     exec (.shpNs req) s = .next (finish s (
       (t.updShp fun p => { p with ctl := some { cmd := 0x19, req := a } }).shpAck []))) ∧
  (∀ (s : State) (req : List Byte) (t : State) (a : List Byte),
     s.power.porst = false → s.shp.en = true → leAt req 0 1 = 0x1A → shpLength req = some req.length →
     crc8 req.dropLast = req.getLastD 0 → t = (s.updShp fun p => { p with response := [] }) →
     a = (req.drop 1).dropLast → s.shp.active = true → t.shp.ctl = none →
     exec (.shpQreset req) s = .next (finish s (
       ((t.updShp fun p => { p with ctl := some { cmd := 0x1A, req := a } }).shpAck []).shpStop))) ∧
  (∀ (s : State) (c : ShpCtl),
     s.power.porst = false → s.shp.ctl = some c → c.cmd = 0x17 → s.msp.busy = none → s.sharedHeld = false →
     exec .shpControlDone s = .next (finish s (s.shpReserve (leAt c.req 0 1) (leAt c.req 1 1) (leAt c.req 2 1)))) ∧
  (∀ (s : State) (c : ShpCtl),
     s.power.porst = false → s.shp.ctl = some c → c.cmd = 0x18 → s.msp.busy = none → s.sharedHeld = false →
     exec .shpControlDone s = .next (finish s (s.shpPagesStep c.req))) ∧
  (∀ (s : State) (c : ShpCtl),
     s.power.porst = false → s.shp.ctl = some c → c.cmd = 0x19 → s.msp.busy = none → s.sharedHeld = false →
     exec .shpControlDone s = .next (finish s (s.shpNsStep c.req))) ∧
  (∀ (s : State) (c : ShpCtl) (l : List Entry),
     s.power.porst = false → s.shp.ctl = some c → c.cmd = 0x1A →
     ((s.schsOf .shp).any fun n => (s.sch n).state != .idle) = false → (s.shp.entries.any s.shpOnMedia) = false →
     l = (s.shp.entries.map fun e => { e with phase := .ended .aborted }) ++
           s.shp.waiting.map (fun bs =>
             if isJrnOp bs && !jrnBad bs false then jrnEntry bs { s.blankEntry 0 (leAt bs 2 2) with phase := .ended .aborted }
             else { s.blankEntry 0 (leAt bs 2 2) with phase := .ended .aborted }) →
     exec .shpControlDone s = .next (finish s (State.shpDone (s.updShp fun p =>
       { p with comps := p.comps ++ l.map s.shpComp, entries := [], waiting := [], error := false, qresetting := false }) .ok 0)))

/-- ADM_CTL_ENABLE of a function that answers, with EN 0, after READY, its saggar enabled, not bound to the slim port, with
valid admin registers and nothing of its own being zeroed, sets EN and RDY and puts both rings at their start. ADM_CTL_DISABLE
of one with EN 1 clears EN, RDY following unless an admin command runs, and disarms the heartbeat (R138). -/
def Obligations.Admin_queue_enable : Prop :=
  (∀ (s : State) (f : Nat),
     s.power.porst = false → f < 64 → s.barOn f = true → s.dev.ready = true → (s.fn f).en = false →
     (s.sag f).en = true → s.shpBound f = false → (s.fn f).regsOk = true → s.zbusy f = 0 →
     exec (.admCtlEnable f) s = .next (finish s (s.updFn f fun x =>
       { x with
         en := true, enHeld := false, cfgErr := false, rdy := true
         sqHead := 0, sqTail := 0, loose := false, cqHead := 0, cqTail := 0, cqPhase := true }))) ∧
  (∀ (s : State) (f : Nat),
     s.power.porst = false → f < 64 → s.barOn f = true → (s.fn f).en = true →
     exec (.admCtlDisable f) s = .next (finish s ((s.updFn f fun x =>
       { x with en := false, enHeld := false, draining := x.running.isSome, rdy := x.rdy && x.running.isSome }).hbDisarm f)))

/-- A head doorbell of 4 or 8 bytes of an enabled saggar: an index in [head, tail], taken cyclically, becomes the head of the
admin CQ (a held completion following when there is room), of a CQ (what it held following) or of the event queue (a lost count
following when a slot became free); an index outside that range changes nothing but the ignored-access count of DEV_ERR and its
event bit (R117). -/
def Obligations.Head_doorbells : Prop :=
  (∀ (s : State) (f : Nat) (k : Nat) (v : DWord) (i : Nat),
     s.power.porst = false → f < 64 → s.barOn f = true → (s.sag f).en = true → i = fld v 0 16 → k = 4 ∨ k = 8 →
     (s.fn f).rdy = true → (s.fn f).heldAdmin = none →
     i < (s.fn f).cqn ∧ (i + (s.fn f).cqn - (s.fn f).cqHead) % (s.fn f).cqn ≤ ((s.fn f).cqTail + (s.fn f).cqn - (s.fn f).cqHead) % (s.fn f).cqn →
     exec (.cqHeadDoorbell f none k v) s = .next (finish s (s.updFn f fun x => { x with cqHead := i }))) ∧
  (∀ (s : State) (f : Nat) (k : Nat) (v : DWord) (i : Nat) (c : Cqe),
     s.power.porst = false → f < 64 → s.barOn f = true → (s.sag f).en = true → i = fld v 0 16 → k = 4 ∨ k = 8 →
     (s.fn f).rdy = true → (s.fn f).heldAdmin = some c → ringFull i (s.fn f).cqTail (s.fn f).cqn = false →
     i < (s.fn f).cqn ∧ (i + (s.fn f).cqn - (s.fn f).cqHead) % (s.fn f).cqn ≤ ((s.fn f).cqTail + (s.fn f).cqn - (s.fn f).cqHead) % (s.fn f).cqn →
     exec (.cqHeadDoorbell f none k v) s = .next (finish s ((s.updFn f fun x => { x with cqHead := i }).admWrite f c))) ∧
  (∀ (s : State) (f : Nat) (n : Nat) (k : Nat) (v : DWord) (i : Nat),
     s.power.porst = false → f < 64 → s.barOn f = true → (s.sag f).en = true → i = fld v 0 16 → k = 4 ∨ k = 8 →
     n < 256 → (s.cq n).exists_ = true → (s.cq n).fn = f →
     i < (s.cq n).n ∧ (i + (s.cq n).n - (s.cq n).head) % (s.cq n).n ≤ ((s.cq n).tail + (s.cq n).n - (s.cq n).head) % (s.cq n).n →
     exec (.cqHeadDoorbell f (some n) k v) s = .next (finish s (
       (s.updCq n fun x => { x with head := i }).cqDrain n (s.cq n).held.length))) ∧
  (∀ (s : State) (f : Nat) (k : Nat) (v : DWord) (i : Nat),
     s.power.porst = false → f < 64 → s.barOn f = true → (s.sag f).en = true → i = fld v 0 16 → k = 4 ∨ k = 8 →
     (s.fn f).evqOn = true → i ≠ (s.fn f).evqHead →
     i < (s.fn f).evqN ∧ (i + (s.fn f).evqN - (s.fn f).evqHead) % (s.fn f).evqN ≤ ((s.fn f).evqTail + (s.fn f).evqN - (s.fn f).evqHead) % (s.fn f).evqN →
     exec (.evqHeadDoorbell f k v) s = .next (finish s (
       (s.updFn f fun x => { x with evqHead := i }).evqOverflow f))) ∧
  (∀ (s : State) (f : Nat) (k : Nat) (v : DWord) (i : Nat),
     s.power.porst = false → f < 64 → s.barOn f = true → (s.sag f).en = true → i = fld v 0 16 → k = 4 ∨ k = 8 →
     (s.fn f).evqOn = true → i = (s.fn f).evqHead → i < (s.fn f).evqN →
     exec (.evqHeadDoorbell f k v) s = .next (finish s s)) ∧
  (∀ (s : State) (f : Nat) (k : Nat) (v : DWord) (i : Nat),
     s.power.porst = false → f < 64 → s.barOn f = true → (s.sag f).en = true → i = fld v 0 16 → k = 4 ∨ k = 8 →
     ¬ (i < (s.fn f).cqn ∧ (i + (s.fn f).cqn - (s.fn f).cqHead) % (s.fn f).cqn ≤ ((s.fn f).cqTail + (s.fn f).cqn - (s.fn f).cqHead) % (s.fn f).cqn) →
     exec (.cqHeadDoorbell f none k v) s = .next (finish s (s.errHost))) ∧
  (∀ (s : State) (f : Nat) (n : Nat) (k : Nat) (v : DWord) (i : Nat),
     s.power.porst = false → f < 64 → s.barOn f = true → (s.sag f).en = true → i = fld v 0 16 → k = 4 ∨ k = 8 →
     n < 256 →
     ¬ (i < (s.cq n).n ∧ (i + (s.cq n).n - (s.cq n).head) % (s.cq n).n ≤ ((s.cq n).tail + (s.cq n).n - (s.cq n).head) % (s.cq n).n) →
     exec (.cqHeadDoorbell f (some n) k v) s = .next (finish s (s.errHost))) ∧
  (∀ (s : State) (f : Nat) (k : Nat) (v : DWord) (i : Nat),
     s.power.porst = false → f < 64 → s.barOn f = true → (s.sag f).en = true → i = fld v 0 16 → k = 4 ∨ k = 8 →
     ¬ (i < (s.fn f).evqN ∧ (i + (s.fn f).evqN - (s.fn f).evqHead) % (s.fn f).evqN ≤ ((s.fn f).evqTail + (s.fn f).evqN - (s.fn f).evqHead) % (s.fn f).evqN) →
     exec (.evqHeadDoorbell f k v) s = .next (finish s (s.errHost)))

/-- For each of the 23 opcodes and the flags that Table 3.3 marks for it: a subchannel that is its processor's choice
and reaches a CCW of that opcode with any other flag set ends it with PROGRAM_CHECK, in the state that its dispatch
has begun, and nothing of the CCW's own effect happens (R48). -/
def Obligations.Flags_permitted : Prop :=
  ∀ (s : State) (n : Nat) (c : Ccw) (cmd : Instr) (op : Byte) (m : Byte),
    s.power.porst = false → n < 256 → s.chosen n = true → s.ccwAt n = .ok c →
    (cmd, op, m) ∈
          [(Instr.ccwWrite n, 0x01, 0b11110111), (.ccwRead n, 0x02, 0b11111111), (.ccwControl n, 0x03, 0b11110101), (.ccwSense n, 0x04, 0b11111101),
           (.ccwExchange n, 0x05, 0b11111101), (.ccwStage n, 0x0a, 0b01100001), (.ccwSnap n, 0x0b, 0b01100001), (.ccwMove n, 0x08, 0b01100001),
           (.ccwFence n, 0x09, 0b01100001), (.ccwNop n, 0x0f, 0b01100001), (.ccwTest n, 0x11, 0b01100001), (.ccwWaitt n, 0x12, 0b01100001),
           (.ccwWaitc n, 0x13, 0b01100001), (.ccwWaitf n, 0x14, 0b01100001), (.ccwLoop n, 0x15, 0b01100001), (.ccwSetc n, 0x16, 0b01100001),
           (.ccwPost n, 0x18, 0b01100001), (.ccwSignal n, 0x19, 0b01100001), (.ccwClaim n, 0x1c, 0b01100001), (.ccwRelease n, 0x1d, 0b01100001),
           (.ccwJappend n, 0x20, 0b01100001), (.ccwJump n, 0x10, 0), (.ccwColophon n, 0x7f, 0b01000000)] →
    c.op = op → c.flags &&& ~~~m ≠ 0 →
    exec cmd s = .next (finish s ((s.begun n c).ccwFail n c .programCheck))

/-- The CRC over no byte is 0, each further byte b takes crc to T[crc xor b], T is linear with the eight values of the
table-driven form of polynomial 0x07, the nine bytes "123456789" give 0xF4, a receiver that runs the CRC over any bytes followed
by their CRC obtains 0; a request of the management port with another CRC_Q, 100 ns or more after the one before, is answered
CRCERR, and every response carries the CRC of what precedes it (R415). -/
def Obligations.Checksum_of_the_ports : Prop :=
  crc8 [] = 0 ∧
  (∀ (l : List Byte) (b : Byte), crc8 (l ++ [b]) = crc8 [crc8 l ^^^ b]) ∧
  (∀ a b : Byte, crc8 [a ^^^ b] = crc8 [a] ^^^ crc8 [b]) ∧
  ([0x01, 0x02, 0x04, 0x08, 0x10, 0x20, 0x40, 0x80].map fun b => crc8 [b]) =
    [0x07, 0x0E, 0x1C, 0x38, 0x70, 0xE0, 0xC7, 0x89] ∧
  crc8 [0x31, 0x32, 0x33, 0x34, 0x35, 0x36, 0x37, 0x38, 0x39] = 0xF4 ∧
  (∀ l : List Byte, crc8 (l ++ [crc8 l]) = 0) ∧
  (∀ (s : State) (req : List Byte) (cmd k : Nat) (f : State → State),
    s.mspSilent = false → s.msp.nextAt ≤ s.clk → k + 1 = mspFrame req → k < req.length → crc8 (req.take k) ≠ req.getD k 0 →
    s.mspCommand cmd req f = State.mspBad (s.updMsp fun m => { m with nextAt := s.clk + 100, response := [] }) 1) ∧
  (∀ (s : State) (sts : Nat) (data : List Byte),
    (s.mspRespond sts data).msp.response = leBytes 1 sts ++ data ++ [crc8 (leBytes 1 sts ++ data)])

/-- A write of bytes to a saggar's view leaves every physical byte that no written place maps to as it was, and keeps
the memory in its canonical form; where every place is mapped and no two to one byte, a read of the range gives the
bytes written (R171, R172). -/
def Obligations.Local_store_writes : Prop :=
  ∀ (s : State) (sag off : Nat) (bs : List Byte),
    (∀ a : Nat, (∀ i, i < bs.length → s.phys sag (off + i) ≠ some a) →
      (s.lsWrite sag off bs).ls.mem.get 0 a = s.ls.mem.get 0 a) ∧
    (Memory.wf s = true → Memory.wf (s.lsWrite sag off bs) = true) ∧
    ((∀ i, i < bs.length → (s.phys sag (off + i)).isSome = true) →
      (∀ i j, i < bs.length → j < bs.length → s.phys sag (off + i) = s.phys sag (off + j) → i = j) →
      (s.lsWrite sag off bs).lsRead sag off bs.length = bs)

/-- For every command c, state s and queue rest: a step of s with c at the front of its queue is exec of c on s with
the queue's rest (log entry 1: the queue is the model's own). -/
def Obligations.Step_runs_the_front_command : Prop :=
  ∀ (c : Instr) (s : State) (rest : List Instr),
    step { s with pending := c :: rest } = exec c { s with pending := rest }

/-- For every command and every state: a well-formed command answers a next state whose queue is the one before; a
command that names a resource outside Table 1.4 answers the fault noSuchResource; no command is refused (R11; the
queue is the model's own, log entry 1). -/
def Obligations.Every_command_completes : Prop :=
  ∀ (c : Instr) (s : State),
    (c.wf = true → ∃ t, exec c s = .next t ∧ t.pending = s.pending) ∧
    (c.wf = false → exec c s = .fault .noSuchResource)

/-- From every state in which FAILSAFE_N, MSP_IRQ_N, SHP_IRQ_N, the trip lines, TICK_OUT, LK_INSERT, PE_CLKREQ_N and
the boundary cells stand at the levels that the rest of the state gives them, every step, of any command or of the
clock, that answers a next state leaves them so (R268, R270, R405, R407, R448, R488). -/
def Obligations.Pins_follow_the_state : Prop :=
  ∀ s t : State, s.pinsAgree = true → step s = .next t → t.pinsAgree = true

/-- State.reset has no command waiting, PORST_N asserted, READY clear, KILN_CTL.RUN clear, STIME zero, no page
mapped, no queue, no subchannel in use, no cause recorded, no error counted, FAILSAFE_N low, MSP_IRQ_N and SHP_IRQ_N
high, every trip line released, the local store empty in its canonical form; and its pins agree with it (R405, R407,
R453, R456). -/
def Obligations.Reset_state : Prop :=
  State.reset.pending = [] ∧ State.reset.power.porst = true ∧ State.reset.dev.ready = false ∧
  State.reset.kiln.run = false ∧ State.reset.stime = 0 ∧ State.reset.ls.view = [] ∧ State.reset.sqs = [] ∧
  State.reset.cqs = [] ∧ (∀ n, (State.reset.sch n).state = .idle) ∧ State.reset.dev.causes = [] ∧
  State.reset.dev.errHost = 0 ∧ State.reset.dev.errReg = 0 ∧ State.reset.dev.errMsp = 0 ∧ State.reset.dev.errLock = 0 ∧
  State.reset.pins.failsafeN = false ∧ State.reset.pins.mspIrqN = true ∧ State.reset.pins.shpIrqN = true ∧
  State.reset.pins.trip = 0 ∧ Memory.wf State.reset = true ∧ State.reset.pinsAgree = true

/-- In a state with PORST_N asserted every well-formed command leaves the state as it is, but for PORST_N and its
release, brown-out, TEST_MODE, PE_PERST_N and the JTAG instruction; and with no command waiting no time passes (R454,
R456; log entry 1). -/
def Obligations.Held_in_reset : Prop :=
  ∀ s : State, s.power.porst = true →
    (∀ c : Instr, c.wf = true →
      (match c with
       | .porstNAssert | .porstNRelease | .brownOut | .testMode _ | .pePerstNAssert | .pePerstNRelease | .jtagInstruction _ => False
       | _ => True) → exec c s = .next s) ∧
    (s.pending = [] → step s = .next s)

/-- Out of reset with an empty queue a step is one nanosecond of the reference: TRIM, while the source is INTERNAL or in
holdover, adds its parts in 10^9 to an account, and the station clock advances by one nanosecond, by two when the account
reaches 10^9 and by none when it reaches -10^9. For one nanosecond STIME advances by one, or while frames run with an offset
left to slew in by two or by none, of which at most 1,000 in a frame, the slew left shrinking by that nanosecond (R28, R29, R30;
that an empty queue lets a nanosecond pass is the model's choice, log entry 1). -/
def Obligations.Clock_advances : Prop :=
  ∀ (s : State) (acc : Int), s.pending = [] → s.power.porst = false →
    acc = s.kiln.trimAcc + (if s.kiln.src = 0 ∨ s.kiln.holdover = true then s.kiln.trim.toInt else 0) →
    ∃ t, step s = .next t ∧
    (-1000000000 < acc → acc < 1000000000 → t.clk = s.clk + 1 ∧ t.kiln.trimAcc = acc ∧
      ((t.stime = s.stime + 1 ∧ t.kiln = { s.kiln with trimAcc := acc }) ∨
       (s.kiln.frameRuns = true ∧ s.kiln.stimeUsed < 1000 ∧ t.kiln.stimeUsed = s.kiln.stimeUsed + 1 ∧
        ((0 < s.kiln.stimeSlew ∧ t.stime = s.stime + 2 ∧ t.kiln.stimeSlew = s.kiln.stimeSlew - 1) ∨
         (s.kiln.stimeSlew < 0 ∧ t.stime = s.stime ∧ t.kiln.stimeSlew = s.kiln.stimeSlew + 1))))) ∧
    (1000000000 ≤ acc → t.clk = s.clk + 2 ∧ t.kiln.trimAcc = acc - 1000000000) ∧
    (acc ≤ -1000000000 → t.clk = s.clk ∧ t.stime = s.stime ∧ t.kiln = { s.kiln with trimAcc := acc + 1000000000 })
end

