-- ==== Sys2Proof/Laws/Bits.lean ====
section
/-! SUPPORT. Bit fields: what a field reads after one bit is set or cleared, little-endian byte lists,
and saturating counts. -/

namespace Sys2Proof.Machine

theorem bit_setBit {w : Nat} (x : BitVec w) (i j : Nat) (b : Bool) :
    bit (setBit x i b) j = if j = i then b && decide (i < w) else bit x j := by
  have one : ∀ k, (BitVec.ofNat w (1 <<< i)).getLsbD k = (decide (k < w) && decide (k = i)) := by
    intro k
    rw [BitVec.getLsbD_ofNat, Nat.one_shiftLeft, Nat.testBit_two_pow]
    simp only [eq_comm]
  unfold bit setBit
  cases b
  · simp only [Bool.false_eq_true, if_false, BitVec.getLsbD_and, BitVec.getLsbD_not, one]
    by_cases h : j = i
    · subst h; simp
    · simp only [h, decide_false, Bool.and_false, Bool.not_false, Bool.and_true, if_false]
      by_cases hw : j < w
      · simp [hw]
      · simp [hw, BitVec.getLsbD_of_ge x j (by omega)]
  · simp only [if_true, BitVec.getLsbD_or, one, Bool.true_and]
    by_cases h : j = i
    · subst h
      by_cases hw : j < w
      · simp [hw]
      · simp [hw, BitVec.getLsbD_of_ge x j (by omega)]
    · simp [h]

/-- A field as a part of the word. -/
theorem fld_eq_extract {w : Nat} (x : BitVec w) (lo n : Nat) : fld x lo n = (x.extractLsb' lo n).toNat := rfl

/-- Setting or clearing a bit outside a part leaves the part as it was. -/
theorem extract_setBit {w : Nat} (x : BitVec w) (i lo n : Nat) (b : Bool) (h : i < lo ∨ lo + n ≤ i) :
    (setBit x i b).extractLsb' lo n = x.extractLsb' lo n := by
  apply BitVec.eq_of_getLsbD_eq
  intro k hk
  have := bit_setBit x i (lo + k) b
  rw [if_neg (by omega)] at this
  simp only [BitVec.getLsbD_extractLsb', hk, decide_true, Bool.true_and]
  exact this

theorem fld_setBit {w : Nat} (x : BitVec w) (i lo n : Nat) (b : Bool) (h : i < lo ∨ lo + n ≤ i) :
    fld (setBit x i b) lo n = fld x lo n := by
  rw [fld_eq_extract, fld_eq_extract, extract_setBit x i lo n b h]

theorem leBytes_length (n v : Nat) : (leBytes n v).length = n := by
  induction n generalizing v with
  | zero => rfl
  | succ n ih => simp [leBytes, ih]

/-- A byte is below 256. -/
theorem fld_lt {w : Nat} (x : BitVec w) (lo n : Nat) : fld x lo n < 2 ^ n := Nat.mod_lt _ (Nat.two_pow_pos n)

theorem sat8_le (n : Nat) : sat8 n ≤ 255 := Nat.min_le_left _ _
theorem sat16_le (n : Nat) : sat16 n ≤ 65535 := Nat.min_le_left _ _
theorem sat32_le (n : Nat) : sat32 n ≤ 4294967295 := Nat.min_le_left _ _

end Sys2Proof.Machine
end

