-- ==== Sys2Proof/Laws/State.lean ====
section
/-! SUPPORT. What each update of the state leaves as it was and what it writes, one lemma per field, each true by unfolding. -/

namespace Sys2Proof.Machine

variable (s : State) (n : Nat)

/-! ### State.updKiln -/

@[simp] theorem State.updKiln_pending (g : Kiln → Kiln) : (s.updKiln g).pending = s.pending := rfl
@[simp] theorem State.updKiln_clk (g : Kiln → Kiln) : (s.updKiln g).clk = s.clk := rfl
@[simp] theorem State.updKiln_stime (g : Kiln → Kiln) : (s.updKiln g).stime = s.stime := rfl
@[simp] theorem State.updKiln_kiln (g : Kiln → Kiln) : (s.updKiln g).kiln = g s.kiln := rfl
@[simp] theorem State.updKiln_acct (g : Kiln → Kiln) : (s.updKiln g).acct = s.acct := rfl
@[simp] theorem State.updKiln_image (g : Kiln → Kiln) : (s.updKiln g).image = s.image := rfl
@[simp] theorem State.updKiln_stage (g : Kiln → Kiln) : (s.updKiln g).stage = s.stage := rfl
@[simp] theorem State.updKiln_frozen (g : Kiln → Kiln) : (s.updKiln g).frozen = s.frozen := rfl
@[simp] theorem State.updKiln_msp (g : Kiln → Kiln) : (s.updKiln g).msp = s.msp := rfl
@[simp] theorem State.updKiln_dev (g : Kiln → Kiln) : (s.updKiln g).dev = s.dev := rfl
@[simp] theorem State.updKiln_power (g : Kiln → Kiln) : (s.updKiln g).power = s.power := rfl
@[simp] theorem State.updKiln_pins (g : Kiln → Kiln) : (s.updKiln g).pins = s.pins := rfl
@[simp] theorem State.updKiln_sags (g : Kiln → Kiln) : (s.updKiln g).sags = s.sags := rfl
@[simp] theorem State.updKiln_ls (g : Kiln → Kiln) : (s.updKiln g).ls = s.ls := rfl
@[simp] theorem State.updKiln_sqs (g : Kiln → Kiln) : (s.updKiln g).sqs = s.sqs := rfl
@[simp] theorem State.updKiln_cqs (g : Kiln → Kiln) : (s.updKiln g).cqs = s.cqs := rfl
@[simp] theorem State.updKiln_fetch (g : Kiln → Kiln) : (s.updKiln g).fetch = s.fetch := rfl
@[simp] theorem State.updKiln_fns (g : Kiln → Kiln) : (s.updKiln g).fns = s.fns := rfl
@[simp] theorem State.updKiln_msix (g : Kiln → Kiln) : (s.updKiln g).msix = s.msix := rfl
@[simp] theorem State.updKiln_path (g : Kiln → Kiln) : (s.updKiln g).path = s.path := rfl
@[simp] theorem State.updKiln_reads (g : Kiln → Kiln) : (s.updKiln g).reads = s.reads := rfl
@[simp] theorem State.updKiln_schs (g : Kiln → Kiln) : (s.updKiln g).schs = s.schs := rfl
@[simp] theorem State.updKiln_autos (g : Kiln → Kiln) : (s.updKiln g).autos = s.autos := rfl
@[simp] theorem State.updKiln_admitted (g : Kiln → Kiln) : (s.updKiln g).admitted = s.admitted := rfl
@[simp] theorem State.updKiln_bms (g : Kiln → Kiln) : (s.updKiln g).bms = s.bms := rfl
@[simp] theorem State.updKiln_tables (g : Kiln → Kiln) : (s.updKiln g).tables = s.tables := rfl
@[simp] theorem State.updKiln_ports (g : Kiln → Kiln) : (s.updKiln g).ports = s.ports := rfl
@[simp] theorem State.updKiln_gpio (g : Kiln → Kiln) : (s.updKiln g).gpio = s.gpio := rfl
@[simp] theorem State.updKiln_pwms (g : Kiln → Kiln) : (s.updKiln g).pwms = s.pwms := rfl
@[simp] theorem State.updKiln_dacs (g : Kiln → Kiln) : (s.updKiln g).dacs = s.dacs := rfl
@[simp] theorem State.updKiln_encs (g : Kiln → Kiln) : (s.updKiln g).encs = s.encs := rfl
@[simp] theorem State.updKiln_mdio (g : Kiln → Kiln) : (s.updKiln g).mdio = s.mdio := rfl
@[simp] theorem State.updKiln_claims (g : Kiln → Kiln) : (s.updKiln g).claims = s.claims := rfl
@[simp] theorem State.updKiln_wms (g : Kiln → Kiln) : (s.updKiln g).wms = s.wms := rfl
@[simp] theorem State.updKiln_adc (g : Kiln → Kiln) : (s.updKiln g).adc = s.adc := rfl
@[simp] theorem State.updKiln_nss (g : Kiln → Kiln) : (s.updKiln g).nss = s.nss := rfl
@[simp] theorem State.updKiln_jrn (g : Kiln → Kiln) : (s.updKiln g).jrn = s.jrn := rfl
@[simp] theorem State.updKiln_lnk (g : Kiln → Kiln) : (s.updKiln g).lnk = s.lnk := rfl
@[simp] theorem State.updKiln_health (g : Kiln → Kiln) : (s.updKiln g).health = s.health := rfl
@[simp] theorem State.updKiln_pcie (g : Kiln → Kiln) : (s.updKiln g).pcie = s.pcie := rfl
@[simp] theorem State.updKiln_shp (g : Kiln → Kiln) : (s.updKiln g).shp = s.shp := rfl
@[simp] theorem State.updKiln_serial (g : Kiln → Kiln) : (s.updKiln g).serial = s.serial := rfl
@[simp] theorem State.updKiln_freeCtr (g : Kiln → Kiln) : (s.updKiln g).freeCtr = s.freeCtr := rfl

/-! ### State.updDev -/

@[simp] theorem State.updDev_pending (g : Dev → Dev) : (s.updDev g).pending = s.pending := rfl
@[simp] theorem State.updDev_clk (g : Dev → Dev) : (s.updDev g).clk = s.clk := rfl
@[simp] theorem State.updDev_stime (g : Dev → Dev) : (s.updDev g).stime = s.stime := rfl
@[simp] theorem State.updDev_kiln (g : Dev → Dev) : (s.updDev g).kiln = s.kiln := rfl
@[simp] theorem State.updDev_acct (g : Dev → Dev) : (s.updDev g).acct = s.acct := rfl
@[simp] theorem State.updDev_image (g : Dev → Dev) : (s.updDev g).image = s.image := rfl
@[simp] theorem State.updDev_stage (g : Dev → Dev) : (s.updDev g).stage = s.stage := rfl
@[simp] theorem State.updDev_frozen (g : Dev → Dev) : (s.updDev g).frozen = s.frozen := rfl
@[simp] theorem State.updDev_msp (g : Dev → Dev) : (s.updDev g).msp = s.msp := rfl
@[simp] theorem State.updDev_dev (g : Dev → Dev) : (s.updDev g).dev = g s.dev := rfl
@[simp] theorem State.updDev_power (g : Dev → Dev) : (s.updDev g).power = s.power := rfl
@[simp] theorem State.updDev_pins (g : Dev → Dev) : (s.updDev g).pins = s.pins := rfl
@[simp] theorem State.updDev_sags (g : Dev → Dev) : (s.updDev g).sags = s.sags := rfl
@[simp] theorem State.updDev_ls (g : Dev → Dev) : (s.updDev g).ls = s.ls := rfl
@[simp] theorem State.updDev_sqs (g : Dev → Dev) : (s.updDev g).sqs = s.sqs := rfl
@[simp] theorem State.updDev_cqs (g : Dev → Dev) : (s.updDev g).cqs = s.cqs := rfl
@[simp] theorem State.updDev_fetch (g : Dev → Dev) : (s.updDev g).fetch = s.fetch := rfl
@[simp] theorem State.updDev_fns (g : Dev → Dev) : (s.updDev g).fns = s.fns := rfl
@[simp] theorem State.updDev_msix (g : Dev → Dev) : (s.updDev g).msix = s.msix := rfl
@[simp] theorem State.updDev_path (g : Dev → Dev) : (s.updDev g).path = s.path := rfl
@[simp] theorem State.updDev_reads (g : Dev → Dev) : (s.updDev g).reads = s.reads := rfl
@[simp] theorem State.updDev_schs (g : Dev → Dev) : (s.updDev g).schs = s.schs := rfl
@[simp] theorem State.updDev_autos (g : Dev → Dev) : (s.updDev g).autos = s.autos := rfl
@[simp] theorem State.updDev_admitted (g : Dev → Dev) : (s.updDev g).admitted = s.admitted := rfl
@[simp] theorem State.updDev_bms (g : Dev → Dev) : (s.updDev g).bms = s.bms := rfl
@[simp] theorem State.updDev_tables (g : Dev → Dev) : (s.updDev g).tables = s.tables := rfl
@[simp] theorem State.updDev_ports (g : Dev → Dev) : (s.updDev g).ports = s.ports := rfl
@[simp] theorem State.updDev_gpio (g : Dev → Dev) : (s.updDev g).gpio = s.gpio := rfl
@[simp] theorem State.updDev_pwms (g : Dev → Dev) : (s.updDev g).pwms = s.pwms := rfl
@[simp] theorem State.updDev_dacs (g : Dev → Dev) : (s.updDev g).dacs = s.dacs := rfl
@[simp] theorem State.updDev_encs (g : Dev → Dev) : (s.updDev g).encs = s.encs := rfl
@[simp] theorem State.updDev_mdio (g : Dev → Dev) : (s.updDev g).mdio = s.mdio := rfl
@[simp] theorem State.updDev_claims (g : Dev → Dev) : (s.updDev g).claims = s.claims := rfl
@[simp] theorem State.updDev_wms (g : Dev → Dev) : (s.updDev g).wms = s.wms := rfl
@[simp] theorem State.updDev_adc (g : Dev → Dev) : (s.updDev g).adc = s.adc := rfl
@[simp] theorem State.updDev_nss (g : Dev → Dev) : (s.updDev g).nss = s.nss := rfl
@[simp] theorem State.updDev_jrn (g : Dev → Dev) : (s.updDev g).jrn = s.jrn := rfl
@[simp] theorem State.updDev_lnk (g : Dev → Dev) : (s.updDev g).lnk = s.lnk := rfl
@[simp] theorem State.updDev_health (g : Dev → Dev) : (s.updDev g).health = s.health := rfl
@[simp] theorem State.updDev_pcie (g : Dev → Dev) : (s.updDev g).pcie = s.pcie := rfl
@[simp] theorem State.updDev_shp (g : Dev → Dev) : (s.updDev g).shp = s.shp := rfl
@[simp] theorem State.updDev_serial (g : Dev → Dev) : (s.updDev g).serial = s.serial := rfl
@[simp] theorem State.updDev_freeCtr (g : Dev → Dev) : (s.updDev g).freeCtr = s.freeCtr := rfl

/-! ### State.updMsp -/

@[simp] theorem State.updMsp_pending (g : Msp → Msp) : (s.updMsp g).pending = s.pending := rfl
@[simp] theorem State.updMsp_clk (g : Msp → Msp) : (s.updMsp g).clk = s.clk := rfl
@[simp] theorem State.updMsp_stime (g : Msp → Msp) : (s.updMsp g).stime = s.stime := rfl
@[simp] theorem State.updMsp_kiln (g : Msp → Msp) : (s.updMsp g).kiln = s.kiln := rfl
@[simp] theorem State.updMsp_acct (g : Msp → Msp) : (s.updMsp g).acct = s.acct := rfl
@[simp] theorem State.updMsp_image (g : Msp → Msp) : (s.updMsp g).image = s.image := rfl
@[simp] theorem State.updMsp_stage (g : Msp → Msp) : (s.updMsp g).stage = s.stage := rfl
@[simp] theorem State.updMsp_frozen (g : Msp → Msp) : (s.updMsp g).frozen = s.frozen := rfl
@[simp] theorem State.updMsp_msp (g : Msp → Msp) : (s.updMsp g).msp = g s.msp := rfl
@[simp] theorem State.updMsp_dev (g : Msp → Msp) : (s.updMsp g).dev = s.dev := rfl
@[simp] theorem State.updMsp_power (g : Msp → Msp) : (s.updMsp g).power = s.power := rfl
@[simp] theorem State.updMsp_pins (g : Msp → Msp) : (s.updMsp g).pins = s.pins := rfl
@[simp] theorem State.updMsp_sags (g : Msp → Msp) : (s.updMsp g).sags = s.sags := rfl
@[simp] theorem State.updMsp_ls (g : Msp → Msp) : (s.updMsp g).ls = s.ls := rfl
@[simp] theorem State.updMsp_sqs (g : Msp → Msp) : (s.updMsp g).sqs = s.sqs := rfl
@[simp] theorem State.updMsp_cqs (g : Msp → Msp) : (s.updMsp g).cqs = s.cqs := rfl
@[simp] theorem State.updMsp_fetch (g : Msp → Msp) : (s.updMsp g).fetch = s.fetch := rfl
@[simp] theorem State.updMsp_fns (g : Msp → Msp) : (s.updMsp g).fns = s.fns := rfl
@[simp] theorem State.updMsp_msix (g : Msp → Msp) : (s.updMsp g).msix = s.msix := rfl
@[simp] theorem State.updMsp_path (g : Msp → Msp) : (s.updMsp g).path = s.path := rfl
@[simp] theorem State.updMsp_reads (g : Msp → Msp) : (s.updMsp g).reads = s.reads := rfl
@[simp] theorem State.updMsp_schs (g : Msp → Msp) : (s.updMsp g).schs = s.schs := rfl
@[simp] theorem State.updMsp_autos (g : Msp → Msp) : (s.updMsp g).autos = s.autos := rfl
@[simp] theorem State.updMsp_admitted (g : Msp → Msp) : (s.updMsp g).admitted = s.admitted := rfl
@[simp] theorem State.updMsp_bms (g : Msp → Msp) : (s.updMsp g).bms = s.bms := rfl
@[simp] theorem State.updMsp_tables (g : Msp → Msp) : (s.updMsp g).tables = s.tables := rfl
@[simp] theorem State.updMsp_ports (g : Msp → Msp) : (s.updMsp g).ports = s.ports := rfl
@[simp] theorem State.updMsp_gpio (g : Msp → Msp) : (s.updMsp g).gpio = s.gpio := rfl
@[simp] theorem State.updMsp_pwms (g : Msp → Msp) : (s.updMsp g).pwms = s.pwms := rfl
@[simp] theorem State.updMsp_dacs (g : Msp → Msp) : (s.updMsp g).dacs = s.dacs := rfl
@[simp] theorem State.updMsp_encs (g : Msp → Msp) : (s.updMsp g).encs = s.encs := rfl
@[simp] theorem State.updMsp_mdio (g : Msp → Msp) : (s.updMsp g).mdio = s.mdio := rfl
@[simp] theorem State.updMsp_claims (g : Msp → Msp) : (s.updMsp g).claims = s.claims := rfl
@[simp] theorem State.updMsp_wms (g : Msp → Msp) : (s.updMsp g).wms = s.wms := rfl
@[simp] theorem State.updMsp_adc (g : Msp → Msp) : (s.updMsp g).adc = s.adc := rfl
@[simp] theorem State.updMsp_nss (g : Msp → Msp) : (s.updMsp g).nss = s.nss := rfl
@[simp] theorem State.updMsp_jrn (g : Msp → Msp) : (s.updMsp g).jrn = s.jrn := rfl
@[simp] theorem State.updMsp_lnk (g : Msp → Msp) : (s.updMsp g).lnk = s.lnk := rfl
@[simp] theorem State.updMsp_health (g : Msp → Msp) : (s.updMsp g).health = s.health := rfl
@[simp] theorem State.updMsp_pcie (g : Msp → Msp) : (s.updMsp g).pcie = s.pcie := rfl
@[simp] theorem State.updMsp_shp (g : Msp → Msp) : (s.updMsp g).shp = s.shp := rfl
@[simp] theorem State.updMsp_serial (g : Msp → Msp) : (s.updMsp g).serial = s.serial := rfl
@[simp] theorem State.updMsp_freeCtr (g : Msp → Msp) : (s.updMsp g).freeCtr = s.freeCtr := rfl

/-! ### State.updJrn -/

@[simp] theorem State.updJrn_pending (g : Jrn → Jrn) : (s.updJrn g).pending = s.pending := rfl
@[simp] theorem State.updJrn_clk (g : Jrn → Jrn) : (s.updJrn g).clk = s.clk := rfl
@[simp] theorem State.updJrn_stime (g : Jrn → Jrn) : (s.updJrn g).stime = s.stime := rfl
@[simp] theorem State.updJrn_kiln (g : Jrn → Jrn) : (s.updJrn g).kiln = s.kiln := rfl
@[simp] theorem State.updJrn_acct (g : Jrn → Jrn) : (s.updJrn g).acct = s.acct := rfl
@[simp] theorem State.updJrn_image (g : Jrn → Jrn) : (s.updJrn g).image = s.image := rfl
@[simp] theorem State.updJrn_stage (g : Jrn → Jrn) : (s.updJrn g).stage = s.stage := rfl
@[simp] theorem State.updJrn_frozen (g : Jrn → Jrn) : (s.updJrn g).frozen = s.frozen := rfl
@[simp] theorem State.updJrn_msp (g : Jrn → Jrn) : (s.updJrn g).msp = s.msp := rfl
@[simp] theorem State.updJrn_dev (g : Jrn → Jrn) : (s.updJrn g).dev = s.dev := rfl
@[simp] theorem State.updJrn_power (g : Jrn → Jrn) : (s.updJrn g).power = s.power := rfl
@[simp] theorem State.updJrn_pins (g : Jrn → Jrn) : (s.updJrn g).pins = s.pins := rfl
@[simp] theorem State.updJrn_sags (g : Jrn → Jrn) : (s.updJrn g).sags = s.sags := rfl
@[simp] theorem State.updJrn_ls (g : Jrn → Jrn) : (s.updJrn g).ls = s.ls := rfl
@[simp] theorem State.updJrn_sqs (g : Jrn → Jrn) : (s.updJrn g).sqs = s.sqs := rfl
@[simp] theorem State.updJrn_cqs (g : Jrn → Jrn) : (s.updJrn g).cqs = s.cqs := rfl
@[simp] theorem State.updJrn_fetch (g : Jrn → Jrn) : (s.updJrn g).fetch = s.fetch := rfl
@[simp] theorem State.updJrn_fns (g : Jrn → Jrn) : (s.updJrn g).fns = s.fns := rfl
@[simp] theorem State.updJrn_msix (g : Jrn → Jrn) : (s.updJrn g).msix = s.msix := rfl
@[simp] theorem State.updJrn_path (g : Jrn → Jrn) : (s.updJrn g).path = s.path := rfl
@[simp] theorem State.updJrn_reads (g : Jrn → Jrn) : (s.updJrn g).reads = s.reads := rfl
@[simp] theorem State.updJrn_schs (g : Jrn → Jrn) : (s.updJrn g).schs = s.schs := rfl
@[simp] theorem State.updJrn_autos (g : Jrn → Jrn) : (s.updJrn g).autos = s.autos := rfl
@[simp] theorem State.updJrn_admitted (g : Jrn → Jrn) : (s.updJrn g).admitted = s.admitted := rfl
@[simp] theorem State.updJrn_bms (g : Jrn → Jrn) : (s.updJrn g).bms = s.bms := rfl
@[simp] theorem State.updJrn_tables (g : Jrn → Jrn) : (s.updJrn g).tables = s.tables := rfl
@[simp] theorem State.updJrn_ports (g : Jrn → Jrn) : (s.updJrn g).ports = s.ports := rfl
@[simp] theorem State.updJrn_gpio (g : Jrn → Jrn) : (s.updJrn g).gpio = s.gpio := rfl
@[simp] theorem State.updJrn_pwms (g : Jrn → Jrn) : (s.updJrn g).pwms = s.pwms := rfl
@[simp] theorem State.updJrn_dacs (g : Jrn → Jrn) : (s.updJrn g).dacs = s.dacs := rfl
@[simp] theorem State.updJrn_encs (g : Jrn → Jrn) : (s.updJrn g).encs = s.encs := rfl
@[simp] theorem State.updJrn_mdio (g : Jrn → Jrn) : (s.updJrn g).mdio = s.mdio := rfl
@[simp] theorem State.updJrn_claims (g : Jrn → Jrn) : (s.updJrn g).claims = s.claims := rfl
@[simp] theorem State.updJrn_wms (g : Jrn → Jrn) : (s.updJrn g).wms = s.wms := rfl
@[simp] theorem State.updJrn_adc (g : Jrn → Jrn) : (s.updJrn g).adc = s.adc := rfl
@[simp] theorem State.updJrn_nss (g : Jrn → Jrn) : (s.updJrn g).nss = s.nss := rfl
@[simp] theorem State.updJrn_jrn (g : Jrn → Jrn) : (s.updJrn g).jrn = g s.jrn := rfl
@[simp] theorem State.updJrn_lnk (g : Jrn → Jrn) : (s.updJrn g).lnk = s.lnk := rfl
@[simp] theorem State.updJrn_health (g : Jrn → Jrn) : (s.updJrn g).health = s.health := rfl
@[simp] theorem State.updJrn_pcie (g : Jrn → Jrn) : (s.updJrn g).pcie = s.pcie := rfl
@[simp] theorem State.updJrn_shp (g : Jrn → Jrn) : (s.updJrn g).shp = s.shp := rfl
@[simp] theorem State.updJrn_serial (g : Jrn → Jrn) : (s.updJrn g).serial = s.serial := rfl
@[simp] theorem State.updJrn_freeCtr (g : Jrn → Jrn) : (s.updJrn g).freeCtr = s.freeCtr := rfl

/-! ### State.updLnk -/

@[simp] theorem State.updLnk_pending (g : Lnk → Lnk) : (s.updLnk g).pending = s.pending := rfl
@[simp] theorem State.updLnk_clk (g : Lnk → Lnk) : (s.updLnk g).clk = s.clk := rfl
@[simp] theorem State.updLnk_stime (g : Lnk → Lnk) : (s.updLnk g).stime = s.stime := rfl
@[simp] theorem State.updLnk_kiln (g : Lnk → Lnk) : (s.updLnk g).kiln = s.kiln := rfl
@[simp] theorem State.updLnk_acct (g : Lnk → Lnk) : (s.updLnk g).acct = s.acct := rfl
@[simp] theorem State.updLnk_image (g : Lnk → Lnk) : (s.updLnk g).image = s.image := rfl
@[simp] theorem State.updLnk_stage (g : Lnk → Lnk) : (s.updLnk g).stage = s.stage := rfl
@[simp] theorem State.updLnk_frozen (g : Lnk → Lnk) : (s.updLnk g).frozen = s.frozen := rfl
@[simp] theorem State.updLnk_msp (g : Lnk → Lnk) : (s.updLnk g).msp = s.msp := rfl
@[simp] theorem State.updLnk_dev (g : Lnk → Lnk) : (s.updLnk g).dev = s.dev := rfl
@[simp] theorem State.updLnk_power (g : Lnk → Lnk) : (s.updLnk g).power = s.power := rfl
@[simp] theorem State.updLnk_pins (g : Lnk → Lnk) : (s.updLnk g).pins = s.pins := rfl
@[simp] theorem State.updLnk_sags (g : Lnk → Lnk) : (s.updLnk g).sags = s.sags := rfl
@[simp] theorem State.updLnk_ls (g : Lnk → Lnk) : (s.updLnk g).ls = s.ls := rfl
@[simp] theorem State.updLnk_sqs (g : Lnk → Lnk) : (s.updLnk g).sqs = s.sqs := rfl
@[simp] theorem State.updLnk_cqs (g : Lnk → Lnk) : (s.updLnk g).cqs = s.cqs := rfl
@[simp] theorem State.updLnk_fetch (g : Lnk → Lnk) : (s.updLnk g).fetch = s.fetch := rfl
@[simp] theorem State.updLnk_fns (g : Lnk → Lnk) : (s.updLnk g).fns = s.fns := rfl
@[simp] theorem State.updLnk_msix (g : Lnk → Lnk) : (s.updLnk g).msix = s.msix := rfl
@[simp] theorem State.updLnk_path (g : Lnk → Lnk) : (s.updLnk g).path = s.path := rfl
@[simp] theorem State.updLnk_reads (g : Lnk → Lnk) : (s.updLnk g).reads = s.reads := rfl
@[simp] theorem State.updLnk_schs (g : Lnk → Lnk) : (s.updLnk g).schs = s.schs := rfl
@[simp] theorem State.updLnk_autos (g : Lnk → Lnk) : (s.updLnk g).autos = s.autos := rfl
@[simp] theorem State.updLnk_admitted (g : Lnk → Lnk) : (s.updLnk g).admitted = s.admitted := rfl
@[simp] theorem State.updLnk_bms (g : Lnk → Lnk) : (s.updLnk g).bms = s.bms := rfl
@[simp] theorem State.updLnk_tables (g : Lnk → Lnk) : (s.updLnk g).tables = s.tables := rfl
@[simp] theorem State.updLnk_ports (g : Lnk → Lnk) : (s.updLnk g).ports = s.ports := rfl
@[simp] theorem State.updLnk_gpio (g : Lnk → Lnk) : (s.updLnk g).gpio = s.gpio := rfl
@[simp] theorem State.updLnk_pwms (g : Lnk → Lnk) : (s.updLnk g).pwms = s.pwms := rfl
@[simp] theorem State.updLnk_dacs (g : Lnk → Lnk) : (s.updLnk g).dacs = s.dacs := rfl
@[simp] theorem State.updLnk_encs (g : Lnk → Lnk) : (s.updLnk g).encs = s.encs := rfl
@[simp] theorem State.updLnk_mdio (g : Lnk → Lnk) : (s.updLnk g).mdio = s.mdio := rfl
@[simp] theorem State.updLnk_claims (g : Lnk → Lnk) : (s.updLnk g).claims = s.claims := rfl
@[simp] theorem State.updLnk_wms (g : Lnk → Lnk) : (s.updLnk g).wms = s.wms := rfl
@[simp] theorem State.updLnk_adc (g : Lnk → Lnk) : (s.updLnk g).adc = s.adc := rfl
@[simp] theorem State.updLnk_nss (g : Lnk → Lnk) : (s.updLnk g).nss = s.nss := rfl
@[simp] theorem State.updLnk_jrn (g : Lnk → Lnk) : (s.updLnk g).jrn = s.jrn := rfl
@[simp] theorem State.updLnk_lnk (g : Lnk → Lnk) : (s.updLnk g).lnk = g s.lnk := rfl
@[simp] theorem State.updLnk_health (g : Lnk → Lnk) : (s.updLnk g).health = s.health := rfl
@[simp] theorem State.updLnk_pcie (g : Lnk → Lnk) : (s.updLnk g).pcie = s.pcie := rfl
@[simp] theorem State.updLnk_shp (g : Lnk → Lnk) : (s.updLnk g).shp = s.shp := rfl
@[simp] theorem State.updLnk_serial (g : Lnk → Lnk) : (s.updLnk g).serial = s.serial := rfl
@[simp] theorem State.updLnk_freeCtr (g : Lnk → Lnk) : (s.updLnk g).freeCtr = s.freeCtr := rfl

/-! ### State.updHealth -/

@[simp] theorem State.updHealth_pending (g : Health → Health) : (s.updHealth g).pending = s.pending := rfl
@[simp] theorem State.updHealth_clk (g : Health → Health) : (s.updHealth g).clk = s.clk := rfl
@[simp] theorem State.updHealth_stime (g : Health → Health) : (s.updHealth g).stime = s.stime := rfl
@[simp] theorem State.updHealth_kiln (g : Health → Health) : (s.updHealth g).kiln = s.kiln := rfl
@[simp] theorem State.updHealth_acct (g : Health → Health) : (s.updHealth g).acct = s.acct := rfl
@[simp] theorem State.updHealth_image (g : Health → Health) : (s.updHealth g).image = s.image := rfl
@[simp] theorem State.updHealth_stage (g : Health → Health) : (s.updHealth g).stage = s.stage := rfl
@[simp] theorem State.updHealth_frozen (g : Health → Health) : (s.updHealth g).frozen = s.frozen := rfl
@[simp] theorem State.updHealth_msp (g : Health → Health) : (s.updHealth g).msp = s.msp := rfl
@[simp] theorem State.updHealth_dev (g : Health → Health) : (s.updHealth g).dev = s.dev := rfl
@[simp] theorem State.updHealth_power (g : Health → Health) : (s.updHealth g).power = s.power := rfl
@[simp] theorem State.updHealth_pins (g : Health → Health) : (s.updHealth g).pins = s.pins := rfl
@[simp] theorem State.updHealth_sags (g : Health → Health) : (s.updHealth g).sags = s.sags := rfl
@[simp] theorem State.updHealth_ls (g : Health → Health) : (s.updHealth g).ls = s.ls := rfl
@[simp] theorem State.updHealth_sqs (g : Health → Health) : (s.updHealth g).sqs = s.sqs := rfl
@[simp] theorem State.updHealth_cqs (g : Health → Health) : (s.updHealth g).cqs = s.cqs := rfl
@[simp] theorem State.updHealth_fetch (g : Health → Health) : (s.updHealth g).fetch = s.fetch := rfl
@[simp] theorem State.updHealth_fns (g : Health → Health) : (s.updHealth g).fns = s.fns := rfl
@[simp] theorem State.updHealth_msix (g : Health → Health) : (s.updHealth g).msix = s.msix := rfl
@[simp] theorem State.updHealth_path (g : Health → Health) : (s.updHealth g).path = s.path := rfl
@[simp] theorem State.updHealth_reads (g : Health → Health) : (s.updHealth g).reads = s.reads := rfl
@[simp] theorem State.updHealth_schs (g : Health → Health) : (s.updHealth g).schs = s.schs := rfl
@[simp] theorem State.updHealth_autos (g : Health → Health) : (s.updHealth g).autos = s.autos := rfl
@[simp] theorem State.updHealth_admitted (g : Health → Health) : (s.updHealth g).admitted = s.admitted := rfl
@[simp] theorem State.updHealth_bms (g : Health → Health) : (s.updHealth g).bms = s.bms := rfl
@[simp] theorem State.updHealth_tables (g : Health → Health) : (s.updHealth g).tables = s.tables := rfl
@[simp] theorem State.updHealth_ports (g : Health → Health) : (s.updHealth g).ports = s.ports := rfl
@[simp] theorem State.updHealth_gpio (g : Health → Health) : (s.updHealth g).gpio = s.gpio := rfl
@[simp] theorem State.updHealth_pwms (g : Health → Health) : (s.updHealth g).pwms = s.pwms := rfl
@[simp] theorem State.updHealth_dacs (g : Health → Health) : (s.updHealth g).dacs = s.dacs := rfl
@[simp] theorem State.updHealth_encs (g : Health → Health) : (s.updHealth g).encs = s.encs := rfl
@[simp] theorem State.updHealth_mdio (g : Health → Health) : (s.updHealth g).mdio = s.mdio := rfl
@[simp] theorem State.updHealth_claims (g : Health → Health) : (s.updHealth g).claims = s.claims := rfl
@[simp] theorem State.updHealth_wms (g : Health → Health) : (s.updHealth g).wms = s.wms := rfl
@[simp] theorem State.updHealth_adc (g : Health → Health) : (s.updHealth g).adc = s.adc := rfl
@[simp] theorem State.updHealth_nss (g : Health → Health) : (s.updHealth g).nss = s.nss := rfl
@[simp] theorem State.updHealth_jrn (g : Health → Health) : (s.updHealth g).jrn = s.jrn := rfl
@[simp] theorem State.updHealth_lnk (g : Health → Health) : (s.updHealth g).lnk = s.lnk := rfl
@[simp] theorem State.updHealth_health (g : Health → Health) : (s.updHealth g).health = g s.health := rfl
@[simp] theorem State.updHealth_pcie (g : Health → Health) : (s.updHealth g).pcie = s.pcie := rfl
@[simp] theorem State.updHealth_shp (g : Health → Health) : (s.updHealth g).shp = s.shp := rfl
@[simp] theorem State.updHealth_serial (g : Health → Health) : (s.updHealth g).serial = s.serial := rfl
@[simp] theorem State.updHealth_freeCtr (g : Health → Health) : (s.updHealth g).freeCtr = s.freeCtr := rfl

/-! ### State.updShp -/

@[simp] theorem State.updShp_pending (g : Shp → Shp) : (s.updShp g).pending = s.pending := rfl
@[simp] theorem State.updShp_clk (g : Shp → Shp) : (s.updShp g).clk = s.clk := rfl
@[simp] theorem State.updShp_stime (g : Shp → Shp) : (s.updShp g).stime = s.stime := rfl
@[simp] theorem State.updShp_kiln (g : Shp → Shp) : (s.updShp g).kiln = s.kiln := rfl
@[simp] theorem State.updShp_acct (g : Shp → Shp) : (s.updShp g).acct = s.acct := rfl
@[simp] theorem State.updShp_image (g : Shp → Shp) : (s.updShp g).image = s.image := rfl
@[simp] theorem State.updShp_stage (g : Shp → Shp) : (s.updShp g).stage = s.stage := rfl
@[simp] theorem State.updShp_frozen (g : Shp → Shp) : (s.updShp g).frozen = s.frozen := rfl
@[simp] theorem State.updShp_msp (g : Shp → Shp) : (s.updShp g).msp = s.msp := rfl
@[simp] theorem State.updShp_dev (g : Shp → Shp) : (s.updShp g).dev = s.dev := rfl
@[simp] theorem State.updShp_power (g : Shp → Shp) : (s.updShp g).power = s.power := rfl
@[simp] theorem State.updShp_pins (g : Shp → Shp) : (s.updShp g).pins = s.pins := rfl
@[simp] theorem State.updShp_sags (g : Shp → Shp) : (s.updShp g).sags = s.sags := rfl
@[simp] theorem State.updShp_ls (g : Shp → Shp) : (s.updShp g).ls = s.ls := rfl
@[simp] theorem State.updShp_sqs (g : Shp → Shp) : (s.updShp g).sqs = s.sqs := rfl
@[simp] theorem State.updShp_cqs (g : Shp → Shp) : (s.updShp g).cqs = s.cqs := rfl
@[simp] theorem State.updShp_fetch (g : Shp → Shp) : (s.updShp g).fetch = s.fetch := rfl
@[simp] theorem State.updShp_fns (g : Shp → Shp) : (s.updShp g).fns = s.fns := rfl
@[simp] theorem State.updShp_msix (g : Shp → Shp) : (s.updShp g).msix = s.msix := rfl
@[simp] theorem State.updShp_path (g : Shp → Shp) : (s.updShp g).path = s.path := rfl
@[simp] theorem State.updShp_reads (g : Shp → Shp) : (s.updShp g).reads = s.reads := rfl
@[simp] theorem State.updShp_schs (g : Shp → Shp) : (s.updShp g).schs = s.schs := rfl
@[simp] theorem State.updShp_autos (g : Shp → Shp) : (s.updShp g).autos = s.autos := rfl
@[simp] theorem State.updShp_admitted (g : Shp → Shp) : (s.updShp g).admitted = s.admitted := rfl
@[simp] theorem State.updShp_bms (g : Shp → Shp) : (s.updShp g).bms = s.bms := rfl
@[simp] theorem State.updShp_tables (g : Shp → Shp) : (s.updShp g).tables = s.tables := rfl
@[simp] theorem State.updShp_ports (g : Shp → Shp) : (s.updShp g).ports = s.ports := rfl
@[simp] theorem State.updShp_gpio (g : Shp → Shp) : (s.updShp g).gpio = s.gpio := rfl
@[simp] theorem State.updShp_pwms (g : Shp → Shp) : (s.updShp g).pwms = s.pwms := rfl
@[simp] theorem State.updShp_dacs (g : Shp → Shp) : (s.updShp g).dacs = s.dacs := rfl
@[simp] theorem State.updShp_encs (g : Shp → Shp) : (s.updShp g).encs = s.encs := rfl
@[simp] theorem State.updShp_mdio (g : Shp → Shp) : (s.updShp g).mdio = s.mdio := rfl
@[simp] theorem State.updShp_claims (g : Shp → Shp) : (s.updShp g).claims = s.claims := rfl
@[simp] theorem State.updShp_wms (g : Shp → Shp) : (s.updShp g).wms = s.wms := rfl
@[simp] theorem State.updShp_adc (g : Shp → Shp) : (s.updShp g).adc = s.adc := rfl
@[simp] theorem State.updShp_nss (g : Shp → Shp) : (s.updShp g).nss = s.nss := rfl
@[simp] theorem State.updShp_jrn (g : Shp → Shp) : (s.updShp g).jrn = s.jrn := rfl
@[simp] theorem State.updShp_lnk (g : Shp → Shp) : (s.updShp g).lnk = s.lnk := rfl
@[simp] theorem State.updShp_health (g : Shp → Shp) : (s.updShp g).health = s.health := rfl
@[simp] theorem State.updShp_pcie (g : Shp → Shp) : (s.updShp g).pcie = s.pcie := rfl
@[simp] theorem State.updShp_shp (g : Shp → Shp) : (s.updShp g).shp = g s.shp := rfl
@[simp] theorem State.updShp_serial (g : Shp → Shp) : (s.updShp g).serial = s.serial := rfl
@[simp] theorem State.updShp_freeCtr (g : Shp → Shp) : (s.updShp g).freeCtr = s.freeCtr := rfl

/-! ### State.setSag -/

@[simp] theorem State.setSag_pending (x : Saggar) : (s.setSag n x).pending = s.pending := rfl
@[simp] theorem State.setSag_clk (x : Saggar) : (s.setSag n x).clk = s.clk := rfl
@[simp] theorem State.setSag_stime (x : Saggar) : (s.setSag n x).stime = s.stime := rfl
@[simp] theorem State.setSag_kiln (x : Saggar) : (s.setSag n x).kiln = s.kiln := rfl
@[simp] theorem State.setSag_acct (x : Saggar) : (s.setSag n x).acct = s.acct := rfl
@[simp] theorem State.setSag_image (x : Saggar) : (s.setSag n x).image = s.image := rfl
@[simp] theorem State.setSag_stage (x : Saggar) : (s.setSag n x).stage = s.stage := rfl
@[simp] theorem State.setSag_frozen (x : Saggar) : (s.setSag n x).frozen = s.frozen := rfl
@[simp] theorem State.setSag_msp (x : Saggar) : (s.setSag n x).msp = s.msp := rfl
@[simp] theorem State.setSag_dev (x : Saggar) : (s.setSag n x).dev = s.dev := rfl
@[simp] theorem State.setSag_power (x : Saggar) : (s.setSag n x).power = s.power := rfl
@[simp] theorem State.setSag_pins (x : Saggar) : (s.setSag n x).pins = s.pins := rfl
@[simp] theorem State.setSag_sags (x : Saggar) : (s.setSag n x).sags = s.sags.set {} n x := rfl
@[simp] theorem State.setSag_ls (x : Saggar) : (s.setSag n x).ls = s.ls := rfl
@[simp] theorem State.setSag_sqs (x : Saggar) : (s.setSag n x).sqs = s.sqs := rfl
@[simp] theorem State.setSag_cqs (x : Saggar) : (s.setSag n x).cqs = s.cqs := rfl
@[simp] theorem State.setSag_fetch (x : Saggar) : (s.setSag n x).fetch = s.fetch := rfl
@[simp] theorem State.setSag_fns (x : Saggar) : (s.setSag n x).fns = s.fns := rfl
@[simp] theorem State.setSag_msix (x : Saggar) : (s.setSag n x).msix = s.msix := rfl
@[simp] theorem State.setSag_path (x : Saggar) : (s.setSag n x).path = s.path := rfl
@[simp] theorem State.setSag_reads (x : Saggar) : (s.setSag n x).reads = s.reads := rfl
@[simp] theorem State.setSag_schs (x : Saggar) : (s.setSag n x).schs = s.schs := rfl
@[simp] theorem State.setSag_autos (x : Saggar) : (s.setSag n x).autos = s.autos := rfl
@[simp] theorem State.setSag_admitted (x : Saggar) : (s.setSag n x).admitted = s.admitted := rfl
@[simp] theorem State.setSag_bms (x : Saggar) : (s.setSag n x).bms = s.bms := rfl
@[simp] theorem State.setSag_tables (x : Saggar) : (s.setSag n x).tables = s.tables := rfl
@[simp] theorem State.setSag_ports (x : Saggar) : (s.setSag n x).ports = s.ports := rfl
@[simp] theorem State.setSag_gpio (x : Saggar) : (s.setSag n x).gpio = s.gpio := rfl
@[simp] theorem State.setSag_pwms (x : Saggar) : (s.setSag n x).pwms = s.pwms := rfl
@[simp] theorem State.setSag_dacs (x : Saggar) : (s.setSag n x).dacs = s.dacs := rfl
@[simp] theorem State.setSag_encs (x : Saggar) : (s.setSag n x).encs = s.encs := rfl
@[simp] theorem State.setSag_mdio (x : Saggar) : (s.setSag n x).mdio = s.mdio := rfl
@[simp] theorem State.setSag_claims (x : Saggar) : (s.setSag n x).claims = s.claims := rfl
@[simp] theorem State.setSag_wms (x : Saggar) : (s.setSag n x).wms = s.wms := rfl
@[simp] theorem State.setSag_adc (x : Saggar) : (s.setSag n x).adc = s.adc := rfl
@[simp] theorem State.setSag_nss (x : Saggar) : (s.setSag n x).nss = s.nss := rfl
@[simp] theorem State.setSag_jrn (x : Saggar) : (s.setSag n x).jrn = s.jrn := rfl
@[simp] theorem State.setSag_lnk (x : Saggar) : (s.setSag n x).lnk = s.lnk := rfl
@[simp] theorem State.setSag_health (x : Saggar) : (s.setSag n x).health = s.health := rfl
@[simp] theorem State.setSag_pcie (x : Saggar) : (s.setSag n x).pcie = s.pcie := rfl
@[simp] theorem State.setSag_shp (x : Saggar) : (s.setSag n x).shp = s.shp := rfl
@[simp] theorem State.setSag_serial (x : Saggar) : (s.setSag n x).serial = s.serial := rfl
@[simp] theorem State.setSag_freeCtr (x : Saggar) : (s.setSag n x).freeCtr = s.freeCtr := rfl

/-! ### State.setSq -/

@[simp] theorem State.setSq_pending (x : Sq) : (s.setSq n x).pending = s.pending := rfl
@[simp] theorem State.setSq_clk (x : Sq) : (s.setSq n x).clk = s.clk := rfl
@[simp] theorem State.setSq_stime (x : Sq) : (s.setSq n x).stime = s.stime := rfl
@[simp] theorem State.setSq_kiln (x : Sq) : (s.setSq n x).kiln = s.kiln := rfl
@[simp] theorem State.setSq_acct (x : Sq) : (s.setSq n x).acct = s.acct := rfl
@[simp] theorem State.setSq_image (x : Sq) : (s.setSq n x).image = s.image := rfl
@[simp] theorem State.setSq_stage (x : Sq) : (s.setSq n x).stage = s.stage := rfl
@[simp] theorem State.setSq_frozen (x : Sq) : (s.setSq n x).frozen = s.frozen := rfl
@[simp] theorem State.setSq_msp (x : Sq) : (s.setSq n x).msp = s.msp := rfl
@[simp] theorem State.setSq_dev (x : Sq) : (s.setSq n x).dev = s.dev := rfl
@[simp] theorem State.setSq_power (x : Sq) : (s.setSq n x).power = s.power := rfl
@[simp] theorem State.setSq_pins (x : Sq) : (s.setSq n x).pins = s.pins := rfl
@[simp] theorem State.setSq_sags (x : Sq) : (s.setSq n x).sags = s.sags := rfl
@[simp] theorem State.setSq_ls (x : Sq) : (s.setSq n x).ls = s.ls := rfl
@[simp] theorem State.setSq_sqs (x : Sq) : (s.setSq n x).sqs = s.sqs.set {} n x := rfl
@[simp] theorem State.setSq_cqs (x : Sq) : (s.setSq n x).cqs = s.cqs := rfl
@[simp] theorem State.setSq_fetch (x : Sq) : (s.setSq n x).fetch = s.fetch := rfl
@[simp] theorem State.setSq_fns (x : Sq) : (s.setSq n x).fns = s.fns := rfl
@[simp] theorem State.setSq_msix (x : Sq) : (s.setSq n x).msix = s.msix := rfl
@[simp] theorem State.setSq_path (x : Sq) : (s.setSq n x).path = s.path := rfl
@[simp] theorem State.setSq_reads (x : Sq) : (s.setSq n x).reads = s.reads := rfl
@[simp] theorem State.setSq_schs (x : Sq) : (s.setSq n x).schs = s.schs := rfl
@[simp] theorem State.setSq_autos (x : Sq) : (s.setSq n x).autos = s.autos := rfl
@[simp] theorem State.setSq_admitted (x : Sq) : (s.setSq n x).admitted = s.admitted := rfl
@[simp] theorem State.setSq_bms (x : Sq) : (s.setSq n x).bms = s.bms := rfl
@[simp] theorem State.setSq_tables (x : Sq) : (s.setSq n x).tables = s.tables := rfl
@[simp] theorem State.setSq_ports (x : Sq) : (s.setSq n x).ports = s.ports := rfl
@[simp] theorem State.setSq_gpio (x : Sq) : (s.setSq n x).gpio = s.gpio := rfl
@[simp] theorem State.setSq_pwms (x : Sq) : (s.setSq n x).pwms = s.pwms := rfl
@[simp] theorem State.setSq_dacs (x : Sq) : (s.setSq n x).dacs = s.dacs := rfl
@[simp] theorem State.setSq_encs (x : Sq) : (s.setSq n x).encs = s.encs := rfl
@[simp] theorem State.setSq_mdio (x : Sq) : (s.setSq n x).mdio = s.mdio := rfl
@[simp] theorem State.setSq_claims (x : Sq) : (s.setSq n x).claims = s.claims := rfl
@[simp] theorem State.setSq_wms (x : Sq) : (s.setSq n x).wms = s.wms := rfl
@[simp] theorem State.setSq_adc (x : Sq) : (s.setSq n x).adc = s.adc := rfl
@[simp] theorem State.setSq_nss (x : Sq) : (s.setSq n x).nss = s.nss := rfl
@[simp] theorem State.setSq_jrn (x : Sq) : (s.setSq n x).jrn = s.jrn := rfl
@[simp] theorem State.setSq_lnk (x : Sq) : (s.setSq n x).lnk = s.lnk := rfl
@[simp] theorem State.setSq_health (x : Sq) : (s.setSq n x).health = s.health := rfl
@[simp] theorem State.setSq_pcie (x : Sq) : (s.setSq n x).pcie = s.pcie := rfl
@[simp] theorem State.setSq_shp (x : Sq) : (s.setSq n x).shp = s.shp := rfl
@[simp] theorem State.setSq_serial (x : Sq) : (s.setSq n x).serial = s.serial := rfl
@[simp] theorem State.setSq_freeCtr (x : Sq) : (s.setSq n x).freeCtr = s.freeCtr := rfl

/-! ### State.setCq -/

@[simp] theorem State.setCq_pending (x : Cq) : (s.setCq n x).pending = s.pending := rfl
@[simp] theorem State.setCq_clk (x : Cq) : (s.setCq n x).clk = s.clk := rfl
@[simp] theorem State.setCq_stime (x : Cq) : (s.setCq n x).stime = s.stime := rfl
@[simp] theorem State.setCq_kiln (x : Cq) : (s.setCq n x).kiln = s.kiln := rfl
@[simp] theorem State.setCq_acct (x : Cq) : (s.setCq n x).acct = s.acct := rfl
@[simp] theorem State.setCq_image (x : Cq) : (s.setCq n x).image = s.image := rfl
@[simp] theorem State.setCq_stage (x : Cq) : (s.setCq n x).stage = s.stage := rfl
@[simp] theorem State.setCq_frozen (x : Cq) : (s.setCq n x).frozen = s.frozen := rfl
@[simp] theorem State.setCq_msp (x : Cq) : (s.setCq n x).msp = s.msp := rfl
@[simp] theorem State.setCq_dev (x : Cq) : (s.setCq n x).dev = s.dev := rfl
@[simp] theorem State.setCq_power (x : Cq) : (s.setCq n x).power = s.power := rfl
@[simp] theorem State.setCq_pins (x : Cq) : (s.setCq n x).pins = s.pins := rfl
@[simp] theorem State.setCq_sags (x : Cq) : (s.setCq n x).sags = s.sags := rfl
@[simp] theorem State.setCq_ls (x : Cq) : (s.setCq n x).ls = s.ls := rfl
@[simp] theorem State.setCq_sqs (x : Cq) : (s.setCq n x).sqs = s.sqs := rfl
@[simp] theorem State.setCq_cqs (x : Cq) : (s.setCq n x).cqs = s.cqs.set {} n x := rfl
@[simp] theorem State.setCq_fetch (x : Cq) : (s.setCq n x).fetch = s.fetch := rfl
@[simp] theorem State.setCq_fns (x : Cq) : (s.setCq n x).fns = s.fns := rfl
@[simp] theorem State.setCq_msix (x : Cq) : (s.setCq n x).msix = s.msix := rfl
@[simp] theorem State.setCq_path (x : Cq) : (s.setCq n x).path = s.path := rfl
@[simp] theorem State.setCq_reads (x : Cq) : (s.setCq n x).reads = s.reads := rfl
@[simp] theorem State.setCq_schs (x : Cq) : (s.setCq n x).schs = s.schs := rfl
@[simp] theorem State.setCq_autos (x : Cq) : (s.setCq n x).autos = s.autos := rfl
@[simp] theorem State.setCq_admitted (x : Cq) : (s.setCq n x).admitted = s.admitted := rfl
@[simp] theorem State.setCq_bms (x : Cq) : (s.setCq n x).bms = s.bms := rfl
@[simp] theorem State.setCq_tables (x : Cq) : (s.setCq n x).tables = s.tables := rfl
@[simp] theorem State.setCq_ports (x : Cq) : (s.setCq n x).ports = s.ports := rfl
@[simp] theorem State.setCq_gpio (x : Cq) : (s.setCq n x).gpio = s.gpio := rfl
@[simp] theorem State.setCq_pwms (x : Cq) : (s.setCq n x).pwms = s.pwms := rfl
@[simp] theorem State.setCq_dacs (x : Cq) : (s.setCq n x).dacs = s.dacs := rfl
@[simp] theorem State.setCq_encs (x : Cq) : (s.setCq n x).encs = s.encs := rfl
@[simp] theorem State.setCq_mdio (x : Cq) : (s.setCq n x).mdio = s.mdio := rfl
@[simp] theorem State.setCq_claims (x : Cq) : (s.setCq n x).claims = s.claims := rfl
@[simp] theorem State.setCq_wms (x : Cq) : (s.setCq n x).wms = s.wms := rfl
@[simp] theorem State.setCq_adc (x : Cq) : (s.setCq n x).adc = s.adc := rfl
@[simp] theorem State.setCq_nss (x : Cq) : (s.setCq n x).nss = s.nss := rfl
@[simp] theorem State.setCq_jrn (x : Cq) : (s.setCq n x).jrn = s.jrn := rfl
@[simp] theorem State.setCq_lnk (x : Cq) : (s.setCq n x).lnk = s.lnk := rfl
@[simp] theorem State.setCq_health (x : Cq) : (s.setCq n x).health = s.health := rfl
@[simp] theorem State.setCq_pcie (x : Cq) : (s.setCq n x).pcie = s.pcie := rfl
@[simp] theorem State.setCq_shp (x : Cq) : (s.setCq n x).shp = s.shp := rfl
@[simp] theorem State.setCq_serial (x : Cq) : (s.setCq n x).serial = s.serial := rfl
@[simp] theorem State.setCq_freeCtr (x : Cq) : (s.setCq n x).freeCtr = s.freeCtr := rfl

/-! ### State.setFn -/

@[simp] theorem State.setFn_pending (x : Fn) : (s.setFn n x).pending = s.pending := rfl
@[simp] theorem State.setFn_clk (x : Fn) : (s.setFn n x).clk = s.clk := rfl
@[simp] theorem State.setFn_stime (x : Fn) : (s.setFn n x).stime = s.stime := rfl
@[simp] theorem State.setFn_kiln (x : Fn) : (s.setFn n x).kiln = s.kiln := rfl
@[simp] theorem State.setFn_acct (x : Fn) : (s.setFn n x).acct = s.acct := rfl
@[simp] theorem State.setFn_image (x : Fn) : (s.setFn n x).image = s.image := rfl
@[simp] theorem State.setFn_stage (x : Fn) : (s.setFn n x).stage = s.stage := rfl
@[simp] theorem State.setFn_frozen (x : Fn) : (s.setFn n x).frozen = s.frozen := rfl
@[simp] theorem State.setFn_msp (x : Fn) : (s.setFn n x).msp = s.msp := rfl
@[simp] theorem State.setFn_dev (x : Fn) : (s.setFn n x).dev = s.dev := rfl
@[simp] theorem State.setFn_power (x : Fn) : (s.setFn n x).power = s.power := rfl
@[simp] theorem State.setFn_pins (x : Fn) : (s.setFn n x).pins = s.pins := rfl
@[simp] theorem State.setFn_sags (x : Fn) : (s.setFn n x).sags = s.sags := rfl
@[simp] theorem State.setFn_ls (x : Fn) : (s.setFn n x).ls = s.ls := rfl
@[simp] theorem State.setFn_sqs (x : Fn) : (s.setFn n x).sqs = s.sqs := rfl
@[simp] theorem State.setFn_cqs (x : Fn) : (s.setFn n x).cqs = s.cqs := rfl
@[simp] theorem State.setFn_fetch (x : Fn) : (s.setFn n x).fetch = s.fetch := rfl
@[simp] theorem State.setFn_fns (x : Fn) : (s.setFn n x).fns = s.fns.set {} n x := rfl
@[simp] theorem State.setFn_msix (x : Fn) : (s.setFn n x).msix = s.msix := rfl
@[simp] theorem State.setFn_path (x : Fn) : (s.setFn n x).path = s.path := rfl
@[simp] theorem State.setFn_reads (x : Fn) : (s.setFn n x).reads = s.reads := rfl
@[simp] theorem State.setFn_schs (x : Fn) : (s.setFn n x).schs = s.schs := rfl
@[simp] theorem State.setFn_autos (x : Fn) : (s.setFn n x).autos = s.autos := rfl
@[simp] theorem State.setFn_admitted (x : Fn) : (s.setFn n x).admitted = s.admitted := rfl
@[simp] theorem State.setFn_bms (x : Fn) : (s.setFn n x).bms = s.bms := rfl
@[simp] theorem State.setFn_tables (x : Fn) : (s.setFn n x).tables = s.tables := rfl
@[simp] theorem State.setFn_ports (x : Fn) : (s.setFn n x).ports = s.ports := rfl
@[simp] theorem State.setFn_gpio (x : Fn) : (s.setFn n x).gpio = s.gpio := rfl
@[simp] theorem State.setFn_pwms (x : Fn) : (s.setFn n x).pwms = s.pwms := rfl
@[simp] theorem State.setFn_dacs (x : Fn) : (s.setFn n x).dacs = s.dacs := rfl
@[simp] theorem State.setFn_encs (x : Fn) : (s.setFn n x).encs = s.encs := rfl
@[simp] theorem State.setFn_mdio (x : Fn) : (s.setFn n x).mdio = s.mdio := rfl
@[simp] theorem State.setFn_claims (x : Fn) : (s.setFn n x).claims = s.claims := rfl
@[simp] theorem State.setFn_wms (x : Fn) : (s.setFn n x).wms = s.wms := rfl
@[simp] theorem State.setFn_adc (x : Fn) : (s.setFn n x).adc = s.adc := rfl
@[simp] theorem State.setFn_nss (x : Fn) : (s.setFn n x).nss = s.nss := rfl
@[simp] theorem State.setFn_jrn (x : Fn) : (s.setFn n x).jrn = s.jrn := rfl
@[simp] theorem State.setFn_lnk (x : Fn) : (s.setFn n x).lnk = s.lnk := rfl
@[simp] theorem State.setFn_health (x : Fn) : (s.setFn n x).health = s.health := rfl
@[simp] theorem State.setFn_pcie (x : Fn) : (s.setFn n x).pcie = s.pcie := rfl
@[simp] theorem State.setFn_shp (x : Fn) : (s.setFn n x).shp = s.shp := rfl
@[simp] theorem State.setFn_serial (x : Fn) : (s.setFn n x).serial = s.serial := rfl
@[simp] theorem State.setFn_freeCtr (x : Fn) : (s.setFn n x).freeCtr = s.freeCtr := rfl

/-! ### State.setSch -/

@[simp] theorem State.setSch_pending (x : Sch) : (s.setSch n x).pending = s.pending := rfl
@[simp] theorem State.setSch_clk (x : Sch) : (s.setSch n x).clk = s.clk := rfl
@[simp] theorem State.setSch_stime (x : Sch) : (s.setSch n x).stime = s.stime := rfl
@[simp] theorem State.setSch_kiln (x : Sch) : (s.setSch n x).kiln = s.kiln := rfl
@[simp] theorem State.setSch_acct (x : Sch) : (s.setSch n x).acct = s.acct := rfl
@[simp] theorem State.setSch_image (x : Sch) : (s.setSch n x).image = s.image := rfl
@[simp] theorem State.setSch_stage (x : Sch) : (s.setSch n x).stage = s.stage := rfl
@[simp] theorem State.setSch_frozen (x : Sch) : (s.setSch n x).frozen = s.frozen := rfl
@[simp] theorem State.setSch_msp (x : Sch) : (s.setSch n x).msp = s.msp := rfl
@[simp] theorem State.setSch_dev (x : Sch) : (s.setSch n x).dev = s.dev := rfl
@[simp] theorem State.setSch_power (x : Sch) : (s.setSch n x).power = s.power := rfl
@[simp] theorem State.setSch_pins (x : Sch) : (s.setSch n x).pins = s.pins := rfl
@[simp] theorem State.setSch_sags (x : Sch) : (s.setSch n x).sags = s.sags := rfl
@[simp] theorem State.setSch_ls (x : Sch) : (s.setSch n x).ls = s.ls := rfl
@[simp] theorem State.setSch_sqs (x : Sch) : (s.setSch n x).sqs = s.sqs := rfl
@[simp] theorem State.setSch_cqs (x : Sch) : (s.setSch n x).cqs = s.cqs := rfl
@[simp] theorem State.setSch_fetch (x : Sch) : (s.setSch n x).fetch = s.fetch := rfl
@[simp] theorem State.setSch_fns (x : Sch) : (s.setSch n x).fns = s.fns := rfl
@[simp] theorem State.setSch_msix (x : Sch) : (s.setSch n x).msix = s.msix := rfl
@[simp] theorem State.setSch_path (x : Sch) : (s.setSch n x).path = s.path := rfl
@[simp] theorem State.setSch_reads (x : Sch) : (s.setSch n x).reads = s.reads := rfl
@[simp] theorem State.setSch_schs (x : Sch) : (s.setSch n x).schs = s.schs.set {} n x := rfl
@[simp] theorem State.setSch_autos (x : Sch) : (s.setSch n x).autos = s.autos := rfl
@[simp] theorem State.setSch_admitted (x : Sch) : (s.setSch n x).admitted = s.admitted := rfl
@[simp] theorem State.setSch_bms (x : Sch) : (s.setSch n x).bms = s.bms := rfl
@[simp] theorem State.setSch_tables (x : Sch) : (s.setSch n x).tables = s.tables := rfl
@[simp] theorem State.setSch_ports (x : Sch) : (s.setSch n x).ports = s.ports := rfl
@[simp] theorem State.setSch_gpio (x : Sch) : (s.setSch n x).gpio = s.gpio := rfl
@[simp] theorem State.setSch_pwms (x : Sch) : (s.setSch n x).pwms = s.pwms := rfl
@[simp] theorem State.setSch_dacs (x : Sch) : (s.setSch n x).dacs = s.dacs := rfl
@[simp] theorem State.setSch_encs (x : Sch) : (s.setSch n x).encs = s.encs := rfl
@[simp] theorem State.setSch_mdio (x : Sch) : (s.setSch n x).mdio = s.mdio := rfl
@[simp] theorem State.setSch_claims (x : Sch) : (s.setSch n x).claims = s.claims := rfl
@[simp] theorem State.setSch_wms (x : Sch) : (s.setSch n x).wms = s.wms := rfl
@[simp] theorem State.setSch_adc (x : Sch) : (s.setSch n x).adc = s.adc := rfl
@[simp] theorem State.setSch_nss (x : Sch) : (s.setSch n x).nss = s.nss := rfl
@[simp] theorem State.setSch_jrn (x : Sch) : (s.setSch n x).jrn = s.jrn := rfl
@[simp] theorem State.setSch_lnk (x : Sch) : (s.setSch n x).lnk = s.lnk := rfl
@[simp] theorem State.setSch_health (x : Sch) : (s.setSch n x).health = s.health := rfl
@[simp] theorem State.setSch_pcie (x : Sch) : (s.setSch n x).pcie = s.pcie := rfl
@[simp] theorem State.setSch_shp (x : Sch) : (s.setSch n x).shp = s.shp := rfl
@[simp] theorem State.setSch_serial (x : Sch) : (s.setSch n x).serial = s.serial := rfl
@[simp] theorem State.setSch_freeCtr (x : Sch) : (s.setSch n x).freeCtr = s.freeCtr := rfl

/-! ### State.setBm -/

@[simp] theorem State.setBm_pending (x : Bm) : (s.setBm n x).pending = s.pending := rfl
@[simp] theorem State.setBm_clk (x : Bm) : (s.setBm n x).clk = s.clk := rfl
@[simp] theorem State.setBm_stime (x : Bm) : (s.setBm n x).stime = s.stime := rfl
@[simp] theorem State.setBm_kiln (x : Bm) : (s.setBm n x).kiln = s.kiln := rfl
@[simp] theorem State.setBm_acct (x : Bm) : (s.setBm n x).acct = s.acct := rfl
@[simp] theorem State.setBm_image (x : Bm) : (s.setBm n x).image = s.image := rfl
@[simp] theorem State.setBm_stage (x : Bm) : (s.setBm n x).stage = s.stage := rfl
@[simp] theorem State.setBm_frozen (x : Bm) : (s.setBm n x).frozen = s.frozen := rfl
@[simp] theorem State.setBm_msp (x : Bm) : (s.setBm n x).msp = s.msp := rfl
@[simp] theorem State.setBm_dev (x : Bm) : (s.setBm n x).dev = s.dev := rfl
@[simp] theorem State.setBm_power (x : Bm) : (s.setBm n x).power = s.power := rfl
@[simp] theorem State.setBm_pins (x : Bm) : (s.setBm n x).pins = s.pins := rfl
@[simp] theorem State.setBm_sags (x : Bm) : (s.setBm n x).sags = s.sags := rfl
@[simp] theorem State.setBm_ls (x : Bm) : (s.setBm n x).ls = s.ls := rfl
@[simp] theorem State.setBm_sqs (x : Bm) : (s.setBm n x).sqs = s.sqs := rfl
@[simp] theorem State.setBm_cqs (x : Bm) : (s.setBm n x).cqs = s.cqs := rfl
@[simp] theorem State.setBm_fetch (x : Bm) : (s.setBm n x).fetch = s.fetch := rfl
@[simp] theorem State.setBm_fns (x : Bm) : (s.setBm n x).fns = s.fns := rfl
@[simp] theorem State.setBm_msix (x : Bm) : (s.setBm n x).msix = s.msix := rfl
@[simp] theorem State.setBm_path (x : Bm) : (s.setBm n x).path = s.path := rfl
@[simp] theorem State.setBm_reads (x : Bm) : (s.setBm n x).reads = s.reads := rfl
@[simp] theorem State.setBm_schs (x : Bm) : (s.setBm n x).schs = s.schs := rfl
@[simp] theorem State.setBm_autos (x : Bm) : (s.setBm n x).autos = s.autos := rfl
@[simp] theorem State.setBm_admitted (x : Bm) : (s.setBm n x).admitted = s.admitted := rfl
@[simp] theorem State.setBm_bms (x : Bm) : (s.setBm n x).bms = s.bms.set {} n x := rfl
@[simp] theorem State.setBm_tables (x : Bm) : (s.setBm n x).tables = s.tables := rfl
@[simp] theorem State.setBm_ports (x : Bm) : (s.setBm n x).ports = s.ports := rfl
@[simp] theorem State.setBm_gpio (x : Bm) : (s.setBm n x).gpio = s.gpio := rfl
@[simp] theorem State.setBm_pwms (x : Bm) : (s.setBm n x).pwms = s.pwms := rfl
@[simp] theorem State.setBm_dacs (x : Bm) : (s.setBm n x).dacs = s.dacs := rfl
@[simp] theorem State.setBm_encs (x : Bm) : (s.setBm n x).encs = s.encs := rfl
@[simp] theorem State.setBm_mdio (x : Bm) : (s.setBm n x).mdio = s.mdio := rfl
@[simp] theorem State.setBm_claims (x : Bm) : (s.setBm n x).claims = s.claims := rfl
@[simp] theorem State.setBm_wms (x : Bm) : (s.setBm n x).wms = s.wms := rfl
@[simp] theorem State.setBm_adc (x : Bm) : (s.setBm n x).adc = s.adc := rfl
@[simp] theorem State.setBm_nss (x : Bm) : (s.setBm n x).nss = s.nss := rfl
@[simp] theorem State.setBm_jrn (x : Bm) : (s.setBm n x).jrn = s.jrn := rfl
@[simp] theorem State.setBm_lnk (x : Bm) : (s.setBm n x).lnk = s.lnk := rfl
@[simp] theorem State.setBm_health (x : Bm) : (s.setBm n x).health = s.health := rfl
@[simp] theorem State.setBm_pcie (x : Bm) : (s.setBm n x).pcie = s.pcie := rfl
@[simp] theorem State.setBm_shp (x : Bm) : (s.setBm n x).shp = s.shp := rfl
@[simp] theorem State.setBm_serial (x : Bm) : (s.setBm n x).serial = s.serial := rfl
@[simp] theorem State.setBm_freeCtr (x : Bm) : (s.setBm n x).freeCtr = s.freeCtr := rfl

/-! ### State.setPort -/

@[simp] theorem State.setPort_pending (x : Port) : (s.setPort n x).pending = s.pending := rfl
@[simp] theorem State.setPort_clk (x : Port) : (s.setPort n x).clk = s.clk := rfl
@[simp] theorem State.setPort_stime (x : Port) : (s.setPort n x).stime = s.stime := rfl
@[simp] theorem State.setPort_kiln (x : Port) : (s.setPort n x).kiln = s.kiln := rfl
@[simp] theorem State.setPort_acct (x : Port) : (s.setPort n x).acct = s.acct := rfl
@[simp] theorem State.setPort_image (x : Port) : (s.setPort n x).image = s.image := rfl
@[simp] theorem State.setPort_stage (x : Port) : (s.setPort n x).stage = s.stage := rfl
@[simp] theorem State.setPort_frozen (x : Port) : (s.setPort n x).frozen = s.frozen := rfl
@[simp] theorem State.setPort_msp (x : Port) : (s.setPort n x).msp = s.msp := rfl
@[simp] theorem State.setPort_dev (x : Port) : (s.setPort n x).dev = s.dev := rfl
@[simp] theorem State.setPort_power (x : Port) : (s.setPort n x).power = s.power := rfl
@[simp] theorem State.setPort_pins (x : Port) : (s.setPort n x).pins = s.pins := rfl
@[simp] theorem State.setPort_sags (x : Port) : (s.setPort n x).sags = s.sags := rfl
@[simp] theorem State.setPort_ls (x : Port) : (s.setPort n x).ls = s.ls := rfl
@[simp] theorem State.setPort_sqs (x : Port) : (s.setPort n x).sqs = s.sqs := rfl
@[simp] theorem State.setPort_cqs (x : Port) : (s.setPort n x).cqs = s.cqs := rfl
@[simp] theorem State.setPort_fetch (x : Port) : (s.setPort n x).fetch = s.fetch := rfl
@[simp] theorem State.setPort_fns (x : Port) : (s.setPort n x).fns = s.fns := rfl
@[simp] theorem State.setPort_msix (x : Port) : (s.setPort n x).msix = s.msix := rfl
@[simp] theorem State.setPort_path (x : Port) : (s.setPort n x).path = s.path := rfl
@[simp] theorem State.setPort_reads (x : Port) : (s.setPort n x).reads = s.reads := rfl
@[simp] theorem State.setPort_schs (x : Port) : (s.setPort n x).schs = s.schs := rfl
@[simp] theorem State.setPort_autos (x : Port) : (s.setPort n x).autos = s.autos := rfl
@[simp] theorem State.setPort_admitted (x : Port) : (s.setPort n x).admitted = s.admitted := rfl
@[simp] theorem State.setPort_bms (x : Port) : (s.setPort n x).bms = s.bms := rfl
@[simp] theorem State.setPort_tables (x : Port) : (s.setPort n x).tables = s.tables := rfl
@[simp] theorem State.setPort_ports (x : Port) : (s.setPort n x).ports = s.ports.set {} n x := rfl
@[simp] theorem State.setPort_gpio (x : Port) : (s.setPort n x).gpio = s.gpio := rfl
@[simp] theorem State.setPort_pwms (x : Port) : (s.setPort n x).pwms = s.pwms := rfl
@[simp] theorem State.setPort_dacs (x : Port) : (s.setPort n x).dacs = s.dacs := rfl
@[simp] theorem State.setPort_encs (x : Port) : (s.setPort n x).encs = s.encs := rfl
@[simp] theorem State.setPort_mdio (x : Port) : (s.setPort n x).mdio = s.mdio := rfl
@[simp] theorem State.setPort_claims (x : Port) : (s.setPort n x).claims = s.claims := rfl
@[simp] theorem State.setPort_wms (x : Port) : (s.setPort n x).wms = s.wms := rfl
@[simp] theorem State.setPort_adc (x : Port) : (s.setPort n x).adc = s.adc := rfl
@[simp] theorem State.setPort_nss (x : Port) : (s.setPort n x).nss = s.nss := rfl
@[simp] theorem State.setPort_jrn (x : Port) : (s.setPort n x).jrn = s.jrn := rfl
@[simp] theorem State.setPort_lnk (x : Port) : (s.setPort n x).lnk = s.lnk := rfl
@[simp] theorem State.setPort_health (x : Port) : (s.setPort n x).health = s.health := rfl
@[simp] theorem State.setPort_pcie (x : Port) : (s.setPort n x).pcie = s.pcie := rfl
@[simp] theorem State.setPort_shp (x : Port) : (s.setPort n x).shp = s.shp := rfl
@[simp] theorem State.setPort_serial (x : Port) : (s.setPort n x).serial = s.serial := rfl
@[simp] theorem State.setPort_freeCtr (x : Port) : (s.setPort n x).freeCtr = s.freeCtr := rfl

/-! ### State.setWm -/

@[simp] theorem State.setWm_pending (x : Wm) : (s.setWm n x).pending = s.pending := rfl
@[simp] theorem State.setWm_clk (x : Wm) : (s.setWm n x).clk = s.clk := rfl
@[simp] theorem State.setWm_stime (x : Wm) : (s.setWm n x).stime = s.stime := rfl
@[simp] theorem State.setWm_kiln (x : Wm) : (s.setWm n x).kiln = s.kiln := rfl
@[simp] theorem State.setWm_acct (x : Wm) : (s.setWm n x).acct = s.acct := rfl
@[simp] theorem State.setWm_image (x : Wm) : (s.setWm n x).image = s.image := rfl
@[simp] theorem State.setWm_stage (x : Wm) : (s.setWm n x).stage = s.stage := rfl
@[simp] theorem State.setWm_frozen (x : Wm) : (s.setWm n x).frozen = s.frozen := rfl
@[simp] theorem State.setWm_msp (x : Wm) : (s.setWm n x).msp = s.msp := rfl
@[simp] theorem State.setWm_dev (x : Wm) : (s.setWm n x).dev = s.dev := rfl
@[simp] theorem State.setWm_power (x : Wm) : (s.setWm n x).power = s.power := rfl
@[simp] theorem State.setWm_pins (x : Wm) : (s.setWm n x).pins = s.pins := rfl
@[simp] theorem State.setWm_sags (x : Wm) : (s.setWm n x).sags = s.sags := rfl
@[simp] theorem State.setWm_ls (x : Wm) : (s.setWm n x).ls = s.ls := rfl
@[simp] theorem State.setWm_sqs (x : Wm) : (s.setWm n x).sqs = s.sqs := rfl
@[simp] theorem State.setWm_cqs (x : Wm) : (s.setWm n x).cqs = s.cqs := rfl
@[simp] theorem State.setWm_fetch (x : Wm) : (s.setWm n x).fetch = s.fetch := rfl
@[simp] theorem State.setWm_fns (x : Wm) : (s.setWm n x).fns = s.fns := rfl
@[simp] theorem State.setWm_msix (x : Wm) : (s.setWm n x).msix = s.msix := rfl
@[simp] theorem State.setWm_path (x : Wm) : (s.setWm n x).path = s.path := rfl
@[simp] theorem State.setWm_reads (x : Wm) : (s.setWm n x).reads = s.reads := rfl
@[simp] theorem State.setWm_schs (x : Wm) : (s.setWm n x).schs = s.schs := rfl
@[simp] theorem State.setWm_autos (x : Wm) : (s.setWm n x).autos = s.autos := rfl
@[simp] theorem State.setWm_admitted (x : Wm) : (s.setWm n x).admitted = s.admitted := rfl
@[simp] theorem State.setWm_bms (x : Wm) : (s.setWm n x).bms = s.bms := rfl
@[simp] theorem State.setWm_tables (x : Wm) : (s.setWm n x).tables = s.tables := rfl
@[simp] theorem State.setWm_ports (x : Wm) : (s.setWm n x).ports = s.ports := rfl
@[simp] theorem State.setWm_gpio (x : Wm) : (s.setWm n x).gpio = s.gpio := rfl
@[simp] theorem State.setWm_pwms (x : Wm) : (s.setWm n x).pwms = s.pwms := rfl
@[simp] theorem State.setWm_dacs (x : Wm) : (s.setWm n x).dacs = s.dacs := rfl
@[simp] theorem State.setWm_encs (x : Wm) : (s.setWm n x).encs = s.encs := rfl
@[simp] theorem State.setWm_mdio (x : Wm) : (s.setWm n x).mdio = s.mdio := rfl
@[simp] theorem State.setWm_claims (x : Wm) : (s.setWm n x).claims = s.claims := rfl
@[simp] theorem State.setWm_wms (x : Wm) : (s.setWm n x).wms = s.wms.set {} n x := rfl
@[simp] theorem State.setWm_adc (x : Wm) : (s.setWm n x).adc = s.adc := rfl
@[simp] theorem State.setWm_nss (x : Wm) : (s.setWm n x).nss = s.nss := rfl
@[simp] theorem State.setWm_jrn (x : Wm) : (s.setWm n x).jrn = s.jrn := rfl
@[simp] theorem State.setWm_lnk (x : Wm) : (s.setWm n x).lnk = s.lnk := rfl
@[simp] theorem State.setWm_health (x : Wm) : (s.setWm n x).health = s.health := rfl
@[simp] theorem State.setWm_pcie (x : Wm) : (s.setWm n x).pcie = s.pcie := rfl
@[simp] theorem State.setWm_shp (x : Wm) : (s.setWm n x).shp = s.shp := rfl
@[simp] theorem State.setWm_serial (x : Wm) : (s.setWm n x).serial = s.serial := rfl
@[simp] theorem State.setWm_freeCtr (x : Wm) : (s.setWm n x).freeCtr = s.freeCtr := rfl

/-! ### State.setNs -/

@[simp] theorem State.setNs_pending (x : Ns) : (s.setNs n x).pending = s.pending := rfl
@[simp] theorem State.setNs_clk (x : Ns) : (s.setNs n x).clk = s.clk := rfl
@[simp] theorem State.setNs_stime (x : Ns) : (s.setNs n x).stime = s.stime := rfl
@[simp] theorem State.setNs_kiln (x : Ns) : (s.setNs n x).kiln = s.kiln := rfl
@[simp] theorem State.setNs_acct (x : Ns) : (s.setNs n x).acct = s.acct := rfl
@[simp] theorem State.setNs_image (x : Ns) : (s.setNs n x).image = s.image := rfl
@[simp] theorem State.setNs_stage (x : Ns) : (s.setNs n x).stage = s.stage := rfl
@[simp] theorem State.setNs_frozen (x : Ns) : (s.setNs n x).frozen = s.frozen := rfl
@[simp] theorem State.setNs_msp (x : Ns) : (s.setNs n x).msp = s.msp := rfl
@[simp] theorem State.setNs_dev (x : Ns) : (s.setNs n x).dev = s.dev := rfl
@[simp] theorem State.setNs_power (x : Ns) : (s.setNs n x).power = s.power := rfl
@[simp] theorem State.setNs_pins (x : Ns) : (s.setNs n x).pins = s.pins := rfl
@[simp] theorem State.setNs_sags (x : Ns) : (s.setNs n x).sags = s.sags := rfl
@[simp] theorem State.setNs_ls (x : Ns) : (s.setNs n x).ls = s.ls := rfl
@[simp] theorem State.setNs_sqs (x : Ns) : (s.setNs n x).sqs = s.sqs := rfl
@[simp] theorem State.setNs_cqs (x : Ns) : (s.setNs n x).cqs = s.cqs := rfl
@[simp] theorem State.setNs_fetch (x : Ns) : (s.setNs n x).fetch = s.fetch := rfl
@[simp] theorem State.setNs_fns (x : Ns) : (s.setNs n x).fns = s.fns := rfl
@[simp] theorem State.setNs_msix (x : Ns) : (s.setNs n x).msix = s.msix := rfl
@[simp] theorem State.setNs_path (x : Ns) : (s.setNs n x).path = s.path := rfl
@[simp] theorem State.setNs_reads (x : Ns) : (s.setNs n x).reads = s.reads := rfl
@[simp] theorem State.setNs_schs (x : Ns) : (s.setNs n x).schs = s.schs := rfl
@[simp] theorem State.setNs_autos (x : Ns) : (s.setNs n x).autos = s.autos := rfl
@[simp] theorem State.setNs_admitted (x : Ns) : (s.setNs n x).admitted = s.admitted := rfl
@[simp] theorem State.setNs_bms (x : Ns) : (s.setNs n x).bms = s.bms := rfl
@[simp] theorem State.setNs_tables (x : Ns) : (s.setNs n x).tables = s.tables := rfl
@[simp] theorem State.setNs_ports (x : Ns) : (s.setNs n x).ports = s.ports := rfl
@[simp] theorem State.setNs_gpio (x : Ns) : (s.setNs n x).gpio = s.gpio := rfl
@[simp] theorem State.setNs_pwms (x : Ns) : (s.setNs n x).pwms = s.pwms := rfl
@[simp] theorem State.setNs_dacs (x : Ns) : (s.setNs n x).dacs = s.dacs := rfl
@[simp] theorem State.setNs_encs (x : Ns) : (s.setNs n x).encs = s.encs := rfl
@[simp] theorem State.setNs_mdio (x : Ns) : (s.setNs n x).mdio = s.mdio := rfl
@[simp] theorem State.setNs_claims (x : Ns) : (s.setNs n x).claims = s.claims := rfl
@[simp] theorem State.setNs_wms (x : Ns) : (s.setNs n x).wms = s.wms := rfl
@[simp] theorem State.setNs_adc (x : Ns) : (s.setNs n x).adc = s.adc := rfl
@[simp] theorem State.setNs_nss (x : Ns) : (s.setNs n x).nss = s.nss.set {} n x := rfl
@[simp] theorem State.setNs_jrn (x : Ns) : (s.setNs n x).jrn = s.jrn := rfl
@[simp] theorem State.setNs_lnk (x : Ns) : (s.setNs n x).lnk = s.lnk := rfl
@[simp] theorem State.setNs_health (x : Ns) : (s.setNs n x).health = s.health := rfl
@[simp] theorem State.setNs_pcie (x : Ns) : (s.setNs n x).pcie = s.pcie := rfl
@[simp] theorem State.setNs_shp (x : Ns) : (s.setNs n x).shp = s.shp := rfl
@[simp] theorem State.setNs_serial (x : Ns) : (s.setNs n x).serial = s.serial := rfl
@[simp] theorem State.setNs_freeCtr (x : Ns) : (s.setNs n x).freeCtr = s.freeCtr := rfl

/-! ### State.setClaim -/

@[simp] theorem State.setClaim_pending (x : ClaimGroup) : (s.setClaim n x).pending = s.pending := rfl
@[simp] theorem State.setClaim_clk (x : ClaimGroup) : (s.setClaim n x).clk = s.clk := rfl
@[simp] theorem State.setClaim_stime (x : ClaimGroup) : (s.setClaim n x).stime = s.stime := rfl
@[simp] theorem State.setClaim_kiln (x : ClaimGroup) : (s.setClaim n x).kiln = s.kiln := rfl
@[simp] theorem State.setClaim_acct (x : ClaimGroup) : (s.setClaim n x).acct = s.acct := rfl
@[simp] theorem State.setClaim_image (x : ClaimGroup) : (s.setClaim n x).image = s.image := rfl
@[simp] theorem State.setClaim_stage (x : ClaimGroup) : (s.setClaim n x).stage = s.stage := rfl
@[simp] theorem State.setClaim_frozen (x : ClaimGroup) : (s.setClaim n x).frozen = s.frozen := rfl
@[simp] theorem State.setClaim_msp (x : ClaimGroup) : (s.setClaim n x).msp = s.msp := rfl
@[simp] theorem State.setClaim_dev (x : ClaimGroup) : (s.setClaim n x).dev = s.dev := rfl
@[simp] theorem State.setClaim_power (x : ClaimGroup) : (s.setClaim n x).power = s.power := rfl
@[simp] theorem State.setClaim_pins (x : ClaimGroup) : (s.setClaim n x).pins = s.pins := rfl
@[simp] theorem State.setClaim_sags (x : ClaimGroup) : (s.setClaim n x).sags = s.sags := rfl
@[simp] theorem State.setClaim_ls (x : ClaimGroup) : (s.setClaim n x).ls = s.ls := rfl
@[simp] theorem State.setClaim_sqs (x : ClaimGroup) : (s.setClaim n x).sqs = s.sqs := rfl
@[simp] theorem State.setClaim_cqs (x : ClaimGroup) : (s.setClaim n x).cqs = s.cqs := rfl
@[simp] theorem State.setClaim_fetch (x : ClaimGroup) : (s.setClaim n x).fetch = s.fetch := rfl
@[simp] theorem State.setClaim_fns (x : ClaimGroup) : (s.setClaim n x).fns = s.fns := rfl
@[simp] theorem State.setClaim_msix (x : ClaimGroup) : (s.setClaim n x).msix = s.msix := rfl
@[simp] theorem State.setClaim_path (x : ClaimGroup) : (s.setClaim n x).path = s.path := rfl
@[simp] theorem State.setClaim_reads (x : ClaimGroup) : (s.setClaim n x).reads = s.reads := rfl
@[simp] theorem State.setClaim_schs (x : ClaimGroup) : (s.setClaim n x).schs = s.schs := rfl
@[simp] theorem State.setClaim_autos (x : ClaimGroup) : (s.setClaim n x).autos = s.autos := rfl
@[simp] theorem State.setClaim_admitted (x : ClaimGroup) : (s.setClaim n x).admitted = s.admitted := rfl
@[simp] theorem State.setClaim_bms (x : ClaimGroup) : (s.setClaim n x).bms = s.bms := rfl
@[simp] theorem State.setClaim_tables (x : ClaimGroup) : (s.setClaim n x).tables = s.tables := rfl
@[simp] theorem State.setClaim_ports (x : ClaimGroup) : (s.setClaim n x).ports = s.ports := rfl
@[simp] theorem State.setClaim_gpio (x : ClaimGroup) : (s.setClaim n x).gpio = s.gpio := rfl
@[simp] theorem State.setClaim_pwms (x : ClaimGroup) : (s.setClaim n x).pwms = s.pwms := rfl
@[simp] theorem State.setClaim_dacs (x : ClaimGroup) : (s.setClaim n x).dacs = s.dacs := rfl
@[simp] theorem State.setClaim_encs (x : ClaimGroup) : (s.setClaim n x).encs = s.encs := rfl
@[simp] theorem State.setClaim_mdio (x : ClaimGroup) : (s.setClaim n x).mdio = s.mdio := rfl
@[simp] theorem State.setClaim_claims (x : ClaimGroup) : (s.setClaim n x).claims = s.claims.set {} n x := rfl
@[simp] theorem State.setClaim_wms (x : ClaimGroup) : (s.setClaim n x).wms = s.wms := rfl
@[simp] theorem State.setClaim_adc (x : ClaimGroup) : (s.setClaim n x).adc = s.adc := rfl
@[simp] theorem State.setClaim_nss (x : ClaimGroup) : (s.setClaim n x).nss = s.nss := rfl
@[simp] theorem State.setClaim_jrn (x : ClaimGroup) : (s.setClaim n x).jrn = s.jrn := rfl
@[simp] theorem State.setClaim_lnk (x : ClaimGroup) : (s.setClaim n x).lnk = s.lnk := rfl
@[simp] theorem State.setClaim_health (x : ClaimGroup) : (s.setClaim n x).health = s.health := rfl
@[simp] theorem State.setClaim_pcie (x : ClaimGroup) : (s.setClaim n x).pcie = s.pcie := rfl
@[simp] theorem State.setClaim_shp (x : ClaimGroup) : (s.setClaim n x).shp = s.shp := rfl
@[simp] theorem State.setClaim_serial (x : ClaimGroup) : (s.setClaim n x).serial = s.serial := rfl
@[simp] theorem State.setClaim_freeCtr (x : ClaimGroup) : (s.setClaim n x).freeCtr = s.freeCtr := rfl

/-! ### State.setCpAcct -/

@[simp] theorem State.setCpAcct_pending (x : CpAcct) : (s.setCpAcct n x).pending = s.pending := rfl
@[simp] theorem State.setCpAcct_clk (x : CpAcct) : (s.setCpAcct n x).clk = s.clk := rfl
@[simp] theorem State.setCpAcct_stime (x : CpAcct) : (s.setCpAcct n x).stime = s.stime := rfl
@[simp] theorem State.setCpAcct_kiln (x : CpAcct) : (s.setCpAcct n x).kiln = s.kiln := rfl
@[simp] theorem State.setCpAcct_acct (x : CpAcct) : (s.setCpAcct n x).acct = s.acct.set {} n x := rfl
@[simp] theorem State.setCpAcct_image (x : CpAcct) : (s.setCpAcct n x).image = s.image := rfl
@[simp] theorem State.setCpAcct_stage (x : CpAcct) : (s.setCpAcct n x).stage = s.stage := rfl
@[simp] theorem State.setCpAcct_frozen (x : CpAcct) : (s.setCpAcct n x).frozen = s.frozen := rfl
@[simp] theorem State.setCpAcct_msp (x : CpAcct) : (s.setCpAcct n x).msp = s.msp := rfl
@[simp] theorem State.setCpAcct_dev (x : CpAcct) : (s.setCpAcct n x).dev = s.dev := rfl
@[simp] theorem State.setCpAcct_power (x : CpAcct) : (s.setCpAcct n x).power = s.power := rfl
@[simp] theorem State.setCpAcct_pins (x : CpAcct) : (s.setCpAcct n x).pins = s.pins := rfl
@[simp] theorem State.setCpAcct_sags (x : CpAcct) : (s.setCpAcct n x).sags = s.sags := rfl
@[simp] theorem State.setCpAcct_ls (x : CpAcct) : (s.setCpAcct n x).ls = s.ls := rfl
@[simp] theorem State.setCpAcct_sqs (x : CpAcct) : (s.setCpAcct n x).sqs = s.sqs := rfl
@[simp] theorem State.setCpAcct_cqs (x : CpAcct) : (s.setCpAcct n x).cqs = s.cqs := rfl
@[simp] theorem State.setCpAcct_fetch (x : CpAcct) : (s.setCpAcct n x).fetch = s.fetch := rfl
@[simp] theorem State.setCpAcct_fns (x : CpAcct) : (s.setCpAcct n x).fns = s.fns := rfl
@[simp] theorem State.setCpAcct_msix (x : CpAcct) : (s.setCpAcct n x).msix = s.msix := rfl
@[simp] theorem State.setCpAcct_path (x : CpAcct) : (s.setCpAcct n x).path = s.path := rfl
@[simp] theorem State.setCpAcct_reads (x : CpAcct) : (s.setCpAcct n x).reads = s.reads := rfl
@[simp] theorem State.setCpAcct_schs (x : CpAcct) : (s.setCpAcct n x).schs = s.schs := rfl
@[simp] theorem State.setCpAcct_autos (x : CpAcct) : (s.setCpAcct n x).autos = s.autos := rfl
@[simp] theorem State.setCpAcct_admitted (x : CpAcct) : (s.setCpAcct n x).admitted = s.admitted := rfl
@[simp] theorem State.setCpAcct_bms (x : CpAcct) : (s.setCpAcct n x).bms = s.bms := rfl
@[simp] theorem State.setCpAcct_tables (x : CpAcct) : (s.setCpAcct n x).tables = s.tables := rfl
@[simp] theorem State.setCpAcct_ports (x : CpAcct) : (s.setCpAcct n x).ports = s.ports := rfl
@[simp] theorem State.setCpAcct_gpio (x : CpAcct) : (s.setCpAcct n x).gpio = s.gpio := rfl
@[simp] theorem State.setCpAcct_pwms (x : CpAcct) : (s.setCpAcct n x).pwms = s.pwms := rfl
@[simp] theorem State.setCpAcct_dacs (x : CpAcct) : (s.setCpAcct n x).dacs = s.dacs := rfl
@[simp] theorem State.setCpAcct_encs (x : CpAcct) : (s.setCpAcct n x).encs = s.encs := rfl
@[simp] theorem State.setCpAcct_mdio (x : CpAcct) : (s.setCpAcct n x).mdio = s.mdio := rfl
@[simp] theorem State.setCpAcct_claims (x : CpAcct) : (s.setCpAcct n x).claims = s.claims := rfl
@[simp] theorem State.setCpAcct_wms (x : CpAcct) : (s.setCpAcct n x).wms = s.wms := rfl
@[simp] theorem State.setCpAcct_adc (x : CpAcct) : (s.setCpAcct n x).adc = s.adc := rfl
@[simp] theorem State.setCpAcct_nss (x : CpAcct) : (s.setCpAcct n x).nss = s.nss := rfl
@[simp] theorem State.setCpAcct_jrn (x : CpAcct) : (s.setCpAcct n x).jrn = s.jrn := rfl
@[simp] theorem State.setCpAcct_lnk (x : CpAcct) : (s.setCpAcct n x).lnk = s.lnk := rfl
@[simp] theorem State.setCpAcct_health (x : CpAcct) : (s.setCpAcct n x).health = s.health := rfl
@[simp] theorem State.setCpAcct_pcie (x : CpAcct) : (s.setCpAcct n x).pcie = s.pcie := rfl
@[simp] theorem State.setCpAcct_shp (x : CpAcct) : (s.setCpAcct n x).shp = s.shp := rfl
@[simp] theorem State.setCpAcct_serial (x : CpAcct) : (s.setCpAcct n x).serial = s.serial := rfl
@[simp] theorem State.setCpAcct_freeCtr (x : CpAcct) : (s.setCpAcct n x).freeCtr = s.freeCtr := rfl

/-! ### State.setPwm -/

@[simp] theorem State.setPwm_pending (x : Pwm) : (s.setPwm n x).pending = s.pending := rfl
@[simp] theorem State.setPwm_clk (x : Pwm) : (s.setPwm n x).clk = s.clk := rfl
@[simp] theorem State.setPwm_stime (x : Pwm) : (s.setPwm n x).stime = s.stime := rfl
@[simp] theorem State.setPwm_kiln (x : Pwm) : (s.setPwm n x).kiln = s.kiln := rfl
@[simp] theorem State.setPwm_acct (x : Pwm) : (s.setPwm n x).acct = s.acct := rfl
@[simp] theorem State.setPwm_image (x : Pwm) : (s.setPwm n x).image = s.image := rfl
@[simp] theorem State.setPwm_stage (x : Pwm) : (s.setPwm n x).stage = s.stage := rfl
@[simp] theorem State.setPwm_frozen (x : Pwm) : (s.setPwm n x).frozen = s.frozen := rfl
@[simp] theorem State.setPwm_msp (x : Pwm) : (s.setPwm n x).msp = s.msp := rfl
@[simp] theorem State.setPwm_dev (x : Pwm) : (s.setPwm n x).dev = s.dev := rfl
@[simp] theorem State.setPwm_power (x : Pwm) : (s.setPwm n x).power = s.power := rfl
@[simp] theorem State.setPwm_pins (x : Pwm) : (s.setPwm n x).pins = s.pins := rfl
@[simp] theorem State.setPwm_sags (x : Pwm) : (s.setPwm n x).sags = s.sags := rfl
@[simp] theorem State.setPwm_ls (x : Pwm) : (s.setPwm n x).ls = s.ls := rfl
@[simp] theorem State.setPwm_sqs (x : Pwm) : (s.setPwm n x).sqs = s.sqs := rfl
@[simp] theorem State.setPwm_cqs (x : Pwm) : (s.setPwm n x).cqs = s.cqs := rfl
@[simp] theorem State.setPwm_fetch (x : Pwm) : (s.setPwm n x).fetch = s.fetch := rfl
@[simp] theorem State.setPwm_fns (x : Pwm) : (s.setPwm n x).fns = s.fns := rfl
@[simp] theorem State.setPwm_msix (x : Pwm) : (s.setPwm n x).msix = s.msix := rfl
@[simp] theorem State.setPwm_path (x : Pwm) : (s.setPwm n x).path = s.path := rfl
@[simp] theorem State.setPwm_reads (x : Pwm) : (s.setPwm n x).reads = s.reads := rfl
@[simp] theorem State.setPwm_schs (x : Pwm) : (s.setPwm n x).schs = s.schs := rfl
@[simp] theorem State.setPwm_autos (x : Pwm) : (s.setPwm n x).autos = s.autos := rfl
@[simp] theorem State.setPwm_admitted (x : Pwm) : (s.setPwm n x).admitted = s.admitted := rfl
@[simp] theorem State.setPwm_bms (x : Pwm) : (s.setPwm n x).bms = s.bms := rfl
@[simp] theorem State.setPwm_tables (x : Pwm) : (s.setPwm n x).tables = s.tables := rfl
@[simp] theorem State.setPwm_ports (x : Pwm) : (s.setPwm n x).ports = s.ports := rfl
@[simp] theorem State.setPwm_gpio (x : Pwm) : (s.setPwm n x).gpio = s.gpio := rfl
@[simp] theorem State.setPwm_pwms (x : Pwm) : (s.setPwm n x).pwms = s.pwms.set {} n x := rfl
@[simp] theorem State.setPwm_dacs (x : Pwm) : (s.setPwm n x).dacs = s.dacs := rfl
@[simp] theorem State.setPwm_encs (x : Pwm) : (s.setPwm n x).encs = s.encs := rfl
@[simp] theorem State.setPwm_mdio (x : Pwm) : (s.setPwm n x).mdio = s.mdio := rfl
@[simp] theorem State.setPwm_claims (x : Pwm) : (s.setPwm n x).claims = s.claims := rfl
@[simp] theorem State.setPwm_wms (x : Pwm) : (s.setPwm n x).wms = s.wms := rfl
@[simp] theorem State.setPwm_adc (x : Pwm) : (s.setPwm n x).adc = s.adc := rfl
@[simp] theorem State.setPwm_nss (x : Pwm) : (s.setPwm n x).nss = s.nss := rfl
@[simp] theorem State.setPwm_jrn (x : Pwm) : (s.setPwm n x).jrn = s.jrn := rfl
@[simp] theorem State.setPwm_lnk (x : Pwm) : (s.setPwm n x).lnk = s.lnk := rfl
@[simp] theorem State.setPwm_health (x : Pwm) : (s.setPwm n x).health = s.health := rfl
@[simp] theorem State.setPwm_pcie (x : Pwm) : (s.setPwm n x).pcie = s.pcie := rfl
@[simp] theorem State.setPwm_shp (x : Pwm) : (s.setPwm n x).shp = s.shp := rfl
@[simp] theorem State.setPwm_serial (x : Pwm) : (s.setPwm n x).serial = s.serial := rfl
@[simp] theorem State.setPwm_freeCtr (x : Pwm) : (s.setPwm n x).freeCtr = s.freeCtr := rfl

/-! ### State.setDac -/

@[simp] theorem State.setDac_pending (x : Dac) : (s.setDac n x).pending = s.pending := rfl
@[simp] theorem State.setDac_clk (x : Dac) : (s.setDac n x).clk = s.clk := rfl
@[simp] theorem State.setDac_stime (x : Dac) : (s.setDac n x).stime = s.stime := rfl
@[simp] theorem State.setDac_kiln (x : Dac) : (s.setDac n x).kiln = s.kiln := rfl
@[simp] theorem State.setDac_acct (x : Dac) : (s.setDac n x).acct = s.acct := rfl
@[simp] theorem State.setDac_image (x : Dac) : (s.setDac n x).image = s.image := rfl
@[simp] theorem State.setDac_stage (x : Dac) : (s.setDac n x).stage = s.stage := rfl
@[simp] theorem State.setDac_frozen (x : Dac) : (s.setDac n x).frozen = s.frozen := rfl
@[simp] theorem State.setDac_msp (x : Dac) : (s.setDac n x).msp = s.msp := rfl
@[simp] theorem State.setDac_dev (x : Dac) : (s.setDac n x).dev = s.dev := rfl
@[simp] theorem State.setDac_power (x : Dac) : (s.setDac n x).power = s.power := rfl
@[simp] theorem State.setDac_pins (x : Dac) : (s.setDac n x).pins = s.pins := rfl
@[simp] theorem State.setDac_sags (x : Dac) : (s.setDac n x).sags = s.sags := rfl
@[simp] theorem State.setDac_ls (x : Dac) : (s.setDac n x).ls = s.ls := rfl
@[simp] theorem State.setDac_sqs (x : Dac) : (s.setDac n x).sqs = s.sqs := rfl
@[simp] theorem State.setDac_cqs (x : Dac) : (s.setDac n x).cqs = s.cqs := rfl
@[simp] theorem State.setDac_fetch (x : Dac) : (s.setDac n x).fetch = s.fetch := rfl
@[simp] theorem State.setDac_fns (x : Dac) : (s.setDac n x).fns = s.fns := rfl
@[simp] theorem State.setDac_msix (x : Dac) : (s.setDac n x).msix = s.msix := rfl
@[simp] theorem State.setDac_path (x : Dac) : (s.setDac n x).path = s.path := rfl
@[simp] theorem State.setDac_reads (x : Dac) : (s.setDac n x).reads = s.reads := rfl
@[simp] theorem State.setDac_schs (x : Dac) : (s.setDac n x).schs = s.schs := rfl
@[simp] theorem State.setDac_autos (x : Dac) : (s.setDac n x).autos = s.autos := rfl
@[simp] theorem State.setDac_admitted (x : Dac) : (s.setDac n x).admitted = s.admitted := rfl
@[simp] theorem State.setDac_bms (x : Dac) : (s.setDac n x).bms = s.bms := rfl
@[simp] theorem State.setDac_tables (x : Dac) : (s.setDac n x).tables = s.tables := rfl
@[simp] theorem State.setDac_ports (x : Dac) : (s.setDac n x).ports = s.ports := rfl
@[simp] theorem State.setDac_gpio (x : Dac) : (s.setDac n x).gpio = s.gpio := rfl
@[simp] theorem State.setDac_pwms (x : Dac) : (s.setDac n x).pwms = s.pwms := rfl
@[simp] theorem State.setDac_dacs (x : Dac) : (s.setDac n x).dacs = s.dacs.set {} n x := rfl
@[simp] theorem State.setDac_encs (x : Dac) : (s.setDac n x).encs = s.encs := rfl
@[simp] theorem State.setDac_mdio (x : Dac) : (s.setDac n x).mdio = s.mdio := rfl
@[simp] theorem State.setDac_claims (x : Dac) : (s.setDac n x).claims = s.claims := rfl
@[simp] theorem State.setDac_wms (x : Dac) : (s.setDac n x).wms = s.wms := rfl
@[simp] theorem State.setDac_adc (x : Dac) : (s.setDac n x).adc = s.adc := rfl
@[simp] theorem State.setDac_nss (x : Dac) : (s.setDac n x).nss = s.nss := rfl
@[simp] theorem State.setDac_jrn (x : Dac) : (s.setDac n x).jrn = s.jrn := rfl
@[simp] theorem State.setDac_lnk (x : Dac) : (s.setDac n x).lnk = s.lnk := rfl
@[simp] theorem State.setDac_health (x : Dac) : (s.setDac n x).health = s.health := rfl
@[simp] theorem State.setDac_pcie (x : Dac) : (s.setDac n x).pcie = s.pcie := rfl
@[simp] theorem State.setDac_shp (x : Dac) : (s.setDac n x).shp = s.shp := rfl
@[simp] theorem State.setDac_serial (x : Dac) : (s.setDac n x).serial = s.serial := rfl
@[simp] theorem State.setDac_freeCtr (x : Dac) : (s.setDac n x).freeCtr = s.freeCtr := rfl

/-! ### State.setEnc -/

@[simp] theorem State.setEnc_pending (x : Enc) : (s.setEnc n x).pending = s.pending := rfl
@[simp] theorem State.setEnc_clk (x : Enc) : (s.setEnc n x).clk = s.clk := rfl
@[simp] theorem State.setEnc_stime (x : Enc) : (s.setEnc n x).stime = s.stime := rfl
@[simp] theorem State.setEnc_kiln (x : Enc) : (s.setEnc n x).kiln = s.kiln := rfl
@[simp] theorem State.setEnc_acct (x : Enc) : (s.setEnc n x).acct = s.acct := rfl
@[simp] theorem State.setEnc_image (x : Enc) : (s.setEnc n x).image = s.image := rfl
@[simp] theorem State.setEnc_stage (x : Enc) : (s.setEnc n x).stage = s.stage := rfl
@[simp] theorem State.setEnc_frozen (x : Enc) : (s.setEnc n x).frozen = s.frozen := rfl
@[simp] theorem State.setEnc_msp (x : Enc) : (s.setEnc n x).msp = s.msp := rfl
@[simp] theorem State.setEnc_dev (x : Enc) : (s.setEnc n x).dev = s.dev := rfl
@[simp] theorem State.setEnc_power (x : Enc) : (s.setEnc n x).power = s.power := rfl
@[simp] theorem State.setEnc_pins (x : Enc) : (s.setEnc n x).pins = s.pins := rfl
@[simp] theorem State.setEnc_sags (x : Enc) : (s.setEnc n x).sags = s.sags := rfl
@[simp] theorem State.setEnc_ls (x : Enc) : (s.setEnc n x).ls = s.ls := rfl
@[simp] theorem State.setEnc_sqs (x : Enc) : (s.setEnc n x).sqs = s.sqs := rfl
@[simp] theorem State.setEnc_cqs (x : Enc) : (s.setEnc n x).cqs = s.cqs := rfl
@[simp] theorem State.setEnc_fetch (x : Enc) : (s.setEnc n x).fetch = s.fetch := rfl
@[simp] theorem State.setEnc_fns (x : Enc) : (s.setEnc n x).fns = s.fns := rfl
@[simp] theorem State.setEnc_msix (x : Enc) : (s.setEnc n x).msix = s.msix := rfl
@[simp] theorem State.setEnc_path (x : Enc) : (s.setEnc n x).path = s.path := rfl
@[simp] theorem State.setEnc_reads (x : Enc) : (s.setEnc n x).reads = s.reads := rfl
@[simp] theorem State.setEnc_schs (x : Enc) : (s.setEnc n x).schs = s.schs := rfl
@[simp] theorem State.setEnc_autos (x : Enc) : (s.setEnc n x).autos = s.autos := rfl
@[simp] theorem State.setEnc_admitted (x : Enc) : (s.setEnc n x).admitted = s.admitted := rfl
@[simp] theorem State.setEnc_bms (x : Enc) : (s.setEnc n x).bms = s.bms := rfl
@[simp] theorem State.setEnc_tables (x : Enc) : (s.setEnc n x).tables = s.tables := rfl
@[simp] theorem State.setEnc_ports (x : Enc) : (s.setEnc n x).ports = s.ports := rfl
@[simp] theorem State.setEnc_gpio (x : Enc) : (s.setEnc n x).gpio = s.gpio := rfl
@[simp] theorem State.setEnc_pwms (x : Enc) : (s.setEnc n x).pwms = s.pwms := rfl
@[simp] theorem State.setEnc_dacs (x : Enc) : (s.setEnc n x).dacs = s.dacs := rfl
@[simp] theorem State.setEnc_encs (x : Enc) : (s.setEnc n x).encs = s.encs.set {} n x := rfl
@[simp] theorem State.setEnc_mdio (x : Enc) : (s.setEnc n x).mdio = s.mdio := rfl
@[simp] theorem State.setEnc_claims (x : Enc) : (s.setEnc n x).claims = s.claims := rfl
@[simp] theorem State.setEnc_wms (x : Enc) : (s.setEnc n x).wms = s.wms := rfl
@[simp] theorem State.setEnc_adc (x : Enc) : (s.setEnc n x).adc = s.adc := rfl
@[simp] theorem State.setEnc_nss (x : Enc) : (s.setEnc n x).nss = s.nss := rfl
@[simp] theorem State.setEnc_jrn (x : Enc) : (s.setEnc n x).jrn = s.jrn := rfl
@[simp] theorem State.setEnc_lnk (x : Enc) : (s.setEnc n x).lnk = s.lnk := rfl
@[simp] theorem State.setEnc_health (x : Enc) : (s.setEnc n x).health = s.health := rfl
@[simp] theorem State.setEnc_pcie (x : Enc) : (s.setEnc n x).pcie = s.pcie := rfl
@[simp] theorem State.setEnc_shp (x : Enc) : (s.setEnc n x).shp = s.shp := rfl
@[simp] theorem State.setEnc_serial (x : Enc) : (s.setEnc n x).serial = s.serial := rfl
@[simp] theorem State.setEnc_freeCtr (x : Enc) : (s.setEnc n x).freeCtr = s.freeCtr := rfl

/-! ### State.setPeer -/

@[simp] theorem State.setPeer_pending (x : LnkPeer) : (s.setPeer n x).pending = s.pending := rfl
@[simp] theorem State.setPeer_clk (x : LnkPeer) : (s.setPeer n x).clk = s.clk := rfl
@[simp] theorem State.setPeer_stime (x : LnkPeer) : (s.setPeer n x).stime = s.stime := rfl
@[simp] theorem State.setPeer_kiln (x : LnkPeer) : (s.setPeer n x).kiln = s.kiln := rfl
@[simp] theorem State.setPeer_acct (x : LnkPeer) : (s.setPeer n x).acct = s.acct := rfl
@[simp] theorem State.setPeer_image (x : LnkPeer) : (s.setPeer n x).image = s.image := rfl
@[simp] theorem State.setPeer_stage (x : LnkPeer) : (s.setPeer n x).stage = s.stage := rfl
@[simp] theorem State.setPeer_frozen (x : LnkPeer) : (s.setPeer n x).frozen = s.frozen := rfl
@[simp] theorem State.setPeer_msp (x : LnkPeer) : (s.setPeer n x).msp = s.msp := rfl
@[simp] theorem State.setPeer_dev (x : LnkPeer) : (s.setPeer n x).dev = s.dev := rfl
@[simp] theorem State.setPeer_power (x : LnkPeer) : (s.setPeer n x).power = s.power := rfl
@[simp] theorem State.setPeer_pins (x : LnkPeer) : (s.setPeer n x).pins = s.pins := rfl
@[simp] theorem State.setPeer_sags (x : LnkPeer) : (s.setPeer n x).sags = s.sags := rfl
@[simp] theorem State.setPeer_ls (x : LnkPeer) : (s.setPeer n x).ls = s.ls := rfl
@[simp] theorem State.setPeer_sqs (x : LnkPeer) : (s.setPeer n x).sqs = s.sqs := rfl
@[simp] theorem State.setPeer_cqs (x : LnkPeer) : (s.setPeer n x).cqs = s.cqs := rfl
@[simp] theorem State.setPeer_fetch (x : LnkPeer) : (s.setPeer n x).fetch = s.fetch := rfl
@[simp] theorem State.setPeer_fns (x : LnkPeer) : (s.setPeer n x).fns = s.fns := rfl
@[simp] theorem State.setPeer_msix (x : LnkPeer) : (s.setPeer n x).msix = s.msix := rfl
@[simp] theorem State.setPeer_path (x : LnkPeer) : (s.setPeer n x).path = s.path := rfl
@[simp] theorem State.setPeer_reads (x : LnkPeer) : (s.setPeer n x).reads = s.reads := rfl
@[simp] theorem State.setPeer_schs (x : LnkPeer) : (s.setPeer n x).schs = s.schs := rfl
@[simp] theorem State.setPeer_autos (x : LnkPeer) : (s.setPeer n x).autos = s.autos := rfl
@[simp] theorem State.setPeer_admitted (x : LnkPeer) : (s.setPeer n x).admitted = s.admitted := rfl
@[simp] theorem State.setPeer_bms (x : LnkPeer) : (s.setPeer n x).bms = s.bms := rfl
@[simp] theorem State.setPeer_tables (x : LnkPeer) : (s.setPeer n x).tables = s.tables := rfl
@[simp] theorem State.setPeer_ports (x : LnkPeer) : (s.setPeer n x).ports = s.ports := rfl
@[simp] theorem State.setPeer_gpio (x : LnkPeer) : (s.setPeer n x).gpio = s.gpio := rfl
@[simp] theorem State.setPeer_pwms (x : LnkPeer) : (s.setPeer n x).pwms = s.pwms := rfl
@[simp] theorem State.setPeer_dacs (x : LnkPeer) : (s.setPeer n x).dacs = s.dacs := rfl
@[simp] theorem State.setPeer_encs (x : LnkPeer) : (s.setPeer n x).encs = s.encs := rfl
@[simp] theorem State.setPeer_mdio (x : LnkPeer) : (s.setPeer n x).mdio = s.mdio := rfl
@[simp] theorem State.setPeer_claims (x : LnkPeer) : (s.setPeer n x).claims = s.claims := rfl
@[simp] theorem State.setPeer_wms (x : LnkPeer) : (s.setPeer n x).wms = s.wms := rfl
@[simp] theorem State.setPeer_adc (x : LnkPeer) : (s.setPeer n x).adc = s.adc := rfl
@[simp] theorem State.setPeer_nss (x : LnkPeer) : (s.setPeer n x).nss = s.nss := rfl
@[simp] theorem State.setPeer_jrn (x : LnkPeer) : (s.setPeer n x).jrn = s.jrn := rfl
@[simp] theorem State.setPeer_lnk (x : LnkPeer) : (s.setPeer n x).lnk = { s.lnk with peers := s.lnk.peers.set {} n x } := rfl
@[simp] theorem State.setPeer_health (x : LnkPeer) : (s.setPeer n x).health = s.health := rfl
@[simp] theorem State.setPeer_pcie (x : LnkPeer) : (s.setPeer n x).pcie = s.pcie := rfl
@[simp] theorem State.setPeer_shp (x : LnkPeer) : (s.setPeer n x).shp = s.shp := rfl
@[simp] theorem State.setPeer_serial (x : LnkPeer) : (s.setPeer n x).serial = s.serial := rfl
@[simp] theorem State.setPeer_freeCtr (x : LnkPeer) : (s.setPeer n x).freeCtr = s.freeCtr := rfl

/-! ### State.setUnit -/

@[simp] theorem State.setUnit_pending (x : UnitInfo) : (s.setUnit n x).pending = s.pending := rfl
@[simp] theorem State.setUnit_clk (x : UnitInfo) : (s.setUnit n x).clk = s.clk := rfl
@[simp] theorem State.setUnit_stime (x : UnitInfo) : (s.setUnit n x).stime = s.stime := rfl
@[simp] theorem State.setUnit_kiln (x : UnitInfo) : (s.setUnit n x).kiln = s.kiln := rfl
@[simp] theorem State.setUnit_acct (x : UnitInfo) : (s.setUnit n x).acct = s.acct := rfl
@[simp] theorem State.setUnit_image (x : UnitInfo) : (s.setUnit n x).image = s.image := rfl
@[simp] theorem State.setUnit_stage (x : UnitInfo) : (s.setUnit n x).stage = s.stage := rfl
@[simp] theorem State.setUnit_frozen (x : UnitInfo) : (s.setUnit n x).frozen = s.frozen := rfl
@[simp] theorem State.setUnit_msp (x : UnitInfo) : (s.setUnit n x).msp = s.msp := rfl
@[simp] theorem State.setUnit_dev (x : UnitInfo) : (s.setUnit n x).dev = s.dev := rfl
@[simp] theorem State.setUnit_power (x : UnitInfo) : (s.setUnit n x).power = s.power := rfl
@[simp] theorem State.setUnit_pins (x : UnitInfo) : (s.setUnit n x).pins = s.pins := rfl
@[simp] theorem State.setUnit_sags (x : UnitInfo) : (s.setUnit n x).sags = s.sags := rfl
@[simp] theorem State.setUnit_ls (x : UnitInfo) : (s.setUnit n x).ls = s.ls := rfl
@[simp] theorem State.setUnit_sqs (x : UnitInfo) : (s.setUnit n x).sqs = s.sqs := rfl
@[simp] theorem State.setUnit_cqs (x : UnitInfo) : (s.setUnit n x).cqs = s.cqs := rfl
@[simp] theorem State.setUnit_fetch (x : UnitInfo) : (s.setUnit n x).fetch = s.fetch := rfl
@[simp] theorem State.setUnit_fns (x : UnitInfo) : (s.setUnit n x).fns = s.fns := rfl
@[simp] theorem State.setUnit_msix (x : UnitInfo) : (s.setUnit n x).msix = s.msix := rfl
@[simp] theorem State.setUnit_path (x : UnitInfo) : (s.setUnit n x).path = s.path := rfl
@[simp] theorem State.setUnit_reads (x : UnitInfo) : (s.setUnit n x).reads = s.reads := rfl
@[simp] theorem State.setUnit_schs (x : UnitInfo) : (s.setUnit n x).schs = s.schs := rfl
@[simp] theorem State.setUnit_autos (x : UnitInfo) : (s.setUnit n x).autos = s.autos := rfl
@[simp] theorem State.setUnit_admitted (x : UnitInfo) : (s.setUnit n x).admitted = s.admitted := rfl
@[simp] theorem State.setUnit_bms (x : UnitInfo) : (s.setUnit n x).bms = s.bms := rfl
@[simp] theorem State.setUnit_tables (x : UnitInfo) : (s.setUnit n x).tables = s.tables := rfl
@[simp] theorem State.setUnit_ports (x : UnitInfo) : (s.setUnit n x).ports = s.ports := rfl
@[simp] theorem State.setUnit_gpio (x : UnitInfo) : (s.setUnit n x).gpio = s.gpio := rfl
@[simp] theorem State.setUnit_pwms (x : UnitInfo) : (s.setUnit n x).pwms = s.pwms := rfl
@[simp] theorem State.setUnit_dacs (x : UnitInfo) : (s.setUnit n x).dacs = s.dacs := rfl
@[simp] theorem State.setUnit_encs (x : UnitInfo) : (s.setUnit n x).encs = s.encs := rfl
@[simp] theorem State.setUnit_mdio (x : UnitInfo) : (s.setUnit n x).mdio = s.mdio := rfl
@[simp] theorem State.setUnit_claims (x : UnitInfo) : (s.setUnit n x).claims = s.claims := rfl
@[simp] theorem State.setUnit_wms (x : UnitInfo) : (s.setUnit n x).wms = s.wms := rfl
@[simp] theorem State.setUnit_adc (x : UnitInfo) : (s.setUnit n x).adc = s.adc := rfl
@[simp] theorem State.setUnit_nss (x : UnitInfo) : (s.setUnit n x).nss = s.nss := rfl
@[simp] theorem State.setUnit_jrn (x : UnitInfo) : (s.setUnit n x).jrn = s.jrn := rfl
@[simp] theorem State.setUnit_lnk (x : UnitInfo) : (s.setUnit n x).lnk = s.lnk := rfl
@[simp] theorem State.setUnit_health (x : UnitInfo) : (s.setUnit n x).health = { s.health with units := s.health.units.set {} n x } := rfl
@[simp] theorem State.setUnit_pcie (x : UnitInfo) : (s.setUnit n x).pcie = s.pcie := rfl
@[simp] theorem State.setUnit_shp (x : UnitInfo) : (s.setUnit n x).shp = s.shp := rfl
@[simp] theorem State.setUnit_serial (x : UnitInfo) : (s.setUnit n x).serial = s.serial := rfl
@[simp] theorem State.setUnit_freeCtr (x : UnitInfo) : (s.setUnit n x).freeCtr = s.freeCtr := rfl

/-! ### The read-and-write forms -/

@[simp] theorem State.updSch_eq (g : Sch → Sch) : s.updSch n g = s.setSch n (g (s.sch n)) := rfl
@[simp] theorem State.updSq_eq (g : Sq → Sq) : s.updSq n g = s.setSq n (g (s.sq n)) := rfl
@[simp] theorem State.updCq_eq (g : Cq → Cq) : s.updCq n g = s.setCq n (g (s.cq n)) := rfl
@[simp] theorem State.updFn_eq (g : Fn → Fn) : s.updFn n g = s.setFn n (g (s.fn n)) := rfl
@[simp] theorem State.updSag_eq (g : Saggar → Saggar) : s.updSag n g = s.setSag n (g (s.sag n)) := rfl
@[simp] theorem State.updBm_eq (g : Bm → Bm) : s.updBm n g = s.setBm n (g (s.bm n)) := rfl
@[simp] theorem State.updPort_eq (g : Port → Port) : s.updPort n g = s.setPort n (g (s.port n)) := rfl
@[simp] theorem State.updWm_eq (g : Wm → Wm) : s.updWm n g = s.setWm n (g (s.wm n)) := rfl

/-! ### The model's own counters -/

@[simp] theorem State.tick1_pending : s.tick1.pending = s.pending := rfl
@[simp] theorem State.tick1_clk : s.tick1.clk = s.clk := rfl
@[simp] theorem State.tick1_stime : s.tick1.stime = s.stime := rfl
@[simp] theorem State.tick1_kiln : s.tick1.kiln = s.kiln := rfl
@[simp] theorem State.tick1_acct : s.tick1.acct = s.acct := rfl
@[simp] theorem State.tick1_image : s.tick1.image = s.image := rfl
@[simp] theorem State.tick1_stage : s.tick1.stage = s.stage := rfl
@[simp] theorem State.tick1_frozen : s.tick1.frozen = s.frozen := rfl
@[simp] theorem State.tick1_msp : s.tick1.msp = s.msp := rfl
@[simp] theorem State.tick1_dev : s.tick1.dev = s.dev := rfl
@[simp] theorem State.tick1_power : s.tick1.power = s.power := rfl
@[simp] theorem State.tick1_pins : s.tick1.pins = s.pins := rfl
@[simp] theorem State.tick1_sags : s.tick1.sags = s.sags := rfl
@[simp] theorem State.tick1_ls : s.tick1.ls = s.ls := rfl
@[simp] theorem State.tick1_sqs : s.tick1.sqs = s.sqs := rfl
@[simp] theorem State.tick1_cqs : s.tick1.cqs = s.cqs := rfl
@[simp] theorem State.tick1_fetch : s.tick1.fetch = s.fetch := rfl
@[simp] theorem State.tick1_fns : s.tick1.fns = s.fns := rfl
@[simp] theorem State.tick1_msix : s.tick1.msix = s.msix := rfl
@[simp] theorem State.tick1_path : s.tick1.path = s.path := rfl
@[simp] theorem State.tick1_reads : s.tick1.reads = s.reads := rfl
@[simp] theorem State.tick1_schs : s.tick1.schs = s.schs := rfl
@[simp] theorem State.tick1_autos : s.tick1.autos = s.autos := rfl
@[simp] theorem State.tick1_admitted : s.tick1.admitted = s.admitted := rfl
@[simp] theorem State.tick1_bms : s.tick1.bms = s.bms := rfl
@[simp] theorem State.tick1_tables : s.tick1.tables = s.tables := rfl
@[simp] theorem State.tick1_ports : s.tick1.ports = s.ports := rfl
@[simp] theorem State.tick1_gpio : s.tick1.gpio = s.gpio := rfl
@[simp] theorem State.tick1_pwms : s.tick1.pwms = s.pwms := rfl
@[simp] theorem State.tick1_dacs : s.tick1.dacs = s.dacs := rfl
@[simp] theorem State.tick1_encs : s.tick1.encs = s.encs := rfl
@[simp] theorem State.tick1_mdio : s.tick1.mdio = s.mdio := rfl
@[simp] theorem State.tick1_claims : s.tick1.claims = s.claims := rfl
@[simp] theorem State.tick1_wms : s.tick1.wms = s.wms := rfl
@[simp] theorem State.tick1_adc : s.tick1.adc = s.adc := rfl
@[simp] theorem State.tick1_nss : s.tick1.nss = s.nss := rfl
@[simp] theorem State.tick1_jrn : s.tick1.jrn = s.jrn := rfl
@[simp] theorem State.tick1_lnk : s.tick1.lnk = s.lnk := rfl
@[simp] theorem State.tick1_health : s.tick1.health = s.health := rfl
@[simp] theorem State.tick1_pcie : s.tick1.pcie = s.pcie := rfl
@[simp] theorem State.tick1_shp : s.tick1.shp = s.shp := rfl
@[simp] theorem State.tick1_freeCtr : s.tick1.freeCtr = s.freeCtr := rfl
@[simp] theorem State.draw_pending : s.draw.2.pending = s.pending := rfl
@[simp] theorem State.draw_clk : s.draw.2.clk = s.clk := rfl
@[simp] theorem State.draw_stime : s.draw.2.stime = s.stime := rfl
@[simp] theorem State.draw_kiln : s.draw.2.kiln = s.kiln := rfl
@[simp] theorem State.draw_acct : s.draw.2.acct = s.acct := rfl
@[simp] theorem State.draw_image : s.draw.2.image = s.image := rfl
@[simp] theorem State.draw_stage : s.draw.2.stage = s.stage := rfl
@[simp] theorem State.draw_frozen : s.draw.2.frozen = s.frozen := rfl
@[simp] theorem State.draw_msp : s.draw.2.msp = s.msp := rfl
@[simp] theorem State.draw_dev : s.draw.2.dev = s.dev := rfl
@[simp] theorem State.draw_power : s.draw.2.power = s.power := rfl
@[simp] theorem State.draw_pins : s.draw.2.pins = s.pins := rfl
@[simp] theorem State.draw_sags : s.draw.2.sags = s.sags := rfl
@[simp] theorem State.draw_ls : s.draw.2.ls = s.ls := rfl
@[simp] theorem State.draw_sqs : s.draw.2.sqs = s.sqs := rfl
@[simp] theorem State.draw_cqs : s.draw.2.cqs = s.cqs := rfl
@[simp] theorem State.draw_fetch : s.draw.2.fetch = s.fetch := rfl
@[simp] theorem State.draw_fns : s.draw.2.fns = s.fns := rfl
@[simp] theorem State.draw_msix : s.draw.2.msix = s.msix := rfl
@[simp] theorem State.draw_path : s.draw.2.path = s.path := rfl
@[simp] theorem State.draw_reads : s.draw.2.reads = s.reads := rfl
@[simp] theorem State.draw_schs : s.draw.2.schs = s.schs := rfl
@[simp] theorem State.draw_autos : s.draw.2.autos = s.autos := rfl
@[simp] theorem State.draw_admitted : s.draw.2.admitted = s.admitted := rfl
@[simp] theorem State.draw_bms : s.draw.2.bms = s.bms := rfl
@[simp] theorem State.draw_tables : s.draw.2.tables = s.tables := rfl
@[simp] theorem State.draw_ports : s.draw.2.ports = s.ports := rfl
@[simp] theorem State.draw_gpio : s.draw.2.gpio = s.gpio := rfl
@[simp] theorem State.draw_pwms : s.draw.2.pwms = s.pwms := rfl
@[simp] theorem State.draw_dacs : s.draw.2.dacs = s.dacs := rfl
@[simp] theorem State.draw_encs : s.draw.2.encs = s.encs := rfl
@[simp] theorem State.draw_mdio : s.draw.2.mdio = s.mdio := rfl
@[simp] theorem State.draw_claims : s.draw.2.claims = s.claims := rfl
@[simp] theorem State.draw_wms : s.draw.2.wms = s.wms := rfl
@[simp] theorem State.draw_adc : s.draw.2.adc = s.adc := rfl
@[simp] theorem State.draw_nss : s.draw.2.nss = s.nss := rfl
@[simp] theorem State.draw_jrn : s.draw.2.jrn = s.jrn := rfl
@[simp] theorem State.draw_lnk : s.draw.2.lnk = s.lnk := rfl
@[simp] theorem State.draw_health : s.draw.2.health = s.health := rfl
@[simp] theorem State.draw_pcie : s.draw.2.pcie = s.pcie := rfl
@[simp] theorem State.draw_shp : s.draw.2.shp = s.shp := rfl
@[simp] theorem State.draw_serial : s.draw.2.serial = s.serial := rfl

/-! ### settle, roundEnd and finish -/

@[simp] theorem settle_pending : (settle s).pending = s.pending := rfl
@[simp] theorem settle_clk : (settle s).clk = s.clk := rfl
@[simp] theorem settle_stime : (settle s).stime = s.stime := rfl
@[simp] theorem settle_kiln : (settle s).kiln = s.kiln := rfl
@[simp] theorem settle_acct : (settle s).acct = s.acct := rfl
@[simp] theorem settle_image : (settle s).image = s.image := rfl
@[simp] theorem settle_stage : (settle s).stage = s.stage := rfl
@[simp] theorem settle_frozen : (settle s).frozen = s.frozen := rfl
@[simp] theorem settle_msp : (settle s).msp = s.msp := rfl
@[simp] theorem settle_dev : (settle s).dev = s.dev := rfl
@[simp] theorem settle_power : (settle s).power = s.power := rfl
@[simp] theorem settle_sags : (settle s).sags = s.sags := rfl
@[simp] theorem settle_ls : (settle s).ls = s.ls := rfl
@[simp] theorem settle_sqs : (settle s).sqs = s.sqs := rfl
@[simp] theorem settle_cqs : (settle s).cqs = s.cqs := rfl
@[simp] theorem settle_fetch : (settle s).fetch = s.fetch := rfl
@[simp] theorem settle_fns : (settle s).fns = s.fns := rfl
@[simp] theorem settle_msix : (settle s).msix = s.msix := rfl
@[simp] theorem settle_path : (settle s).path = s.path := rfl
@[simp] theorem settle_reads : (settle s).reads = s.reads := rfl
@[simp] theorem settle_schs : (settle s).schs = s.schs := rfl
@[simp] theorem settle_autos : (settle s).autos = s.autos := rfl
@[simp] theorem settle_admitted : (settle s).admitted = s.admitted := rfl
@[simp] theorem settle_bms : (settle s).bms = s.bms := rfl
@[simp] theorem settle_tables : (settle s).tables = s.tables := rfl
@[simp] theorem settle_ports : (settle s).ports = s.ports := rfl
@[simp] theorem settle_gpio : (settle s).gpio = s.gpio := rfl
@[simp] theorem settle_pwms : (settle s).pwms = s.pwms := rfl
@[simp] theorem settle_dacs : (settle s).dacs = s.dacs := rfl
@[simp] theorem settle_encs : (settle s).encs = s.encs := rfl
@[simp] theorem settle_mdio : (settle s).mdio = s.mdio := rfl
@[simp] theorem settle_claims : (settle s).claims = s.claims := rfl
@[simp] theorem settle_wms : (settle s).wms = s.wms := rfl
@[simp] theorem settle_adc : (settle s).adc = s.adc := rfl
@[simp] theorem settle_nss : (settle s).nss = s.nss := rfl
@[simp] theorem settle_jrn : (settle s).jrn = s.jrn := rfl
@[simp] theorem settle_lnk : (settle s).lnk = s.lnk := rfl
@[simp] theorem settle_health : (settle s).health = s.health := rfl
@[simp] theorem settle_pcie : (settle s).pcie = s.pcie := rfl
@[simp] theorem settle_shp : (settle s).shp = s.shp := rfl
@[simp] theorem settle_serial : (settle s).serial = s.serial := rfl
@[simp] theorem settle_freeCtr : (settle s).freeCtr = s.freeCtr := rfl
@[simp] theorem roundEnd_pending (t : State) : t.roundEnd.pending = t.pending := by unfold State.roundEnd; split <;> rfl
@[simp] theorem roundEnd_clk (t : State) : t.roundEnd.clk = t.clk := by unfold State.roundEnd; split <;> rfl
@[simp] theorem roundEnd_stime (t : State) : t.roundEnd.stime = t.stime := by unfold State.roundEnd; split <;> rfl
@[simp] theorem roundEnd_kiln (t : State) : t.roundEnd.kiln = t.kiln := by unfold State.roundEnd; split <;> rfl
@[simp] theorem roundEnd_acct (t : State) : t.roundEnd.acct = t.acct := by unfold State.roundEnd; split <;> rfl
@[simp] theorem roundEnd_image (t : State) : t.roundEnd.image = t.image := by unfold State.roundEnd; split <;> rfl
@[simp] theorem roundEnd_stage (t : State) : t.roundEnd.stage = t.stage := by unfold State.roundEnd; split <;> rfl
@[simp] theorem roundEnd_frozen (t : State) : t.roundEnd.frozen = t.frozen := by unfold State.roundEnd; split <;> rfl
@[simp] theorem roundEnd_msp (t : State) : t.roundEnd.msp = t.msp := by unfold State.roundEnd; split <;> rfl
@[simp] theorem roundEnd_dev (t : State) : t.roundEnd.dev = t.dev := by unfold State.roundEnd; split <;> rfl
@[simp] theorem roundEnd_power (t : State) : t.roundEnd.power = t.power := by unfold State.roundEnd; split <;> rfl
@[simp] theorem roundEnd_pins (t : State) : t.roundEnd.pins = t.pins := by unfold State.roundEnd; split <;> rfl
@[simp] theorem roundEnd_sags (t : State) : t.roundEnd.sags = t.sags := by unfold State.roundEnd; split <;> rfl
@[simp] theorem roundEnd_ls (t : State) : t.roundEnd.ls = t.ls := by unfold State.roundEnd; split <;> rfl
@[simp] theorem roundEnd_cqs (t : State) : t.roundEnd.cqs = t.cqs := by unfold State.roundEnd; split <;> rfl
@[simp] theorem roundEnd_fns (t : State) : t.roundEnd.fns = t.fns := by unfold State.roundEnd; split <;> rfl
@[simp] theorem roundEnd_msix (t : State) : t.roundEnd.msix = t.msix := by unfold State.roundEnd; split <;> rfl
@[simp] theorem roundEnd_path (t : State) : t.roundEnd.path = t.path := by unfold State.roundEnd; split <;> rfl
@[simp] theorem roundEnd_reads (t : State) : t.roundEnd.reads = t.reads := by unfold State.roundEnd; split <;> rfl
@[simp] theorem roundEnd_schs (t : State) : t.roundEnd.schs = t.schs := by unfold State.roundEnd; split <;> rfl
@[simp] theorem roundEnd_autos (t : State) : t.roundEnd.autos = t.autos := by unfold State.roundEnd; split <;> rfl
@[simp] theorem roundEnd_admitted (t : State) : t.roundEnd.admitted = t.admitted := by unfold State.roundEnd; split <;> rfl
@[simp] theorem roundEnd_bms (t : State) : t.roundEnd.bms = t.bms := by unfold State.roundEnd; split <;> rfl
@[simp] theorem roundEnd_tables (t : State) : t.roundEnd.tables = t.tables := by unfold State.roundEnd; split <;> rfl
@[simp] theorem roundEnd_ports (t : State) : t.roundEnd.ports = t.ports := by unfold State.roundEnd; split <;> rfl
@[simp] theorem roundEnd_gpio (t : State) : t.roundEnd.gpio = t.gpio := by unfold State.roundEnd; split <;> rfl
@[simp] theorem roundEnd_pwms (t : State) : t.roundEnd.pwms = t.pwms := by unfold State.roundEnd; split <;> rfl
@[simp] theorem roundEnd_dacs (t : State) : t.roundEnd.dacs = t.dacs := by unfold State.roundEnd; split <;> rfl
@[simp] theorem roundEnd_encs (t : State) : t.roundEnd.encs = t.encs := by unfold State.roundEnd; split <;> rfl
@[simp] theorem roundEnd_mdio (t : State) : t.roundEnd.mdio = t.mdio := by unfold State.roundEnd; split <;> rfl
@[simp] theorem roundEnd_claims (t : State) : t.roundEnd.claims = t.claims := by unfold State.roundEnd; split <;> rfl
@[simp] theorem roundEnd_wms (t : State) : t.roundEnd.wms = t.wms := by unfold State.roundEnd; split <;> rfl
@[simp] theorem roundEnd_adc (t : State) : t.roundEnd.adc = t.adc := by unfold State.roundEnd; split <;> rfl
@[simp] theorem roundEnd_nss (t : State) : t.roundEnd.nss = t.nss := by unfold State.roundEnd; split <;> rfl
@[simp] theorem roundEnd_jrn (t : State) : t.roundEnd.jrn = t.jrn := by unfold State.roundEnd; split <;> rfl
@[simp] theorem roundEnd_lnk (t : State) : t.roundEnd.lnk = t.lnk := by unfold State.roundEnd; split <;> rfl
@[simp] theorem roundEnd_health (t : State) : t.roundEnd.health = t.health := by unfold State.roundEnd; split <;> rfl
@[simp] theorem roundEnd_pcie (t : State) : t.roundEnd.pcie = t.pcie := by unfold State.roundEnd; split <;> rfl
@[simp] theorem roundEnd_shp (t : State) : t.roundEnd.shp = t.shp := by unfold State.roundEnd; split <;> rfl
@[simp] theorem roundEnd_serial (t : State) : t.roundEnd.serial = t.serial := by unfold State.roundEnd; split <;> rfl
@[simp] theorem roundEnd_freeCtr (t : State) : t.roundEnd.freeCtr = t.freeCtr := by unfold State.roundEnd; split <;> rfl
@[simp] theorem finish_pending (t : State) : (finish s t).pending = s.pending := rfl
@[simp] theorem finish_clk (t : State) : (finish s t).clk = t.clk := roundEnd_clk t
@[simp] theorem finish_stime (t : State) : (finish s t).stime = t.stime := roundEnd_stime t
@[simp] theorem finish_kiln (t : State) : (finish s t).kiln = t.kiln := roundEnd_kiln t
@[simp] theorem finish_acct (t : State) : (finish s t).acct = t.acct := roundEnd_acct t
@[simp] theorem finish_image (t : State) : (finish s t).image = t.image := roundEnd_image t
@[simp] theorem finish_stage (t : State) : (finish s t).stage = t.stage := roundEnd_stage t
@[simp] theorem finish_frozen (t : State) : (finish s t).frozen = t.frozen := roundEnd_frozen t
@[simp] theorem finish_msp (t : State) : (finish s t).msp = t.msp := roundEnd_msp t
@[simp] theorem finish_dev (t : State) : (finish s t).dev = t.dev := roundEnd_dev t
@[simp] theorem finish_power (t : State) : (finish s t).power = t.power := roundEnd_power t
@[simp] theorem finish_pins (t : State) : (finish s t).pins = (settle t).pins := by
  show (settle t.roundEnd).pins = (settle t).pins
  unfold State.roundEnd
  split <;> rfl
@[simp] theorem finish_sags (t : State) : (finish s t).sags = t.sags := roundEnd_sags t
@[simp] theorem finish_ls (t : State) : (finish s t).ls = t.ls := roundEnd_ls t
@[simp] theorem finish_sqs (t : State) : (finish s t).sqs = t.roundEnd.sqs := rfl
@[simp] theorem finish_cqs (t : State) : (finish s t).cqs = t.cqs := roundEnd_cqs t
@[simp] theorem finish_fetch (t : State) : (finish s t).fetch = t.roundEnd.fetch := rfl
@[simp] theorem finish_fns (t : State) : (finish s t).fns = t.fns := roundEnd_fns t
@[simp] theorem finish_msix (t : State) : (finish s t).msix = t.msix := roundEnd_msix t
@[simp] theorem finish_path (t : State) : (finish s t).path = t.path := roundEnd_path t
@[simp] theorem finish_reads (t : State) : (finish s t).reads = t.reads := roundEnd_reads t
@[simp] theorem finish_schs (t : State) : (finish s t).schs = t.schs := roundEnd_schs t
@[simp] theorem finish_autos (t : State) : (finish s t).autos = t.autos := roundEnd_autos t
@[simp] theorem finish_admitted (t : State) : (finish s t).admitted = t.admitted := roundEnd_admitted t
@[simp] theorem finish_bms (t : State) : (finish s t).bms = t.bms := roundEnd_bms t
@[simp] theorem finish_tables (t : State) : (finish s t).tables = t.tables := roundEnd_tables t
@[simp] theorem finish_ports (t : State) : (finish s t).ports = t.ports := roundEnd_ports t
@[simp] theorem finish_gpio (t : State) : (finish s t).gpio = t.gpio := roundEnd_gpio t
@[simp] theorem finish_pwms (t : State) : (finish s t).pwms = t.pwms := roundEnd_pwms t
@[simp] theorem finish_dacs (t : State) : (finish s t).dacs = t.dacs := roundEnd_dacs t
@[simp] theorem finish_encs (t : State) : (finish s t).encs = t.encs := roundEnd_encs t
@[simp] theorem finish_mdio (t : State) : (finish s t).mdio = t.mdio := roundEnd_mdio t
@[simp] theorem finish_claims (t : State) : (finish s t).claims = t.claims := roundEnd_claims t
@[simp] theorem finish_wms (t : State) : (finish s t).wms = t.wms := roundEnd_wms t
@[simp] theorem finish_adc (t : State) : (finish s t).adc = t.adc := roundEnd_adc t
@[simp] theorem finish_nss (t : State) : (finish s t).nss = t.nss := roundEnd_nss t
@[simp] theorem finish_jrn (t : State) : (finish s t).jrn = t.jrn := roundEnd_jrn t
@[simp] theorem finish_lnk (t : State) : (finish s t).lnk = t.lnk := roundEnd_lnk t
@[simp] theorem finish_health (t : State) : (finish s t).health = t.health := roundEnd_health t
@[simp] theorem finish_pcie (t : State) : (finish s t).pcie = t.pcie := roundEnd_pcie t
@[simp] theorem finish_shp (t : State) : (finish s t).shp = t.shp := roundEnd_shp t
@[simp] theorem finish_serial (t : State) : (finish s t).serial = t.serial := roundEnd_serial t
@[simp] theorem finish_freeCtr (t : State) : (finish s t).freeCtr = t.freeCtr := roundEnd_freeCtr t

end Sys2Proof.Machine
end

