-- ==== Sys2Proof/Laws/Ops.lean ====
section
/-! SUPPORT. One lemma for each shared operation: what a command's frame answers, what a store reads after a write, and that
the operations on the local store keep its canonical form. -/

namespace Sys2Proof

/-! ### Stores -/

@[simp] theorem Store.get_nil {α : Type} (d : α) (k : Nat) : Store.get ([] : Store α) d k = d := rfl

theorem Store.del_cons {α : Type} (m : Store α) (k j : Nat) (u : α) :
    Store.del ((j, u) :: m) k = if j = k then m.del k else (j, u) :: m.del k := by
  by_cases h : j = k <;> simp [Store.del, h]

@[simp] theorem Store.get_del_self {α : Type} (m : Store α) (d : α) (k : Nat) : (m.del k).get d k = d := by
  induction m with
  | nil => rfl
  | cons e rest ih =>
    obtain ⟨j, u⟩ := e
    rw [Store.del_cons]
    split
    · exact ih
    · rename_i hne; simp only [Store.get, hne, if_false, ih]

theorem Store.get_del_other {α : Type} (m : Store α) (d : α) (k k' : Nat) (hne : k' ≠ k) :
    (m.del k).get d k' = m.get d k' := by
  induction m with
  | nil => rfl
  | cons e rest ih =>
    obtain ⟨j, u⟩ := e
    rw [Store.del_cons]
    split
    · rename_i heq; subst heq; simp only [Store.get, if_neg (Ne.symm hne), ih]
    · simp only [Store.get, ih]

/-- A read of the key just written gives the value written, in every store. -/
@[simp] theorem Store.get_set_self {α : Type} [DecidableEq α] (m : Store α) (d : α) (k : Nat) (v : α) :
    (m.set d k v).get d k = v := by
  unfold Store.set
  split
  · rename_i h; simp [h]
  · induction m with
    | nil => simp [Store.del, Store.ins, Store.get]
    | cons e rest ih =>
      obtain ⟨j, u⟩ := e
      rw [Store.del_cons]
      split
      · exact ih
      · rename_i hne
        simp only [Store.ins]
        split
        · simpa only [Store.get, hne, if_false] using ih
        · simp [Store.get]

theorem Store.get_ins_other {α : Type} (m : Store α) (d : α) (k k' : Nat) (v : α) (hne : k' ≠ k) :
    (m.ins k v).get d k' = m.get d k' := by
  induction m with
  | nil => simp [Store.ins, Store.get, Ne.symm hne]
  | cons e rest ih =>
    obtain ⟨j, u⟩ := e
    simp only [Store.ins]
    split
    · simp only [Store.get, ih]
    · simp only [Store.get, if_neg (Ne.symm hne)]

/-- A write leaves every other key as it was, in every store. -/
theorem Store.get_set_other {α : Type} [DecidableEq α] (m : Store α) (d : α) (k k' : Nat) (v : α) (hne : k' ≠ k) :
    (m.set d k v).get d k' = m.get d k' := by
  unfold Store.set
  split
  · exact Store.get_del_other m d k k' hne
  · rw [Store.get_ins_other _ _ _ _ _ hne, Store.get_del_other m d k k' hne]

theorem Store.del_set {α : Type} [DecidableEq α] (m : Store α) (d : α) (k : Nat) (v : α) :
    (m.set d k v).del k = m.del k := by
  unfold Store.set
  split
  · simp [Store.del]
  · induction m with
    | nil => simp [Store.del, Store.ins]
    | cons e rest ih =>
      obtain ⟨j, u⟩ := e
      rw [Store.del_cons]
      split
      · exact ih
      · rename_i hne
        simp only [Store.ins]
        split
        · rw [Store.del_cons, if_neg hne, ih]
        · rw [Store.del_cons, if_pos rfl, Store.del_cons, if_neg hne]; simp [Store.del]

/-- Of two writes of one key the second remains. -/
@[simp] theorem Store.set_set {α : Type} [DecidableEq α] (m : Store α) (d : α) (k : Nat) (u v : α) :
    (m.set d k u).set d k v = m.set d k v := by
  have h := Store.del_set m d k u
  simp only [Store.set] at h ⊢
  rw [h]

theorem Store.wfFrom_mono {α : Type} [DecidableEq α] (m : Store α) (d : α) (lo hi : Nat) (h : lo ≤ hi)
    (hw : m.wfFrom d hi = true) : m.wfFrom d lo = true := by
  cases m with
  | nil => rfl
  | cons e rest =>
    obtain ⟨j, u⟩ := e
    simp only [Store.wfFrom, Bool.and_eq_true, decide_eq_true_eq] at hw ⊢
    exact ⟨⟨by omega, hw.1.2⟩, hw.2⟩

/-- Taking entries out keeps the canonical form. -/
theorem Store.filter_wfFrom {α : Type} [DecidableEq α] (m : Store α) (d : α) (p : Nat × α → Bool) (lo : Nat)
    (h : m.wfFrom d lo = true) : Store.wfFrom (m.filter p) d lo = true := by
  induction m generalizing lo with
  | nil => rfl
  | cons e rest ih =>
    obtain ⟨j, u⟩ := e
    simp only [Store.wfFrom, Bool.and_eq_true, decide_eq_true_eq] at h
    simp only [List.filter]
    split
    · simp only [Store.wfFrom, Bool.and_eq_true, decide_eq_true_eq]
      exact ⟨h.1, ih _ h.2⟩
    · exact Store.wfFrom_mono _ _ _ _ (by omega) (ih _ h.2)

theorem Store.del_keys {α : Type} (m : Store α) (k : Nat) : ∀ e ∈ m.del k, e.1 ≠ k := by
  intro e he
  simp only [Store.del, List.mem_filter, bne_iff_ne, ne_eq] at he
  exact he.2

theorem Store.ins_wfFrom {α : Type} [DecidableEq α] (m : Store α) (d : α) (k : Nat) (v : α) (lo : Nat) (hk : lo ≤ k)
    (hv : v ≠ d) (hm : ∀ e ∈ m, e.1 ≠ k) (h : m.wfFrom d lo = true) : (m.ins k v).wfFrom d lo = true := by
  induction m generalizing lo with
  | nil => simp [Store.ins, Store.wfFrom, hk, hv]
  | cons e rest ih =>
    obtain ⟨j, u⟩ := e
    simp only [Store.wfFrom, Bool.and_eq_true, decide_eq_true_eq] at h
    have hj : j ≠ k := hm (j, u) (List.mem_cons_self ..)
    simp only [Store.ins]
    split
    · simp only [Store.wfFrom, Bool.and_eq_true, decide_eq_true_eq]
      exact ⟨h.1, ih _ (by omega) (fun e he => hm e (List.mem_cons_of_mem _ he)) h.2⟩
    · simp only [Store.wfFrom, Bool.and_eq_true, decide_eq_true_eq, Bool.not_eq_true', decide_eq_false_iff_not] at h ⊢
      exact ⟨⟨hk, hv⟩, ⟨⟨by omega, h.1.2⟩, h.2⟩⟩

/-- A write keeps the canonical form. -/
theorem Store.set_wf {α : Type} [DecidableEq α] (m : Store α) (d : α) (k : Nat) (v : α) (h : m.wf d = true) :
    (m.set d k v).wf d = true := by
  unfold Store.set
  split
  · exact Store.filter_wfFrom m d _ 0 h
  · rename_i hv
    exact Store.ins_wfFrom _ d k v 0 (Nat.zero_le _) hv (Store.del_keys m k) (Store.filter_wfFrom m d _ 0 h)

theorem Store.clearRange_wf {α : Type} [DecidableEq α] (m : Store α) (d : α) (lo n : Nat) (h : m.wf d = true) :
    (m.clearRange lo n).wf d = true := Store.filter_wfFrom m d _ 0 h

theorem Store.setList_wf {α : Type} [DecidableEq α] (m : Store α) (d : α) (k : Nat) (vs : List α) (h : m.wf d = true) :
    (m.setList d k vs).wf d = true := by
  induction vs generalizing m k with
  | nil => exact h
  | cons v rest ih => exact ih _ _ (Store.set_wf _ _ _ _ h)

namespace Machine

/-! ### Resources by number: a read after a write, and the second of two writes -/

@[simp] theorem State.sag_setSag (s : State) (n : Nat) (x : Saggar) : (s.setSag n x).sag n = x := Store.get_set_self ..
theorem State.sag_setSag_other (s : State) {n m : Nat} (x : Saggar) (h : m ≠ n) : (s.setSag n x).sag m = s.sag m := Store.get_set_other _ _ _ _ _ h
@[simp] theorem State.setSag_setSag (s : State) (n : Nat) (x y : Saggar) : (s.setSag n x).setSag n y = s.setSag n y := by
  simp [State.setSag]
@[simp] theorem State.sq_setSq (s : State) (n : Nat) (x : Sq) : (s.setSq n x).sq n = x := Store.get_set_self ..
theorem State.sq_setSq_other (s : State) {n m : Nat} (x : Sq) (h : m ≠ n) : (s.setSq n x).sq m = s.sq m := Store.get_set_other _ _ _ _ _ h
@[simp] theorem State.setSq_setSq (s : State) (n : Nat) (x y : Sq) : (s.setSq n x).setSq n y = s.setSq n y := by
  simp [State.setSq]
@[simp] theorem State.cq_setCq (s : State) (n : Nat) (x : Cq) : (s.setCq n x).cq n = x := Store.get_set_self ..
theorem State.cq_setCq_other (s : State) {n m : Nat} (x : Cq) (h : m ≠ n) : (s.setCq n x).cq m = s.cq m := Store.get_set_other _ _ _ _ _ h
@[simp] theorem State.setCq_setCq (s : State) (n : Nat) (x y : Cq) : (s.setCq n x).setCq n y = s.setCq n y := by
  simp [State.setCq]
@[simp] theorem State.fn_setFn (s : State) (n : Nat) (x : Fn) : (s.setFn n x).fn n = x := Store.get_set_self ..
theorem State.fn_setFn_other (s : State) {n m : Nat} (x : Fn) (h : m ≠ n) : (s.setFn n x).fn m = s.fn m := Store.get_set_other _ _ _ _ _ h
@[simp] theorem State.setFn_setFn (s : State) (n : Nat) (x y : Fn) : (s.setFn n x).setFn n y = s.setFn n y := by
  simp [State.setFn]
@[simp] theorem State.sch_setSch (s : State) (n : Nat) (x : Sch) : (s.setSch n x).sch n = x := Store.get_set_self ..
theorem State.sch_setSch_other (s : State) {n m : Nat} (x : Sch) (h : m ≠ n) : (s.setSch n x).sch m = s.sch m := Store.get_set_other _ _ _ _ _ h
@[simp] theorem State.setSch_setSch (s : State) (n : Nat) (x y : Sch) : (s.setSch n x).setSch n y = s.setSch n y := by
  simp [State.setSch]
@[simp] theorem State.bm_setBm (s : State) (n : Nat) (x : Bm) : (s.setBm n x).bm n = x := Store.get_set_self ..
theorem State.bm_setBm_other (s : State) {n m : Nat} (x : Bm) (h : m ≠ n) : (s.setBm n x).bm m = s.bm m := Store.get_set_other _ _ _ _ _ h
@[simp] theorem State.setBm_setBm (s : State) (n : Nat) (x y : Bm) : (s.setBm n x).setBm n y = s.setBm n y := by
  simp [State.setBm]
@[simp] theorem State.port_setPort (s : State) (n : Nat) (x : Port) : (s.setPort n x).port n = x := Store.get_set_self ..
theorem State.port_setPort_other (s : State) {n m : Nat} (x : Port) (h : m ≠ n) : (s.setPort n x).port m = s.port m := Store.get_set_other _ _ _ _ _ h
@[simp] theorem State.setPort_setPort (s : State) (n : Nat) (x y : Port) : (s.setPort n x).setPort n y = s.setPort n y := by
  simp [State.setPort]
@[simp] theorem State.wm_setWm (s : State) (n : Nat) (x : Wm) : (s.setWm n x).wm n = x := Store.get_set_self ..
theorem State.wm_setWm_other (s : State) {n m : Nat} (x : Wm) (h : m ≠ n) : (s.setWm n x).wm m = s.wm m := Store.get_set_other _ _ _ _ _ h
@[simp] theorem State.setWm_setWm (s : State) (n : Nat) (x y : Wm) : (s.setWm n x).setWm n y = s.setWm n y := by
  simp [State.setWm]
@[simp] theorem State.ns_setNs (s : State) (n : Nat) (x : Ns) : (s.setNs n x).ns n = x := Store.get_set_self ..
theorem State.ns_setNs_other (s : State) {n m : Nat} (x : Ns) (h : m ≠ n) : (s.setNs n x).ns m = s.ns m := Store.get_set_other _ _ _ _ _ h
@[simp] theorem State.setNs_setNs (s : State) (n : Nat) (x y : Ns) : (s.setNs n x).setNs n y = s.setNs n y := by
  simp [State.setNs]
@[simp] theorem State.claim_setClaim (s : State) (n : Nat) (x : ClaimGroup) : (s.setClaim n x).claim n = x := Store.get_set_self ..
theorem State.claim_setClaim_other (s : State) {n m : Nat} (x : ClaimGroup) (h : m ≠ n) : (s.setClaim n x).claim m = s.claim m := Store.get_set_other _ _ _ _ _ h
@[simp] theorem State.setClaim_setClaim (s : State) (n : Nat) (x y : ClaimGroup) : (s.setClaim n x).setClaim n y = s.setClaim n y := by
  simp [State.setClaim]
@[simp] theorem State.cpAcct_setCpAcct (s : State) (n : Nat) (x : CpAcct) : (s.setCpAcct n x).cpAcct n = x := Store.get_set_self ..
theorem State.cpAcct_setCpAcct_other (s : State) {n m : Nat} (x : CpAcct) (h : m ≠ n) : (s.setCpAcct n x).cpAcct m = s.cpAcct m := Store.get_set_other _ _ _ _ _ h
@[simp] theorem State.setCpAcct_setCpAcct (s : State) (n : Nat) (x y : CpAcct) : (s.setCpAcct n x).setCpAcct n y = s.setCpAcct n y := by
  simp [State.setCpAcct]
@[simp] theorem State.pwm_setPwm (s : State) (n : Nat) (x : Pwm) : (s.setPwm n x).pwm n = x := Store.get_set_self ..
theorem State.pwm_setPwm_other (s : State) {n m : Nat} (x : Pwm) (h : m ≠ n) : (s.setPwm n x).pwm m = s.pwm m := Store.get_set_other _ _ _ _ _ h
@[simp] theorem State.setPwm_setPwm (s : State) (n : Nat) (x y : Pwm) : (s.setPwm n x).setPwm n y = s.setPwm n y := by
  simp [State.setPwm]
@[simp] theorem State.dac_setDac (s : State) (n : Nat) (x : Dac) : (s.setDac n x).dac n = x := Store.get_set_self ..
theorem State.dac_setDac_other (s : State) {n m : Nat} (x : Dac) (h : m ≠ n) : (s.setDac n x).dac m = s.dac m := Store.get_set_other _ _ _ _ _ h
@[simp] theorem State.setDac_setDac (s : State) (n : Nat) (x y : Dac) : (s.setDac n x).setDac n y = s.setDac n y := by
  simp [State.setDac]
@[simp] theorem State.enc_setEnc (s : State) (n : Nat) (x : Enc) : (s.setEnc n x).enc n = x := Store.get_set_self ..
theorem State.enc_setEnc_other (s : State) {n m : Nat} (x : Enc) (h : m ≠ n) : (s.setEnc n x).enc m = s.enc m := Store.get_set_other _ _ _ _ _ h
@[simp] theorem State.setEnc_setEnc (s : State) (n : Nat) (x y : Enc) : (s.setEnc n x).setEnc n y = s.setEnc n y := by
  simp [State.setEnc]
@[simp] theorem State.peer_setPeer (s : State) (n : Nat) (x : LnkPeer) : (s.setPeer n x).peer n = x := Store.get_set_self ..
theorem State.peer_setPeer_other (s : State) {n m : Nat} (x : LnkPeer) (h : m ≠ n) : (s.setPeer n x).peer m = s.peer m := Store.get_set_other _ _ _ _ _ h
@[simp] theorem State.setPeer_setPeer (s : State) (n : Nat) (x y : LnkPeer) : (s.setPeer n x).setPeer n y = s.setPeer n y := by
  simp [State.setPeer]
@[simp] theorem State.unit_setUnit (s : State) (n : Nat) (x : UnitInfo) : (s.setUnit n x).unit n = x := Store.get_set_self ..
theorem State.unit_setUnit_other (s : State) {n m : Nat} (x : UnitInfo) (h : m ≠ n) : (s.setUnit n x).unit m = s.unit m := Store.get_set_other _ _ _ _ _ h
@[simp] theorem State.setUnit_setUnit (s : State) (n : Nat) (x y : UnitInfo) : (s.setUnit n x).setUnit n y = s.setUnit n y := by
  simp [State.setUnit]

/-! ### What a command answers -/

/-- A well-formed command while PORST_N is high has its effect. -/
theorem act_up {i : Instr} {s : State} {f : State → State} (hw : i.wf = true) (hp : s.power.porst = false) :
    act i s f = .next (finish s (f s)) := by simp [act, hw, hp]

/-- While PORST_N is asserted nothing acts. -/
theorem act_reset {i : Instr} {s : State} {f : State → State} (hw : i.wf = true) (hp : s.power.porst = true) :
    act i s f = .next s := by simp [act, hw, hp]

/-- A command that names no resource stops. -/
theorem act_illFormed {i : Instr} {s : State} {f : State → State} (hw : i.wf = false) :
    act i s f = .fault .noSuchResource := by simp [act, hw]

/-- Every answer of a command is a fault for its operands, the state as it was, or its effect with the pins formed. -/
theorem act_cases {i : Instr} {s t : State} {f : State → State} (h : act i s f = .next t) :
    i.wf = true ∧ ((s.power.porst = true ∧ t = s) ∨ (s.power.porst = false ∧ t = finish s (f s))) := by
  unfold act at h
  split at h
  · cases h
  · split at h
    · cases h; exact ⟨by simp_all, .inl ⟨by simp_all, rfl⟩⟩
    · cases h; exact ⟨by simp_all, .inr ⟨by simp_all, rfl⟩⟩

/-- The pins follow from the rest of the state: forming them again changes nothing. -/
@[simp] theorem settle_settle (s : State) : settle (settle s) = settle s := by
  simp only [settle, State.failsafeLow, State.mspIrqLow, State.shpIrqLow, State.tripLines, State.tripDriven, State.wm,
    State.pinsReset]
  congr 2 <;> simp [Bool.and_assoc, Bool.and_comm, Bool.and_left_comm]
  cases s.power.brownOut <;> simp

/-- What a command leaves agrees with its pins. -/
@[simp] theorem finish_pinsAgree (s t : State) : (finish s t).pinsAgree = true := by
  have h := congrArg State.pins (settle_settle t.roundEnd)
  simp only [State.pinsAgree, decide_eq_true_eq]
  exact h

/-- A register write of an MSP address above 0x007 reaches the register once READY is set (R417). -/
theorem State.served_ready {s : State} {f : State → State} (h : s.dev.ready = true) : s.served f = f s := by
  simp [State.served, h]

theorem State.served_notReady {s : State} {f : State → State} (h : s.dev.ready = false) : s.served f = s.errReg := by
  simp [State.served, h]

/-- An admin command row acts when its opcode is the one that runs. -/
theorem State.admin_runs {s : State} {fn op : Nat} {f : Fn → State → State} (h : s.runsAdmin fn op = true) :
    s.admin fn op f = f (s.fn fn) s := by
  simp only [State.runsAdmin, Bool.and_eq_true, decide_eq_true_eq, beq_iff_eq] at h
  simp [State.admin, h]

theorem State.runsAdmin_lt {s : State} {fn op : Nat} (h : s.runsAdmin fn op = true) : fn < 64 := by
  simp only [State.runsAdmin, Bool.and_eq_true, decide_eq_true_eq] at h
  exact h.1.1.1

/-! ### Dispatch (R54) -/

theorem State.reaches_lt {s : State} {n : Nat} {op : Byte} {c : Ccw} (h : s.reaches n op c = true) : n < 256 := by
  simp only [State.reaches, Bool.and_eq_true, decide_eq_true_eq] at h
  exact h.1.1.1.1.1.1.1.1.1

/-- A CCW that passes every check has its effect. -/
theorem State.dispatch_reaches {s : State} {n : Nat} {op : Byte} {c : Ccw} {step2 : State → Ccw → Bool}
    {step3 step4 : State → Ccw → Option Status} {effect : State → Ccw → State} (h : s.reaches n op c = true)
    (h2 : step2 (s.begun n c) c = true) (h3 : step3 (s.begun n c) c = none) (h4 : step4 (s.begun n c) c = none) :
    s.dispatch n op step2 step3 step4 effect = effect (s.begun n c) c := by
  simp only [State.reaches, Bool.and_eq_true, decide_eq_true_eq, beq_iff_eq, Bool.not_eq_true', Option.isNone_iff_eq_none] at h
  obtain ⟨⟨⟨⟨⟨⟨⟨⟨⟨-, hc⟩, ha⟩, hd⟩, hop⟩, h1⟩, hj⟩, hs⟩, hp⟩, hst⟩ := h
  have hst' : State.statCheck ((s.beginCcw n c).charge n (wuOf c.op)) n c = none := hst
  have h2' : step2 ((s.beginCcw n c).charge n (wuOf c.op)) c = true := h2
  have h3' : step3 ((s.beginCcw n c).charge n (wuOf c.op)) c = none := h3
  have h4' : step4 ((s.beginCcw n c).charge n (wuOf c.op)) c = none := h4
  simp only [State.dispatch, hc, ha, hd, h1, hs, hp, h2', h3', hst', h4']
  simp_all [State.begun]

/-! ### The local store -/

theorem State.physSet_wf {s : State} (a : Nat) (b : Byte) (h : Memory.wf s = true) : Memory.wf (s.physSet a b) = true :=
  Store.set_wf _ _ _ _ h

theorem State.lsPut_wf {s : State} (sag off : Nat) (bs : List Byte) (h : Memory.wf s = true) :
    Memory.wf (s.lsPut sag off bs) = true := by
  induction bs generalizing s off with
  | nil => exact h
  | cons b rest ih =>
    simp only [State.lsPut]
    split
    · exact ih _ (State.physSet_wf _ _ h)
    · exact ih _ h

/-- Clearing poison leaves every byte as it was. -/
theorem State.unpoison_mem (s : State) (sag off len : Nat) : (s.unpoison sag off len).ls.mem = s.ls.mem := by
  simp only [State.unpoison]; split <;> rfl

theorem State.lsWrite_wf {s : State} (sag off : Nat) (bs : List Byte) (h : Memory.wf s = true) :
    Memory.wf (s.lsWrite sag off bs) = true := by
  show Store.wf (State.unpoison _ _ _ _).ls.mem 0 = true
  rw [State.unpoison_mem]; exact State.lsPut_wf _ _ _ h

/-- A write to either space keeps the local store's form. -/
theorem State.memWrite_wf {s : State} (sag : Nat) (a : DWord) (bs : List Byte) (h : Memory.wf s = true) :
    Memory.wf (s.memWrite sag a bs) = true := by
  simp only [State.memWrite]
  split
  · exact State.lsWrite_wf _ _ _ h
  · simp only [State.hostWrite]; split <;> exact h

/-- The reset state lists no byte. -/
theorem reset_memory_wf : Memory.wf State.reset = true := rfl

end Machine

end Sys2Proof
end

