-- ==== Sys2Proof/Tests/Slice0.lean ====
section
/-! SUPPORT. Tests of the checks of commands, of the spec's worked cases, and a state for the premises of every statement. -/

open Sys2Proof Sys2Proof.Machine

namespace Sys2Proof.Tests

-- One theorem at a time: a thread of its own for each would ask for more memory than the check gives.
set_option Elab.async false

/-! ### Small states -/

/-- The block with PORST_N released and bisque ended. -/
def up : State := { power := { porst := false }, dev := { ready := true } }

/-- The same, with the PCI Express link up and every virtual function enabled. -/
def hostUp : State := { up with pcie := { perst := false, linkUp := true, numVfs := 63, vfEnable := true } }

/-- The same, with an admin entry running on function 0, whose saggar holds what the entry needs. -/
def admin (bs : List Byte) : State :=
  { hostUp with
    fns := [(0, { en := true, rdy := true, busMaster := true, sqn := 16, cqn := 16, running := some bs })]
    sags := [(0, { en := true, clsG := true, subLim := 8, pageLim := 4, nsLim := 2, folioLim := 64, sqGrant := 0x81, cqGrant := 0x81 })] }

/-- Subchannel 255 runs: a W program of saggar 0 whose CCW in hand is `c`, at the start of mapped local store. -/
def prog (c : Ccw) : State :=
  { up with
    sqs := [(255, { state := .active, cls := .w, depth := 1, cp := 31 })],
    ls := { view := [(0, some 0)], pages := [(0, .mapped 0 0)], mem := Store.setList [] 0 0 (c.op :: c.flags :: (leBytes 2 c.tgt.toNat ++ leBytes 4 c.count.toNat ++ leBytes 8 c.addr.toNat)) }
    schs := [(255, { state := .active, owner := some (.sq 255), pc := .at 0x8000000000000000 })] }

/-- Its loop counter 0 holds 2. -/
def loopProg (c : Ccw) : State :=
  { prog c with schs := [(255, { state := .active, owner := some (.sq 255), pc := .at 0x8000000000000000, lc0 := 2 })] }

/-- Subchannel 255 waits. -/
def waits (w : Wait) : State := { up with clk := 5, schs := [(255, { state := .waiting, owner := some (.sq 255), wait := w })] }

/-- Serial port 0 is enabled and SHARED, with subchannel 255 on slot 15 of group 0. -/
def sharedProg (held : Bool) (c : Ccw) : State :=
  { prog c with
    tables := { port := [(0, 0x13)] }
    claims := [(0, { port := 0, en := true, holder := if held then some 15 else none, slots := [(15, { sch := 255, bound := true })] })] }

/-- The saggar holds OBSERVE and ACTUATE on every port; serial port 0 and the GPIO bank are enabled. -/
def portProg (c : Ccw) : State :=
  { prog c with
    tables := { port := [(0, 0x11), (16 * 0x60, 1)] }
    sags := [(0, { en := true, observe := BitVec.allOnes 512, actuate := BitVec.allOnes 512 })] }

/-- Every page but the last is promised to saggar 1; the last is being zeroed. -/
def lastPage : State :=
  { hostUp with
    fns := [(0, { en := true, rdy := true, busMaster := true, sqn := 16, cqn := 16, running := some [0x8A, 0, 1, 0, 5, 0, 0, 0, 1] }),
      (1, { pagesWait := some (List.range 4095) })]
    sags := [(0, { en := true, pageLim := 4 })]
    ls := { pages := [(4095, .zeroing 0)] } }

/-- The one page that a range of all pages but the last leaves. -/
theorem range_but_last (n : Nat) : (List.range (n + 1)).filter (fun p => !(List.range n).contains p) = [n] := by
  rw [List.range_succ, List.filter_append, List.filter_eq_nil_iff.2 (by simp)]; simp

/-- The page that is being zeroed is the only one to choose (R154). -/
theorem lastPage_chosen : lastPage.allocPages 0 5 1 = some [4095] := by
  have h : lastPage.promised = List.range 4095 := by simp [State.promised, lastPage]
  have hp : lastPage.pickPages 1 = some [4095] := by
    simp only [State.pickPages, h]
    rw [show (4096 : Nat) = 4095 + 1 from rfl, range_but_last]
    decide +kernel
  rw [State.allocPages, if_neg (by decide +kernel), hp]

/-! ### WellFormed refuses a command that names no resource -/

theorem test_illFormed_0 :
    ([.registerWrite (.msp 128) 0, .registerWrite (.bar0 64 0 4) 0, .registerWrite (.bar0 0 4194304 4) 0,
      .admCtlEnable 64, .admCtlDisable 64, .sqTailDoorbell 64 none 0 0, .sqTailDoorbell 0 (some 256) 0 0,
      .cqHeadDoorbell 64 none 0 0, .cqHeadDoorbell 0 (some 256) 0 0, .evqHeadDoorbell 64 0 0,
      .heartbeatDoorbell 64, .heartbeatLost 64, .nudge 64 0, .nudge 0 256, .msixUnmask 64 0, .msixUnmask 0 33,
      .aggTimeExpiry 256, .entryFetch (.sq 256) (.bytes []), .start (.sq 256), .start (.admin 64), .trg (.sq 256),
      .resume (.sq 256), .halt (.sq 256), .createCq 64, .deleteCq 64, .resetCq 64, .createSq 64, .deleteSq 64] : List Instr).all (fun i => !i.wf) = true :=
  by decide

theorem test_illFormed_1 :
    ([.resetSq 64, .createEvq 64, .deleteEvq 64, .resetEvq 64, .abort 64, .allocPages 64, .freePages 64,
      .createNs 64, .deleteNs 64, .getFeature 64, .setFeature 64, .identify 64, .getQueue 64,
      .admissionQueryTimeout 64, .ccwWrite 256, .ccwRead 256, .ccwControl 256, .ccwSense 256, .ccwExchange 256,
      .ccwMove 256, .ccwFence 256, .ccwStage 256, .ccwSnap 256, .ccwNop 256, .ccwJump 256, .ccwTest 256,
      .ccwWaitt 256, .ccwWaitc 256] : List Instr).all (fun i => !i.wf) = true :=
  by decide

theorem test_illFormed_2 :
    ([.ccwWaitf 256, .ccwLoop 256, .ccwSetc 256, .ccwPost 256, .ccwSignal 256, .ccwClaim 256, .ccwRelease 256,
      .ccwJappend 256, .ccwColophon 256, .portTransferEnd opLimit {}, .lineTurnaround 512, .portTimeout opLimit,
      .readIdleEnd opLimit, .endOfFrame 512, .waittExpiry 256, .waitcTrue 256, .waitcTimeout 256, .waitfDone 256,
      .fenceDone 256, .ccwWatchdog 256, .claimWatchdogHold 16, .claimWatchdogWait 16 0, .claimWatchdogWait 0 16,
      .remoteTimeout 256, .portFlush opLimit, .clrerr opLimit, .i2cRecover opLimit, .breakCode opLimit] : List Instr).all (fun i => !i.wf) = true :=
  by decide

theorem test_illFormed_3 :
    ([.canMb opLimit, .mdioWrite opLimit, .mdioRead opLimit, .setEdge opLimit, .phase opLimit, .preset opLimit,
      .clrIndex opLimit, .clrTrip opLimit, .setWin opLimit, .convReset opLimit, .byteReceived 512 0 false false,
      .breakReceived 512, .canFrameReceived 512 0 0 [] 0, .canFrameSent 512 0, .canWithdraw 512,
      .ethFrameReceived 512 [] false 0, .ethFrameSent 512 0, .ethAbandon 512, .edgeCapture 64 .rising,
      .encoderEdge 8 false false, .index 8, .monitorSample 32 0, .guardCrossing 32 0, .bmGo 16, .bmAbort 16,
      .bmAbortDone 16 0, .bmDisable 16, .bmStatClear 16 0] : List Instr).all (fun i => !i.wf) = true :=
  by decide

theorem test_illFormed_4 :
    ([.bmHalf 16, .bmBufferEnd 16 .full, .jrnRead (.sq 256), .jrnWrite (.sq 256), .append (.sq 256),
      .jrnFlush (.sq 256), .zeroRange (.sq 256), .seal (.sq 256), .info (.sq 256), .verify (.sq 256),
      .fleostCheckEnd 5 false, .journalScrub 1024 0 0 0 0, .journalScrub 0 (2 ^ 20) 0 0 0,
      .zeroingDone (.page 4096), .zeroingDone (.fifo 512), .zeroingDone (.prefetch 256), .zeroingDone (.bmSet 16),
      .zeroingDone (.ns 1024), .slotStart .a 0 1024 .empty,
      .slotStart .a 0 0 (.cell { type := 16, lane := .a, src := 0, dst := 0, payload := [] }),
      .image { type := 16, lane := .a, src := 0, dst := 0, tag := 0, index := 0, payload := [] } 0,
      .image { type := 0, lane := .a, src := 256, dst := 0, tag := 0, index := 0, payload := [] } 0,
      .image { type := 0, lane := .a, src := 0, dst := 256, tag := 0, index := 0, payload := [] } 0,
      .image { type := 0, lane := .a, src := 0, dst := 0, tag := 256, index := 0, payload := [] } 0,
      .image { type := 0, lane := .a, src := 0, dst := 0, tag := 0, index := 65536, payload := [] } 0,
      .rportReq 128 0 0 0 0 [] [], .rportReq 0 64 0 0 0 [] [], .rportRsp 128 0 0 0 0 0 []] : List Instr).all (fun i => !i.wf) = true :=
  by decide

theorem test_illFormed_5 :
    ([.election 128, .localStoreScrub 2097152 .clean, .processorFault 32 none, .processorFault 0 (some 256),
      .bmBurstFault 16 false, .sliceFault 512 false, .volt 9 0, .flr 64, .d3hot 64, .vfEnable 64 false,
      .configRequest (.read 64 0), .configRequest (.read 0 4096), .configRequest (.write 64 0 0),
      .configRequest (.write 0 4096 0), .canBusError 512 0 0, .busOffRecoveryDone 512, .bar0Read 64 0 0,
      .bar0Read 0 4194304 0, .malformedTlp (.poisonedBar0Write 64)] : List Instr).all (fun i => !i.wf) = true :=
  by decide

/-! ### The premises of the statements can be met -/

/-- States and operands that meet the hypotheses of each clause of Kiln_frames_open_and_close. -/
theorem witness_Kiln_frames_open_and_close :
    (∃ s : State, (s.power.porst = false) ∧ (s.kiln.frameRuns = true) ∧ (s.kiln.slice = 15) ∧
      (s.kiln.tickAt + s.kiln.frameLen ≤ s.clk) ∧ (s.kiln.stopping = false) ∧ (s.kiln.frameNext = none)) ∧
    (∃ s : State, ∃ f : Word, (s.power.porst = false) ∧ (s.kiln.frameRuns = true) ∧ (s.kiln.slice = 15) ∧
      (s.kiln.tickAt + s.kiln.frameLen ≤ s.clk) ∧ (s.kiln.stopping = false) ∧ (s.kiln.frameNext = some f) ∧
      (f ≠ s.kiln.frame + 1)) ∧
    (∃ s : State, (s.power.porst = false) ∧ (s.kiln.frameRuns = true) ∧ (s.kiln.slice = 15) ∧
      (s.kiln.tickAt + s.kiln.frameLen ≤ s.clk) ∧ (s.kiln.stopping = false) ∧ (s.kiln.frameNext = some (s.kiln.frame + 1))) ∧
    (∃ s : State, (s.power.porst = false) ∧ (s.kiln.frameRuns = true) ∧ (s.kiln.slice = 15) ∧
      (s.kiln.tickAt + s.kiln.frameLen ≤ s.clk) ∧ (s.kiln.stopping = true)) ∧
    (∃ s : State, (s.power.porst = false) ∧ (s.kiln.run = true) ∧ (s.kiln.frameRuns = false) ∧ (s.kiln.zeroPending = true) ∧
      (s.kiln.zeroAt ≤ s.clk)) :=
  ⟨⟨{ up with clk := 16000, kiln := { frameRuns := true, slice := 15, frameLen := 16000, run := true } }, by decide +kernel⟩,
   ⟨{ up with clk := 16000, kiln := { frameRuns := true, slice := 15, frameLen := 16000, run := true, frameNext := some 7 } },
    7, by decide +kernel⟩,
   ⟨{ up with clk := 16000, kiln := { frameRuns := true, slice := 15, frameLen := 16000, run := true, frameNext := some 1 } },
    by decide +kernel⟩,
   ⟨{ up with clk := 16000, kiln := { frameRuns := true, slice := 15, frameLen := 16000, stopping := true } },
    by decide +kernel⟩,
   ⟨{ up with clk := 1000, kiln := { run := true, zeroPending := true, zeroAt := 1000 } }, by decide +kernel⟩⟩

/-- States and operands that meet the hypotheses of each clause of Kiln_slices. -/
theorem witness_Kiln_slices :
    (∃ s : State, (s.power.porst = false) ∧ (s.kiln.frameRuns = true) ∧ (s.kiln.slice ≠ 0) ∧ (s.kiln.slice < 14) ∧
      (s.kiln.tickAt + (s.kiln.slice + 1) * (s.kiln.frameLen / 16) ≤ s.clk)) ∧
    (∃ s : State, (s.power.porst = false) ∧ (s.kiln.frameRuns = true) ∧ (s.kiln.slice = 0) ∧
      (s.kiln.tickAt + s.kiln.frameLen / 16 ≤ s.clk)) ∧
    (∃ s : State, (s.power.porst = false) ∧ (s.kiln.frameRuns = true) ∧ (s.kiln.slice ≠ 15) ∧
      (s.kiln.tickAt + 15 * (s.kiln.frameLen / 16) ≤ s.clk) ∧
      (s.schs.all (fun e => s.schCls e.1 != .g || e.2.state == .idle || e.2.state == .armed) = true)) ∧
    (∃ s : State, ∃ n : Nat, (s.power.porst = false) ∧ (s.kiln.frameRuns = true) ∧ (s.kiln.slice ≠ 15) ∧
      (s.kiln.tickAt + 15 * (s.kiln.frameLen / 16) ≤ s.clk) ∧ (n < 256) ∧ (s.schCls n = .g) ∧ ((s.sch n).state ≠ .idle) ∧
      ((s.sch n).state ≠ .armed)) ∧
    (∃ s : State, (s.power.porst = false) ∧ (s.kiln.ovrBiteDue = true)) :=
  ⟨⟨{ up with clk := 16000, kiln := { frameRuns := true, slice := 13, frameLen := 16000, run := true } }, by decide +kernel⟩,
   ⟨{ up with clk := 1000, kiln := { frameRuns := true, frameLen := 16000, run := true } }, by decide +kernel⟩,
   ⟨{ up with clk := 15000, kiln := { frameRuns := true, frameLen := 16000, slice := 14 }, stage := { gpioVal := 5, gpioMask := 7 } },
    by decide +kernel⟩,
   ⟨{ up with clk := 15000, kiln := { frameRuns := true, frameLen := 16000, slice := 14 }, sqs := [(255, { state := .active, cls := .g })], schs := [(0, { state := .active, owner := some (.sq 255) })] },
    0, by decide +kernel⟩,
   ⟨{ up with kiln := { ovrBiteDue := true, ovrConsec := 3 } }, by decide +kernel⟩⟩

/-- States and operands that meet the hypotheses of each clause of Kiln_tick_source. -/
theorem witness_Kiln_tick_source :
    (∃ s : State, ∃ e : EdgeKind, (s.power.porst = false) ∧ (s.tickInUsed = true) ∧ ((e == .falling) = s.kiln.edge) ∧
      (s.kiln.frameRuns = false) ∧ (s.kiln.run = true)) ∧
    (∃ s : State, ∃ e : EdgeKind, (s.power.porst = false) ∧ (s.tickInUsed = true) ∧ ((e == .falling) = s.kiln.edge) ∧
      (s.kiln.frameRuns = true) ∧ (s.kiln.awaitFirst = false) ∧ (2 * (s.clk - s.kiln.lastEdge) < s.kiln.perInForce * 1000)) ∧
    (∃ s : State, ∃ e : EdgeKind, (s.power.porst = false) ∧ (s.tickInUsed = true) ∧ ((e == .falling) = s.kiln.edge) ∧
      (s.kiln.frameRuns = true) ∧ (s.kiln.holdover = false) ∧
      (s.kiln.awaitFirst = true ∨ s.kiln.perInForce * 1000 ≤ 2 * (s.clk - s.kiln.lastEdge)) ∧ (s.tickLost = false)) ∧
    (∃ s : State, ∃ e : EdgeKind, (s.power.porst = false) ∧ (s.tickInUsed = true) ∧ ((e == .falling) = s.kiln.edge) ∧
      (s.kiln.frameRuns = true) ∧ (s.kiln.holdover = true) ∧
      (s.kiln.awaitFirst = true ∨ s.kiln.perInForce * 1000 ≤ 2 * (s.clk - s.kiln.lastEdge))) ∧
    (∃ s : State, ∃ u : State, ∃ e : EdgeKind,
      (u = (s.updKiln fun k => Kiln.withSlewing { k with holdover := true, phaseErr := 0 }).updLnk (fun l => { l with locked := false, master := false })) ∧
      (s.power.porst = false) ∧ (s.tickInUsed = true) ∧ ((e == .falling) = s.kiln.edge) ∧ (s.kiln.frameRuns = true) ∧
      (s.kiln.awaitFirst = true ∨ s.kiln.perInForce * 1000 ≤ 2 * (s.clk - s.kiln.lastEdge)) ∧ (s.tickLost = true)) ∧
    (∃ s : State, (s.power.porst = false) ∧ (s.kiln.frameRuns = true) ∧ (s.kiln.holdover = false) ∧ (s.kiln.src = 1) ∧
      (3 * (s.kiln.perInForce * 1000) ≤ 2 * (s.clk - s.kiln.lastEdge))) ∧
    (∃ s : State, ∃ t : Nat, (s.power.porst = false) ∧ (s.kiln.frameRuns = true) ∧ (s.kiln.holdover = false) ∧
      (s.kiln.src = 2) ∧ (s.lnk.master = false) ∧ (s.lnk.lastSync = some t) ∧ (s.kiln.awaitFirst = false) ∧
      (3 * (s.kiln.perInForce * 1000) ≤ 2 * (s.clk - t))) :=
  ⟨⟨{ up with clk := 5, kiln := { run := true, src := 1 } }, .rising, by decide +kernel⟩,
   ⟨{ up with clk := 499, kiln := { run := true, src := 1, per := 50, edge := true, frameRuns := true, awaitFirst := false } },
    .falling, by decide +kernel⟩,
   ⟨{ up with clk := 25000, kiln := { run := true, src := 1, perInForce := 50, frameRuns := true, awaitFirst := false } },
    .rising, by decide +kernel⟩,
   ⟨{ up with clk := 25000, kiln := { run := true, src := 1, perInForce := 50, frameRuns := true, awaitFirst := false, holdover := true } },
    .rising, by decide +kernel⟩,
   ⟨{ up with clk := 75000, kiln := { run := true, src := 1, perInForce := 50, frameRuns := true, awaitFirst := false } }, _,
    .rising, rfl, by decide +kernel⟩,
   ⟨{ up with clk := 75000, kiln := { run := true, src := 1, perInForce := 50, frameRuns := true } }, by decide +kernel⟩,
   ⟨{ up with clk := 75000, kiln := { run := true, src := 2, perInForce := 50, frameRuns := true, awaitFirst := false }, lnk := { lastSync := some 0 } },
    0, by decide +kernel⟩⟩

/-- States and operands that meet the hypotheses of each clause of Kiln_register_writes. -/
theorem witness_Kiln_register_writes :
    (∃ s : State, ∃ w : Word, (s.power.porst = false) ∧ (s.dev.ready = true) ∧ (s.dev.lock = false) ∧
      (w.extractLsb' 16 16 ≠ 0x8000#16) ∧ (s.kiln.run = false) ∧ (s.kiln.stopping = false) ∧ (s.kiln.frameRuns = false)) ∧
    (∃ s : State, ∃ w : Word, (s.power.porst = false) ∧ (s.dev.ready = true) ∧ (s.dev.lock = false) ∧
      (w.extractLsb' 16 16 ≠ 0x8000#16) ∧ (s.kiln.run = true) ∧ (s.kiln.frameRuns = true) ∧ (s.gQueueExists = false)) ∧
    (∃ s : State, ∃ w : Word, (s.power.porst = false) ∧ (s.dev.ready = true) ∧ (s.dev.lock = false) ∧ (50 ≤ fld w 0 17) ∧
      (fld w 0 17 ≤ 100000) ∧ (s.gQueueExists = false) ∧ (s.kiln.frameRuns = false) ∧ (s.kiln.run = false ∨ s.kiln.src = 0)) ∧
    (∃ s : State, ∃ w : Word, (s.power.porst = false) ∧ (s.dev.ready = true) ∧ (s.dev.lock = false) ∧ (50 ≤ fld w 0 17) ∧
      (fld w 0 17 ≤ 100000) ∧ (s.gQueueExists = false) ∧ (s.kiln.frameRuns = true) ∧ (s.kiln.run = false ∨ s.kiln.src = 0) ∧
      (s.inCommit = false) ∧ (s.kiln.perPend = [])) ∧
    (∃ s : State, ∃ w : Word, (s.power.porst = false) ∧ (s.dev.ready = true) ∧ (s.dev.lock = false) ∧ (fld w 0 2 ≠ 3) ∧
      (fld w 0 2 ≠ s.kiln.src) ∧ (s.lnk.en = false) ∧ (s.kiln.frameRuns = false)) ∧
    (∃ s : State, ∃ w : Word, (s.power.porst = false) ∧ (s.dev.ready = true) ∧ (s.dev.lock = false) ∧ (fld w 0 2 ≠ 3) ∧
      (fld w 0 2 ≠ s.kiln.src) ∧ (s.lnk.en = false) ∧ (s.kiln.frameRuns = true) ∧ (fld w 0 2 ≠ 0)) ∧
    (∃ s : State, ∃ w : Word, (s.power.porst = false) ∧ (s.dev.ready = true) ∧ (s.dev.lock = false) ∧ (s.kiln.src ≠ 0) ∧
      (s.lnk.en = false) ∧ (s.kiln.frameRuns = true) ∧ (fld w 0 2 = 0) ∧ (s.kiln.holdover = false)) ∧
    (∃ s : State, ∃ w : Word, (s.power.porst = false) ∧ (s.dev.ready = true) ∧ (s.kiln.frameRuns = false) ∧ (0 < w.toInt)) ∧
    (∃ s : State, ∃ w : Word, (s.power.porst = false) ∧ (s.dev.ready = true) ∧ (s.kiln.frameRuns = false) ∧ (w.toInt ≤ 0)) ∧
    (∃ s : State, ∃ _ : Word, (s.power.porst = false) ∧ (s.dev.ready = true) ∧ (s.kiln.frameRuns = true)) :=
  ⟨⟨{ up with clk := 9 }, 0x00000409, by decide +kernel⟩,
   ⟨{ up with kiln := { run := true, frameRuns := true } }, 0x00000008, by decide +kernel⟩,
   ⟨up, 100000, by decide +kernel⟩,
   ⟨{ up with kiln := { frameRuns := true, frameLen := 50000 } }, 100000, by decide +kernel⟩,
   ⟨up, 5, by decide +kernel⟩,
   ⟨{ up with kiln := { frameRuns := true } }, 5, by decide +kernel⟩,
   ⟨{ up with kiln := { frameRuns := true, src := 1 } }, 4, by decide +kernel⟩,
   ⟨up, 0x7FFFFFFF, by decide +kernel⟩,
   ⟨up, 0x80000000, by decide +kernel⟩,
   ⟨{ up with kiln := { frameRuns := true } }, 0x80000000, by decide +kernel⟩⟩

/-- States and operands that meet the hypotheses of each clause of Kiln_station_time. -/
theorem witness_Kiln_station_time :
    (∃ s : State, (s.power.porst = false) ∧ (s.dev.ready = true)) ∧
    (∃ s : State, (s.power.porst = false) ∧ (s.pins.tickOut = true) ∧ (s.kiln.tickOutFall ≤ s.clk)) :=
  ⟨⟨{ up with stime := 0x0000000500000007 }, by decide +kernel⟩,
   ⟨{ up with pins := { tickOut := true }, kiln := { tickOutFall := 1000 }, clk := 1000 }, by decide +kernel⟩⟩

/-- States and operands that meet the hypotheses of each clause of Msp_requests. -/
theorem witness_Msp_requests :
    (∃ s : State, ∃ req : List Byte, ∃ _ : Nat, (s.power.porst = false) ∧ (s.mspSilent = false) ∧ (mspFrame req ≤ req.length) ∧
      (crc8 (req.take (mspFrame req - 1)) = req.getD (mspFrame req - 1) 0) ∧ (s.mspCmdErr req = false) ∧
      (s.msp.nextAt ≤ s.clk) ∧ (leAt req 0 1 = 1)) ∧
    (∃ s : State, ∃ req : List Byte, (s.power.porst = false) ∧ (s.mspSilent = false) ∧ (mspFrame req ≤ req.length) ∧
      (crc8 (req.take (mspFrame req - 1)) = req.getD (mspFrame req - 1) 0) ∧ (s.mspCmdErr req = false) ∧
      (s.msp.nextAt ≤ s.clk) ∧ (leAt req 0 1 = 2)) ∧
    (∃ s : State, ∃ req : List Byte, (s.power.porst = false) ∧ (s.mspSilent = false) ∧ (mspFrame req ≤ req.length) ∧
      (crc8 (req.take (mspFrame req - 1)) = req.getD (mspFrame req - 1) 0) ∧ (s.mspCmdErr req = false) ∧
      (s.msp.nextAt ≤ s.clk) ∧ (leAt req 0 1 = 3)) :=
  ⟨⟨up, [0x01, 0x00, 0x00, 0x00, 0x16], 1, by decide +kernel⟩,
   ⟨up, [0x02, 0x2A, 0x00, 0x00, 0x1C, 0x4B, 0x00, 0x00, 0x31], by decide +kernel⟩,
   ⟨{ up with msp := { repeatBuf := some [0x09001FA3] } }, [0x03, 0x00, 0x00, 0x00, crc8 [0x03, 0x00, 0x00, 0x00]],
    by decide +kernel⟩⟩

/-- States and operands that meet the hypotheses of each clause of Table_window. -/
theorem witness_Table_window :
    (∃ s : State, ∃ _ : Word, (s.power.porst = false) ∧ (s.dev.ready = true) ∧ (s.msp.busy = none) ∧ (s.msp.buf = [])) ∧
    (∃ s : State, ∃ _ : Word, (s.power.porst = false) ∧ (s.dev.ready = true) ∧ (s.msp.busy = none) ∧ (s.msp.hold = false)) ∧
    (∃ s : State, ∃ _ : Word, (s.power.porst = false) ∧ (s.dev.ready = true) ∧ (s.msp.busy = none) ∧ (s.msp.hold = true) ∧
      (s.msp.buf.length < 128)) ∧
    (∃ s : State, (s.power.porst = false) ∧ (s.dev.ready = true) ∧ (s.msp.busy = none)) ∧
    (∃ s : State, ∃ w : Word, (s.power.porst = false) ∧ (s.dev.ready = true) ∧ (s.msp.busy = none) ∧ (s.msp.buf ≠ []) ∧
      (bit w 1 = true) ∧ (bit w 3 = false)) ∧
    (∃ s : State, ∃ w : Word, (s.power.porst = false) ∧ (s.dev.ready = true) ∧ (s.msp.busy = none) ∧ (bit w 2 = false)) ∧
    (∃ s : State, ∃ b : TblCheck, ∃ k : Nat, ∃ n : Nat, (s.power.porst = false) ∧ (s.msp.busy = some b) ∧
      (s.sharedHeld = false) ∧ (tblShape b.table = some (k, n))) :=
  ⟨⟨up, 0x00000112, by decide +kernel⟩,
   ⟨up, 1, by decide +kernel⟩,
   ⟨{ up with msp := { hold := true, buf := List.replicate 127 (3, 4) } }, 1, by decide +kernel⟩,
   ⟨up, by decide +kernel⟩,
   ⟨{ up with msp := { hold := true, buf := [(0, 1)] } }, 7, by decide +kernel⟩,
   ⟨{ up with msp := { hold := true, buf := [(0, 1)] } }, 9, by decide +kernel⟩,
   ⟨{ up with msp := { busy := some { table := 6, words := [(0, 1)] } } }, { table := 6, words := [(0, 1)] }, 16, 128,
    by decide +kernel⟩⟩

/-- States and operands that meet the hypotheses of each clause of Device_registers. -/
theorem witness_Device_registers :
    (∃ s : State, ∃ _ : Word, (s.power.porst = false) ∧ (s.dev.lock = false)) ∧
    (∃ s : State, ∃ w : Word, (s.power.porst = false) ∧ (s.dev.lock = true) ∧ (s.dev.hard = false) ∧ (fld w 16 16 = 0x4C0C)) ∧
    (∃ s : State, ∃ _ : Word, (s.power.porst = false) ∧ (s.dev.lock = true) ∧ (s.dev.hard = true)) ∧
    (∃ s : State, ∃ c : Cause, ∃ rest : List Cause, (s.power.porst = false) ∧ (s.dev.ready = true) ∧ (s.dev.causes = c :: rest)) ∧
    (∃ s : State, ∃ _ : Word, (s.power.porst = false) ∧ (s.dev.ready = true) ∧ (s.dev.lock = false)) ∧
    (∃ s : State, ∃ a : Nat, ∃ _ : DWord, (s.power.porst = false) ∧ (s.dev.ready = true) ∧ (s.mspSilent = false) ∧ (a < 128)) ∧
    (∃ s : State, ∃ fn : Nat, ∃ off : Nat, ∃ _ : Nat, ∃ _ : DWord, (s.power.porst = false) ∧ (fn < 64) ∧ (off < 4194304) ∧
      (s.barOn fn = true)) ∧
    (∃ s : State, ∃ fn : Nat, ∃ off : Nat, ∃ _ : Nat, (s.power.porst = false) ∧ (fn < 64) ∧ (off < 4194304) ∧
      (s.barOn fn = true)) :=
  ⟨⟨up, 2, by decide +kernel⟩,
   ⟨{ up with dev := { lock := true } }, 0x4C0C0000, by decide +kernel⟩,
   ⟨{ up with dev := { lock := true, hard := true } }, 0x4C0C0000, by decide +kernel⟩,
   ⟨{ up with dev := { ready := true, causes := [{ code := 0x0107, object := 3, detail := 2, saggar := 0, info := 9 }] } },
    { code := 0x0107, object := 3, detail := 2, saggar := 0, info := 9 }, [], by decide +kernel⟩,
   ⟨up, 3, by decide +kernel⟩,
   ⟨up, 127, 5, by decide +kernel⟩,
   ⟨hostUp, 0, 0x30, 8, 5, by decide +kernel⟩,
   ⟨hostUp, 0, 0x20, 8, by decide +kernel⟩⟩

/-- States and operands that meet the hypotheses of each clause of Device_watchdog. -/
theorem witness_Device_watchdog :
    (∃ s : State, (s.power.porst = false) ∧ (s.dev.ready = true) ∧ ((s.wdgEnd.all fun t => decide (s.clk < t)) = true)) ∧
    (∃ s : State, ∃ _ : Word, (s.power.porst = false) ∧ (s.dev.ready = true) ∧ (s.dev.lock = false) ∧ (s.dev.wdgEn = false) ∧
      (s.dev.wdgSince = none)) ∧
    (∃ s : State, ∃ t : Nat, (s.power.porst = false) ∧ (s.wdgEnd = some t) ∧ (t ≤ s.clk)) :=
  ⟨⟨{ up with clk := 99999999, dev := { ready := true, wdgEn := true, wdgPerInForce := 100, wdgSince := some 0 } },
    by decide +kernel⟩,
   ⟨{ up with clk := 7 }, 5, by decide +kernel⟩,
   ⟨{ up with clk := 100000000, dev := { ready := true, wdgEn := true, wdgPerInForce := 100, wdgSince := some 0 } }, 100000000,
    by decide +kernel⟩⟩

/-- States and operands that meet the hypotheses of each clause of Supervisor_safe_control. -/
theorem witness_Supervisor_safe_control :
    (∃ s : State, ∃ w : Word, (s.power.porst = false) ∧ (s.dev.ready = true) ∧ (s.dev.lock = false) ∧
      ((s.wdgEnd.all fun t => decide (s.clk < t)) = true) ∧ (bit w 1 = false) ∧ (bit w 2 = false) ∧ (bit w 3 = false)) ∧
    (∃ s : State, ∃ w : Word, (s.power.porst = false) ∧ (s.dev.ready = true) ∧ (s.dev.lock = false) ∧
      ((s.wdgEnd.all fun t => decide (s.clk < t)) = true) ∧ (bit w 0 = false) ∧ (bit w 2 = false) ∧ (bit w 3 = false)) ∧
    (∃ s : State, ∃ w : Word, (s.power.porst = false) ∧ (s.dev.ready = true) ∧ (s.dev.lock = false) ∧
      ((s.wdgEnd.all fun t => decide (s.clk < t)) = true) ∧ (bit w 0 = false) ∧ (bit w 1 = false) ∧ (bit w 3 = false) ∧
      (s.kiln.ovrConsec = 0)) ∧
    (∃ s : State, ∃ w : Word, (s.power.porst = false) ∧ (s.dev.ready = true) ∧ (s.dev.lock = false) ∧
      ((s.wdgEnd.all fun t => decide (s.clk < t)) = true) ∧ (bit w 0 = false) ∧ (bit w 1 = false) ∧ (bit w 2 = false) ∧
      (s.dev.wdgBite = false)) :=
  ⟨⟨up, 0x41, by decide +kernel⟩,
   ⟨up, 2, by decide +kernel⟩,
   ⟨up, 4, by decide +kernel⟩,
   ⟨up, 8, by decide +kernel⟩⟩

/-- States and operands that meet the hypotheses of each clause of Unit_register_writes. -/
theorem witness_Unit_register_writes :
    (∃ s : State, ∃ _ : Word, (s.power.porst = false) ∧ (s.dev.ready = true)) ∧
    (∃ s : State, ∃ w : Word, (s.power.porst = false) ∧ (s.dev.ready = true) ∧ (fld w 0 2 = s.jrn.maxps) ∧ (s.jrn.ps = 0)) ∧
    (∃ s : State, ∃ w : Word, (s.power.porst = false) ∧ (s.dev.ready = true) ∧ (fld w 0 2 = s.jrn.maxps) ∧ (s.jrn.ps ≠ 0) ∧
      (s.jrn.exitAt = none)) ∧
    (∃ s : State, ∃ w : Word, (s.power.porst = false) ∧ (s.dev.ready = true) ∧ (s.dev.lock = false) ∧ (s.shp.en = false) ∧
      (bit w 0 = true) ∧ ((s.fn (fld w 8 6)).en = false)) ∧
    (∃ s : State, ∃ w : Word, (s.power.porst = false) ∧ (s.dev.ready = true) ∧ (s.dev.lock = false) ∧ (s.kiln.src = 2) ∧
      (s.lnk.en = false) ∧ (bit w 24 = false)) ∧
    (∃ s : State, ∃ w : Word, (s.power.porst = false) ∧ (s.dev.ready = true) ∧ (s.dev.lock = false) ∧ (s.lnk.en = true) ∧
      (bit w 24 = false)) ∧
    (∃ s : State, ∃ w : Word, (s.power.porst = false) ∧ (s.dev.ready = true) ∧ (s.dev.lock = false) ∧ (s.kiln.src = 2) ∧
      (s.lnk.en = true) ∧ (bit w 0 = true)) :=
  ⟨⟨up, 0x80000001, by decide +kernel⟩,
   ⟨{ up with jrn := { maxps := 2 } }, 2, by decide +kernel⟩,
   ⟨{ up with jrn := { maxps := 2, ps := 2 } }, 2, by decide +kernel⟩,
   ⟨up, 0x13F01, by decide +kernel⟩,
   ⟨{ up with kiln := { src := 2 } }, 0x00000203, by decide +kernel⟩,
   ⟨{ up with lnk := { en := true } }, 0x00000202, by decide +kernel⟩,
   ⟨{ up with kiln := { src := 2 }, lnk := { en := true } }, 0x01000203, by decide +kernel⟩⟩

/-- States and operands that meet the hypotheses of each clause of Doorbells_move_indexes. -/
theorem witness_Doorbells_move_indexes :
    (∃ s : State, ∃ fn : Nat, ∃ size : Nat, ∃ v : DWord, (s.power.porst = false) ∧ (fn < 64) ∧ (s.barOn fn = true) ∧
      ((s.sag fn).en = true) ∧ ((s.fn fn).rdy = true) ∧ ((s.fn fn).en = true) ∧ (fld v 0 16 < (s.fn fn).sqn) ∧
      (size = 4 ∨ size = 8)) ∧
    (∃ s : State, ∃ fn : Nat, ∃ n : Nat, ∃ size : Nat, ∃ v : DWord, (s.power.porst = false) ∧ (fn < 64) ∧ (s.barOn fn = true) ∧
      ((s.sag fn).en = true) ∧ (n < 256) ∧ ((s.sq n).state ≠ .free) ∧ ((s.sq n).opened = true) ∧ ((s.sq n).fn = fn) ∧
      ((s.sq n).ending = false) ∧ (fld v 0 16 < (s.sq n).n) ∧ (size = 4 ∨ size = 8)) ∧
    (∃ s : State, ∃ fn : Nat, ∃ n : Nat, ∃ size : Nat, ∃ v : DWord, (s.power.porst = false) ∧ (fn < 64) ∧ (s.barOn fn = true) ∧
      ((s.sag fn).en = true) ∧ (n < 256) ∧ ((s.cq n).exists_ = true) ∧ ((s.cq n).fn = fn) ∧
      (inRing (fld v 0 16) (s.cq n).head (s.cq n).tail (s.cq n).n = true) ∧ (size = 4 ∨ size = 8)) ∧
    (∃ s : State, ∃ fn : Nat, ∃ size : Nat, ∃ v : DWord, (s.power.porst = false) ∧ (fn < 64) ∧ (s.barOn fn = true) ∧
      ((s.sag fn).en = true) ∧ ((s.fn fn).evqOn = true) ∧
      (inRing (fld v 0 16) (s.fn fn).evqHead (s.fn fn).evqTail (s.fn fn).evqN = true) ∧ (size = 4 ∨ size = 8) ∧
      (fld v 0 16 ≠ (s.fn fn).evqHead)) ∧
    (∃ s : State, ∃ fn : Nat, ∃ size : Nat, ∃ v : DWord, (s.power.porst = false) ∧ (fn < 64) ∧ (s.barOn fn = true) ∧
      ((s.sag fn).en = true) ∧ ((s.fn fn).evqOn = true) ∧
      (inRing (fld v 0 16) (s.fn fn).evqHead (s.fn fn).evqTail (s.fn fn).evqN = true) ∧ (size = 4 ∨ size = 8) ∧
      (fld v 0 16 = (s.fn fn).evqHead)) ∧
    (∃ s : State, ∃ fn : Nat, ∃ n : Nat, ∃ _ : Nat, ∃ v : DWord, (s.power.porst = false) ∧ (fn < 64) ∧ (s.barOn fn = true) ∧
      ((s.sag fn).en = true) ∧ (n < 256) ∧ ((s.sq n).n ≤ fld v 0 16)) :=
  ⟨⟨{ hostUp with fns := [(0, { en := true, rdy := true, sqn := 16 })] }, 0, 4, 15, by decide +kernel⟩,
   ⟨{ hostUp with sqs := [(255, { state := .active, opened := true, n := 4096 })] }, 0, 255, 8, 4095, by decide +kernel⟩,
   ⟨{ hostUp with cqs := [(0, { exists_ := true, n := 4, head := 3, tail := 1 })] }, 0, 0, 8, 1, by decide +kernel⟩,
   ⟨{ hostUp with fns := [(0, { evqOn := true, evqN := 8, evqTail := 5 })] }, 0, 4, 5, by decide +kernel⟩,
   ⟨{ hostUp with fns := [(0, { evqOn := true, evqN := 8, evqTail := 5 })], sags := [(0, { en := true })] }, 0, 4, 0,
    by decide +kernel⟩,
   ⟨{ hostUp with sqs := [(255, { state := .active, opened := true, n := 4 })] }, 0, 255, 8, 4, by decide +kernel⟩⟩

/-- States and operands that meet the hypotheses of each clause of Heartbeat_and_nudge. -/
theorem witness_Heartbeat_and_nudge :
    (∃ s : State, ∃ fn : Nat, (s.power.porst = false) ∧ (fn < 64) ∧ (s.barOn fn = true) ∧ ((s.sag fn).en = true) ∧
      ((s.fn fn).rdy = true) ∧ ((s.sag fn).hbPer ≠ 0) ∧ ((s.sag fn).hbDown = false) ∧ ((s.sag fn).hbSince = none)) ∧
    (∃ s : State, ∃ fn : Nat, ∃ t : Nat, (s.power.porst = false) ∧ (fn < 64) ∧ (s.barOn fn = true) ∧ ((s.sag fn).en = true) ∧
      ((s.fn fn).rdy = true) ∧ ((s.sag fn).hbPer ≠ 0) ∧ ((s.sag fn).hbDown = false) ∧ ((s.sag fn).hbSince = some t) ∧
      (s.clk < t + 1000000 * (s.sag fn).hbPer)) ∧
    (∃ s : State, ∃ fn : Nat, ∃ t : Nat, (s.power.porst = false) ∧ (fn < 64) ∧ (s.barOn fn = true) ∧ ((s.sag fn).en = true) ∧
      ((s.fn fn).rdy = true) ∧ ((s.sag fn).hbSince = some t) ∧ (t + 1000000 * (s.sag fn).hbPer ≤ s.clk)) ∧
    (∃ s : State, ∃ fn : Nat, (s.power.porst = false) ∧ (fn < 64) ∧ (s.barOn fn = true) ∧ ((s.sag fn).en = true) ∧
      ((s.fn fn).rdy = true) ∧ ((s.sag fn).hbPer ≠ 0) ∧ ((s.sag fn).hbDown = true) ∧ ((s.sag fn).hbSince = none)) ∧
    (∃ s : State, ∃ g : Nat, ∃ t : Nat, (s.power.porst = false) ∧ (g < 64) ∧ ((s.sag g).hbSince = some t) ∧
      ((s.sag g).hbPer ≠ 0) ∧ (t + 1000000 * (s.sag g).hbPer ≤ s.clk) ∧ ((s.sag g).hbHalt = false)) ∧
    (∃ s : State, ∃ g : Nat, ∃ t : Nat, (s.power.porst = false) ∧ (g < 64) ∧ ((s.sag g).hbSince = some t) ∧
      ((s.sag g).hbPer ≠ 0) ∧ (t + 1000000 * (s.sag g).hbPer ≤ s.clk) ∧ ((s.sag g).hbHalt = true)) ∧
    (∃ s : State, ∃ fn : Nat, ∃ k : Nat, ∃ n : Nat, (s.power.porst = false) ∧ (fn < 64) ∧ (s.barOn fn = true) ∧
      ((s.sag fn).en = true) ∧ (k < 256) ∧ ((s.sch k).owner = some (.sq n)) ∧ ((s.sq n).fn = fn) ∧ ((s.sch k).state = .parked) ∧
      ((s.sch k).reread = false)) ∧
    (∃ s : State, ∃ fn : Nat, ∃ k : Nat, ∃ n : Nat, (s.power.porst = false) ∧ (fn < 64) ∧ (s.barOn fn = true) ∧
      ((s.sag fn).en = true) ∧ (k < 256) ∧ ((s.sch k).owner = some (.sq n)) ∧ ((s.sq n).fn = fn) ∧ ((s.sch k).state ≠ .idle) ∧
      ((s.sch k).state ≠ .armed) ∧ ((s.sch k).state ≠ .parked ∨ (s.sch k).reread = true)) ∧
    (∃ s : State, ∃ fn : Nat, ∃ k : Nat, ∃ n : Nat, (s.power.porst = false) ∧ (fn < 64) ∧ (s.barOn fn = true) ∧
      ((s.sag fn).en = true) ∧ (k < 256) ∧ ((s.sch k).owner = some (.sq n)) ∧ ((s.sq n).fn = fn) ∧
      ((s.sch k).state = .idle ∨ (s.sch k).state = .armed)) ∧
    (∃ s : State, ∃ fn : Nat, ∃ vec : Nat, (s.power.porst = false) ∧ (fn < 64) ∧ (vec < 33) ∧ (s.barOn fn = true)) ∧
    (∃ s : State, ∃ fn : Nat, ∃ vec : Nat, (s.power.porst = false) ∧ (fn < 64) ∧ (vec < 33) ∧ (s.barOn fn = true) ∧
      ((s.msix.get {} (msixKey fn vec)).pending = true) ∧ ((s.fn fn).fnMask = false) ∧ ((s.fn fn).msixEn = true)) ∧
    (∃ s : State, ∃ n : Nat, (s.power.porst = false) ∧ (n < 256) ∧ ((s.cq n).exists_ = true) ∧ ((s.cq n).vector ≠ 0) ∧
      ((s.cq n).pendCnt ≠ 0) ∧ ((s.cq n).aggTime ≠ 0) ∧ ((s.cq n).pendSince + 1000 * (s.cq n).aggTime ≤ s.clk)) :=
  ⟨⟨{ hostUp with fns := [(0, { en := true, rdy := true })], sags := [(0, { en := true, hbPer := 10 })] }, 0, by decide +kernel⟩,
   ⟨{ hostUp with clk := 9999999, fns := [(0, { en := true, rdy := true })], sags := [(0, { en := true, hbPer := 10, hbSince := some 0 })] },
    0, 0, by decide +kernel⟩,
   ⟨{ hostUp with clk := 10000000, fns := [(0, { en := true, rdy := true })], sags := [(0, { en := true, hbPer := 10, hbSince := some 0 })] },
    0, 0, by decide +kernel⟩,
   ⟨{ hostUp with fns := [(0, { en := true, rdy := true })], sags := [(0, { en := true, hbPer := 10, hbDown := true })] }, 0,
    by decide +kernel⟩,
   ⟨{ up with clk := 1000000, sags := [(63, { en := true, hbPer := 1, hbSince := some 0 })] }, 63, 0, by decide +kernel⟩,
   ⟨{ up with clk := 1000000, sags := [(63, { en := true, hbPer := 1, hbSince := some 0, hbHalt := true })] }, 63, 0,
    by decide +kernel⟩,
   ⟨{ hostUp with sags := [(0, { en := true })], sqs := [(3, {})], schs := [(255, { owner := some (.sq 3), state := .parked })] },
    0, 255, 3, by decide +kernel⟩,
   ⟨{ hostUp with sags := [(0, { en := true })], sqs := [(3, {})], schs := [(255, { owner := some (.sq 3), state := .waiting })] },
    0, 255, 3, by decide +kernel⟩,
   ⟨{ hostUp with schs := [(255, { owner := some (.sq 3) })] }, 0, 255, 3, by decide +kernel⟩,
   ⟨hostUp, 63, 32, by decide +kernel⟩,
   ⟨{ hostUp with fns := [(63, { msixEn := true })], msix := [(msixKey 63 32, { pending := true })] }, 63, 32,
    by decide +kernel⟩,
   ⟨{ hostUp with clk := 1000, cqs := [(255, { exists_ := true, vector := 1, pendCnt := 2, aggTime := 1 })] }, 255,
    by decide +kernel⟩⟩

/-- States and operands that meet the hypotheses of each clause of Fetch_and_reads. -/
theorem witness_Fetch_and_reads :
    (∃ s : State, ∃ fn : Nat, ∃ _ : HostData, (s.power.porst = false) ∧ (fn < 64) ∧ (s.adminDue fn = true)) ∧
    (∃ s : State, ∃ n : Nat, ∃ _ : HostData, (s.power.porst = false) ∧ (n < 256) ∧ ((s.sq n).ending = true) ∧
      ((s.sq n).head ≠ (s.sq n).tr)) ∧
    (∃ s : State, ∃ n : Nat, ∃ _ : HostData, (s.power.porst = false) ∧ (n < 256) ∧ ((s.sq n).ending = false) ∧
      (s.canFetchSq n = true) ∧ ((s.sq n).cls = .g ∨ ((s.sq n).cls = .b ∧ s.bOpen n = true))) ∧
    (∃ s : State, ∃ n : Nat, ∃ _ : HostData, (s.power.porst = false) ∧ (n < 256) ∧ ((s.sq n).ending = false) ∧
      (s.canFetchSq n = true) ∧ ((s.sq n).cls = .w) ∧ (s.fetchTurn.1 = some n)) ∧
    (∃ s : State, ∃ _ : HostData, (s.power.porst = false) ∧ (s.fetchTurn.1 = some 256)) ∧
    (∃ s : State, ∃ r : HostRead, ∃ id : Nat, ∃ _ : HostData, (s.power.porst = false) ∧
      (s.reads.find? (fun r => r.id == id) = some r)) ∧
    (∃ s : State, ∃ r : HostRead, ∃ id : Nat, (s.power.porst = false) ∧ (s.reads.find? (fun r => r.id == id) = some r)) :=
  ⟨⟨{ hostUp with fns := [(0, { en := true, rdy := true, sqn := 4, sqTail := 1 })] }, 0, .bytes [], by decide +kernel⟩,
   ⟨{ hostUp with sqs := [(7, { state := .resetting, n := 4, tr := 2 })] }, 7, .bytes [], by decide +kernel⟩,
   ⟨{ hostUp with sqs := [(7, { state := .active, opened := true, cls := .b, depth := 2, n := 4, tail := 2 })] }, 7, .poisoned,
    by decide +kernel⟩,
   ⟨{ hostUp with sqs := [(7, { state := .active, opened := true, cls := .w, depth := 2, n := 4, tail := 2, weight := 1, burst := 1 })] },
    7, .unsupported, by decide +kernel⟩,
   ⟨{ up with shp := { en := true, active := true, cdepth := 1, waiting := [List.replicate 64 0] } }, .bytes [],
    by decide +kernel⟩,
   ⟨{ hostUp with reads := [{ id := 1, fn := 0, addr := 64, len := 16, who := .ccw 0 }] },
    { id := 1, fn := 0, addr := 64, len := 16, who := .ccw 0 }, 1, .aborted, by decide +kernel⟩,
   ⟨{ hostUp with reads := [{ id := 1, fn := 0, addr := 64, len := 16, who := .ccw 0 }] },
    { id := 1, fn := 0, addr := 64, len := 16, who := .ccw 0 }, 1, by decide +kernel⟩⟩

/-- States and operands that meet the hypotheses of each clause of Channel_entries. -/
theorem witness_Channel_entries :
    (∃ s : State, ∃ n : Nat, ∃ e : Entry, (s.power.porst = false) ∧ (n < 256) ∧ (s.oldest (.sq n) .start = some e)) ∧
    (∃ s : State, ∃ n : Nat, ∃ e : Entry, ∃ k : Nat, (s.power.porst = false) ∧ (n < 256) ∧ (s.oldest (.sq n) .start = some e) ∧
      (s.entry? (.sq n) e.eid = some e) ∧ (e.kind = .start) ∧ (e.phase = .waiting) ∧ (s.qCls (.sq n) ≠ .g) ∧
      (s.mayStart (.sq n) = true) ∧ (s.wbOpen (s.qCp (.sq n)) = true) ∧ (s.idleSch (.sq n) = some k)) ∧
    (∃ s : State, ∃ n : Nat, ∃ e : Entry, (s.power.porst = false) ∧ (n < 256) ∧ (s.oldest (.sq n) .trg = some e) ∧
      (s.qCls (.sq n) ≠ .g) ∧ (s.mayStart (.sq n) = true)) ∧
    (∃ s : State, ∃ n : Nat, ∃ e : Entry, ∃ k : Nat, (s.power.porst = false) ∧ (n < 256) ∧ (s.oldest (.sq n) .trg = some e) ∧
      (s.qCls (.sq n) ≠ .g) ∧ (s.mayStart (.sq n) = true) ∧
      (((trgPort e.trigger).all fun p => s.mayObserve (s.qSag (.sq n)) p) = true) ∧ (s.idleSch (.sq n) = some k)) ∧
    (∃ s : State, ∃ n : Nat, ∃ e : Entry, (s.power.porst = false) ∧ (n < 256) ∧ (s.oldest (.sq n) .resume = some e) ∧
      ((s.sch e.sch).owner = some (.sq n))) ∧
    (∃ s : State, ∃ n : Nat, ∃ e : Entry, (s.power.porst = false) ∧ (n < 256) ∧ (s.oldest (.sq n) .halt = some e) ∧
      ((s.sch e.sch).owner = some (.sq n))) ∧
    (∃ s : State, ∃ n : Nat, ∃ e : Entry, (s.power.porst = false) ∧ (n < 256) ∧ (s.oldest (.sq n) .resume = some e) ∧
      ((s.sch e.sch).owner ≠ some (.sq n))) ∧
    (∃ s : State, ∃ n : Nat, ∃ e : Entry, (s.power.porst = false) ∧ (n < 256) ∧ (s.oldest (.sq n) .halt = some e) ∧
      ((s.sch e.sch).owner ≠ some (.sq n))) :=
  ⟨⟨{ up with sqs := [(255, { state := .active, cls := .w, entries := [{ eid := 1, slot := 0, cid := 2, kind := .start }] })], schs := [(0, { owner := some (.sq 255) })] },
    255, { eid := 1, slot := 0, cid := 2, kind := .start }, by decide +kernel⟩,
   ⟨{ up with sqs := [(255, { state := .active, cls := .w, entries := [{ eid := 1, slot := 0, cid := 2, kind := .start }] })], schs := [(0, { owner := some (.sq 255) })] },
    255, { eid := 1, slot := 0, cid := 2, kind := .start }, 0, by decide +kernel⟩,
   ⟨{ up with sqs := [(255, { state := .active, cls := .w, entries := [{ eid := 1, slot := 0, cid := 2, kind := .trg }] })], schs := [(0, { owner := some (.sq 255) })] },
    255, { eid := 1, slot := 0, cid := 2, kind := .trg }, by decide +kernel⟩,
   ⟨{ up with sqs := [(255, { state := .active, cls := .w, entries := [{ eid := 1, slot := 0, cid := 2, kind := .trg }] })], schs := [(0, { owner := some (.sq 255) })] },
    255, { eid := 1, slot := 0, cid := 2, kind := .trg }, 0, by decide +kernel⟩,
   ⟨{ up with sqs := [(255, { state := .active, cls := .w, entries := [{ eid := 1, slot := 0, cid := 2, kind := .resume }] })], schs := [(0, { owner := some (.sq 255) })] },
    255, { eid := 1, slot := 0, cid := 2, kind := .resume }, by decide +kernel⟩,
   ⟨{ up with sqs := [(255, { state := .active, cls := .w, entries := [{ eid := 1, slot := 0, cid := 2, kind := .halt }] })], schs := [(0, { owner := some (.sq 255) })] },
    255, { eid := 1, slot := 0, cid := 2, kind := .halt }, by decide +kernel⟩,
   ⟨{ up with sqs := [(255, { state := .active, cls := .w, entries := [{ eid := 1, slot := 0, cid := 2, kind := .resume }] })], schs := [(0, { owner := some (.sq 1) })] },
    255, { eid := 1, slot := 0, cid := 2, kind := .resume }, by decide +kernel⟩,
   ⟨{ up with sqs := [(255, { state := .active, cls := .w, entries := [{ eid := 1, slot := 0, cid := 2, kind := .halt }] })], schs := [(0, { owner := some (.sq 1) })] },
    255, { eid := 1, slot := 0, cid := 2, kind := .halt }, by decide +kernel⟩⟩

/-- States and operands that meet the hypotheses of each clause of Admin_completion_queues. -/
theorem witness_Admin_completion_queues :
    (∃ s : State, ∃ fn : Nat, (s.power.porst = false) ∧ (s.runsAdmin fn 0x80 = true) ∧
      (bit (s.sag fn).cqGrant ((s.fn fn).arg 4 2) = true) ∧ ((s.cq ((s.fn fn).arg 4 2)).exists_ = false)) ∧
    (∃ s : State, ∃ fn : Nat, (s.power.porst = false) ∧ (s.runsAdmin fn 0x80 = true) ∧
      (bit (s.sag fn).cqGrant ((s.fn fn).arg 4 2) = false)) ∧
    (∃ s : State, ∃ fn : Nat, (s.power.porst = false) ∧ (s.runsAdmin fn 0x81 = true) ∧ (s.cqFree fn ((s.fn fn).arg 4 2) = true)) ∧
    (∃ s : State, ∃ fn : Nat, (s.power.porst = false) ∧ (s.runsAdmin fn 0x82 = true) ∧ (s.cqFree fn ((s.fn fn).arg 4 2) = true)) ∧
    (∃ s : State, ∃ fn : Nat, (s.power.porst = false) ∧ (s.runsAdmin fn 0x86 = true) ∧ ((s.fn fn).evqOn = false)) ∧
    (∃ s : State, ∃ fn : Nat, (s.power.porst = false) ∧ (s.runsAdmin fn 0x87 = true) ∧ ((s.fn fn).evqOn = true)) ∧
    (∃ s : State, ∃ fn : Nat, (s.power.porst = false) ∧ (s.runsAdmin fn 0x88 = true) ∧ ((s.fn fn).evqOn = true)) :=
  ⟨⟨admin [0x80, 0, 1, 0, 7], 0, by decide +kernel⟩,
   ⟨admin [0x80, 0, 1, 0, 6], 0, by decide +kernel⟩,
   ⟨{ admin [0x81, 0, 1, 0, 255] with cqs := [(255, { exists_ := true })] }, 0, by decide +kernel⟩,
   ⟨{ admin [0x82, 0, 1, 0, 255] with cqs := [(255, { exists_ := true, head := 3 })] }, 0, by decide +kernel⟩,
   ⟨admin [0x86, 0, 1, 0, 0, 0, 0, 0, 0, 0x10, 0, 0, 0, 0, 0, 0, 2], 0, by decide +kernel⟩,
   ⟨{ hostUp with fns := [(0, { en := true, rdy := true, cqn := 4, running := some [0x87], evqOn := true })] }, 0,
    by decide +kernel⟩,
   ⟨{ hostUp with fns := [(0, { en := true, rdy := true, cqn := 4, running := some [0x88], evqOn := true })] }, 0,
    by decide +kernel⟩⟩

/-- States and operands that meet the hypotheses of each clause of Admin_submission_queues. -/
theorem witness_Admin_submission_queues :
    (∃ s : State, ∃ fn : Nat, (s.power.porst = false) ∧ (s.runsAdmin fn 0x83 = true) ∧
      ((s.sq ((s.fn fn).arg 4 2)).state = .free) ∧ ((s.sq ((s.fn fn).arg 4 2)).zeroing = false) ∧
      (bit (s.sag fn).sqGrant ((s.fn fn).arg 4 2) = true) ∧ ((s.cq ((s.fn fn).arg 6 2)).exists_ = true) ∧
      ((s.cq ((s.fn fn).arg 6 2)).fn = fn) ∧ ((Cls.ofNum ((s.fn fn).arg 19 1)) = .w) ∧ ((s.sag fn).clsW = true) ∧
      (((s.fn fn).arg 18 1) = 1)) ∧
    (∃ s : State, ∃ fn : Nat, ∃ cp : Nat, ∃ l : List Nat, (s.power.porst = false) ∧ (s.runsAdmin fn 0x83 = true) ∧
      ((s.sq ((s.fn fn).arg 4 2)).state = .free) ∧ ((s.sq ((s.fn fn).arg 4 2)).zeroing = false) ∧
      (bit (s.sag fn).sqGrant ((s.fn fn).arg 4 2) = true) ∧ ((s.cq ((s.fn fn).arg 6 2)).exists_ = true) ∧
      ((s.cq ((s.fn fn).arg 6 2)).fn = fn) ∧ ((Cls.ofNum ((s.fn fn).arg 19 1)) = .w) ∧ ((s.sag fn).clsW = true) ∧
      (((s.fn fn).arg 18 1) ≠ 1) ∧ (s.schsHeld fn + ((s.fn fn).arg 21 1) ≤ (s.sag fn).subLim) ∧
      (s.placeQueue .w ((s.fn fn).arg 32 1) ((s.fn fn).arg 21 1) = some (cp, l))) ∧
    (∃ s : State, ∃ fn : Nat, ∃ cp : Nat, ∃ l : List Nat, (s.power.porst = false) ∧ (s.runsAdmin fn 0x83 = true) ∧
      ((s.sq ((s.fn fn).arg 4 2)).state = .free) ∧ ((s.sq ((s.fn fn).arg 4 2)).zeroing = false) ∧
      (bit (s.sag fn).sqGrant ((s.fn fn).arg 4 2) = true) ∧ ((s.cq ((s.fn fn).arg 6 2)).exists_ = true) ∧
      ((s.cq ((s.fn fn).arg 6 2)).fn = fn) ∧ ((Cls.ofNum ((s.fn fn).arg 19 1)) = .g) ∧ ((s.sag fn).clsG = true) ∧
      (((s.fn fn).arg 18 1) ≠ 1) ∧ (((s.fn fn).arg 24 8) = 0) ∧ (s.kiln.perPend = []) ∧
      (s.schsHeld fn + ((s.fn fn).arg 21 1) ≤ (s.sag fn).subLim) ∧
      (s.placeQueue .g ((s.fn fn).arg 32 1) ((s.fn fn).arg 21 1) = some (cp, l))) ∧
    (∃ s : State, ∃ fn : Nat, ∃ cp : Nat, ∃ l : List Nat, (s.power.porst = false) ∧ (s.runsAdmin fn 0x83 = true) ∧
      (s.queryLate (s.fn fn) = true) ∧ ((s.sq ((s.fn fn).arg 4 2)).state = .free) ∧
      ((s.sq ((s.fn fn).arg 4 2)).zeroing = false) ∧ (bit (s.sag fn).sqGrant ((s.fn fn).arg 4 2) = true) ∧
      ((s.cq ((s.fn fn).arg 6 2)).exists_ = true) ∧ ((s.cq ((s.fn fn).arg 6 2)).fn = fn) ∧
      ((Cls.ofNum ((s.fn fn).arg 19 1)) = .g) ∧ ((s.sag fn).clsG = true) ∧ (((s.fn fn).arg 18 1) ≠ 1) ∧
      (((s.fn fn).arg 24 8) = 0) ∧ (s.kiln.perPend = []) ∧ (s.schsHeld fn + ((s.fn fn).arg 21 1) ≤ (s.sag fn).subLim) ∧
      (s.placeQueue .g ((s.fn fn).arg 32 1) ((s.fn fn).arg 21 1) = some (cp, l))) ∧
    (∃ s : State, ∃ fn : Nat, (s.power.porst = false) ∧ (s.runsAdmin fn 0x84 = true) ∧ (((s.fn fn).arg 4 2) < 256) ∧
      ((s.sq ((s.fn fn).arg 4 2)).state ≠ .free) ∧ ((s.sq ((s.fn fn).arg 4 2)).state ≠ .stopped) ∧
      ((s.sq ((s.fn fn).arg 4 2)).fn = fn) ∧ ((s.sq ((s.fn fn).arg 4 2)).ending = false)) ∧
    (∃ s : State, ∃ fn : Nat, (s.power.porst = false) ∧ (s.runsAdmin fn 0x85 = true) ∧ (((s.fn fn).arg 4 2) < 256) ∧
      ((s.sq ((s.fn fn).arg 4 2)).state ≠ .free) ∧ ((s.sq ((s.fn fn).arg 4 2)).state ≠ .stopped) ∧
      ((s.sq ((s.fn fn).arg 4 2)).fn = fn) ∧ ((s.sq ((s.fn fn).arg 4 2)).ending = false)) ∧
    (∃ s : State, ∃ fn : Nat, ∃ e : Entry, (s.power.porst = false) ∧ (s.runsAdmin fn 0x89 = true) ∧
      (((s.fn fn).arg 4 2) < 256) ∧ ((s.sq ((s.fn fn).arg 4 2)).state ≠ .free) ∧ ((s.sq ((s.fn fn).arg 4 2)).fn = fn) ∧
      ((s.uncompleted ((s.fn fn).arg 4 2)).filter (fun e => e.cid == (s.fn fn).arg 6 2) = [e]) ∧
      (s.abortCatches ((s.fn fn).arg 4 2) e = true) ∧ (s.jobOf (.sq ((s.fn fn).arg 4 2)) e.eid = none)) ∧
    (∃ s : State, ∃ fn : Nat, ∃ e : Entry, (s.power.porst = false) ∧ (s.runsAdmin fn 0x89 = true) ∧
      (((s.fn fn).arg 4 2) < 256) ∧ ((s.sq ((s.fn fn).arg 4 2)).state ≠ .free) ∧ ((s.sq ((s.fn fn).arg 4 2)).fn = fn) ∧
      ((s.uncompleted ((s.fn fn).arg 4 2)).filter (fun e => e.cid == (s.fn fn).arg 6 2) = [e]) ∧
      (s.abortCatches ((s.fn fn).arg 4 2) e = false)) :=
  ⟨⟨{ admin [0x83, 0, 1, 0, 7, 0, 7, 0, 0, 0, 0, 0, 0, 0, 0, 0, 4, 0, 1, 1, 0, 1, 1, 1] with cqs := [(7, { exists_ := true })] },
    0, by decide +kernel⟩,
   ⟨{ admin [0x83, 0, 1, 0, 7, 0, 7, 0, 0, 0, 0, 0, 0, 0, 0, 0, 4, 0, 0, 1, 0, 2, 1, 1, 0, 0, 0, 0, 0, 0, 0, 0, 31] with cqs := [(7, { exists_ := true })] },
    0, 31, [248, 249], by decide +kernel⟩,
   ⟨{ admin [0x83, 0, 1, 0, 7, 0, 7, 0, 0, 0, 0, 0, 0, 0, 0, 0, 4, 0, 0, 0, 0, 1, 0, 0, 0, 0, 0, 0, 0, 0, 0, 0, 0, 0, 1] with cqs := [(7, { exists_ := true })] },
    0, 0, [0], by decide +kernel⟩,
   ⟨({ hostUp with kiln := { frame := 7 }, fns := [(0, { en := true, rdy := true, busMaster := true, sqn := 16, cqn := 16, running := some [0x83, 0, 1, 0, 7, 0, 7, 0, 0, 0, 0, 0, 0, 0, 0, 0, 4, 0, 0, 0, 0, 1, 0, 0, 0, 0, 0, 0, 0, 0, 0, 0, 0, 0, 1], queryFrame := some 3 })], sags := [(0, { en := true, clsG := true, subLim := 8, sqGrant := 0x81, cqGrant := 0x81 })], cqs := [(7, { exists_ := true })] } : State),
    0, 0, [0], by decide +kernel⟩,
   ⟨{ admin [0x84, 0, 1, 0, 255] with sqs := [(255, { state := .active, tail := 3 })] }, 0, by decide +kernel⟩,
   ⟨{ admin [0x85, 0, 1, 0, 255] with sqs := [(255, { state := .active, tail := 3 })] }, 0, by decide +kernel⟩,
   ⟨{ admin [0x89, 0, 1, 0, 255, 0, 9] with sqs := [(255, { state := .active, entries := [{ eid := 1, slot := 0, cid := 9, kind := .start }] })] },
    0, { eid := 1, slot := 0, cid := 9, kind := .start }, by decide +kernel⟩,
   ⟨{ admin [0x89, 0, 1, 0, 255, 0, 9] with sqs := [(255, { state := .active, entries := [{ eid := 1, slot := 0, cid := 9, kind := .start, phase := .begun }] })] },
    0, { eid := 1, slot := 0, cid := 9, kind := .start, phase := .begun }, by decide +kernel⟩⟩

/-- States and operands that meet the hypotheses of each clause of Admin_pages_and_namespaces. -/
theorem witness_Admin_pages_and_namespaces :
    (∃ s : State, ∃ fn : Nat, ∃ l : List Nat, (s.power.porst = false) ∧ (s.runsAdmin fn 0x8A = true) ∧
      ((s.fn fn).pagesWait = none) ∧ (s.allocPages fn ((s.fn fn).arg 4 4) ((s.fn fn).arg 8 4) = some l) ∧
      (s.pagesFree l = true)) ∧
    (∃ s : State, ∃ fn : Nat, ∃ l : List Nat, (s.power.porst = false) ∧ (s.runsAdmin fn 0x8A = true) ∧
      ((s.fn fn).pagesWait = none) ∧ (s.allocPages fn ((s.fn fn).arg 4 4) ((s.fn fn).arg 8 4) = some l) ∧
      (s.pagesFree l = false)) ∧
    (∃ s : State, ∃ fn : Nat, (s.power.porst = false) ∧ (s.runsAdmin fn 0x8A = true) ∧ ((s.fn fn).pagesWait = none) ∧
      (s.allocPages fn ((s.fn fn).arg 4 4) ((s.fn fn).arg 8 4) = none)) ∧
    (∃ s : State, ∃ fn : Nat, (s.power.porst = false) ∧ (s.runsAdmin fn 0x8B = true) ∧
      (((s.fn fn).arg 4 4) + ((s.fn fn).arg 8 4) ≤ 4096) ∧
      ((List.range ((s.fn fn).arg 8 4)).all (fun i => (s.viewPage fn (((s.fn fn).arg 4 4) + i)).isSome && !s.ls.locks.any fun l => l.sag == fn && l.view == ((s.fn fn).arg 4 4) + i) = true)) ∧
    (∃ s : State, ∃ fn : Nat, (s.power.porst = false) ∧ (s.runsAdmin fn 0x8C = true) ∧ (((s.fn fn).arg 4 4) ≠ 0) ∧
      ((s.ns ((s.fn fn).arg 4 4)).exist = false) ∧ ((s.ns ((s.fn fn).arg 4 4)).zeroing = false) ∧
      (s.nsFits fn ((s.fn fn).arg 16 4) = true) ∧ (((s.fn fn).arg 16 4) ≤ s.jrnFree)) ∧
    (∃ s : State, ∃ fn : Nat, (s.power.porst = false) ∧ (s.runsAdmin fn 0x8C = true) ∧ (((s.fn fn).arg 4 4) = 0)) ∧
    (∃ s : State, ∃ fn : Nat, (s.power.porst = false) ∧ (s.runsAdmin fn 0x8D = true) ∧ (((s.fn fn).arg 4 4) ≤ 1023) ∧
      (((s.fn fn).arg 4 4) ≠ 0) ∧ ((s.ns ((s.fn fn).arg 4 4)).exist = true) ∧ ((s.ns ((s.fn fn).arg 4 4)).zeroing = false) ∧
      ((s.ns ((s.fn fn).arg 4 4)).owner = fn) ∧
      ((s.ns ((s.fn fn).arg 4 4)).type ≠ .sealed ∨ (s.ns ((s.fn fn).arg 4 4)).delOk = true) ∧
      (s.nsAdmitted ((s.fn fn).arg 4 4) = false) ∧ (s.nsNamed ((s.fn fn).arg 4 4) = false)) :=
  ⟨⟨admin [0x8A, 0, 1, 0, 5, 0, 0, 0, 0], 0, [], by decide +kernel⟩,
   ⟨lastPage, 0, [4095], rfl, by decide +kernel, by decide +kernel, lastPage_chosen, by decide +kernel⟩,
   ⟨admin [0x8A, 0, 1, 0, 5, 0, 0, 0, 5], 0, by decide +kernel⟩,
   ⟨{ admin [0x8B, 0, 1, 0, 0xFF, 0x0F, 0, 0, 1] with ls := { view := [(4095, some 3)], pages := [(3, .mapped 0 4095)] } }, 0,
    by decide +kernel⟩,
   ⟨admin [0x8C, 0, 1, 0, 0xFF, 3, 0, 0, 1, 0, 0, 0, 0, 0, 0, 0, 64], 0, by decide +kernel⟩,
   ⟨admin [0x8C], 0, by decide +kernel⟩,
   ⟨{ admin [0x8D, 0, 1, 0, 0xFF, 3] with nss := [(1023, { exist := true, nfol := 4 })] }, 0, by decide +kernel⟩⟩

/-- States and operands that meet the hypotheses of each clause of Admin_features_and_queries. -/
theorem witness_Admin_features_and_queries :
    (∃ s : State, ∃ fn : Nat, (s.power.porst = false) ∧ (s.runsAdmin fn 0x8E = true) ∧ (1 ≤ ((s.fn fn).arg 4 4)) ∧
      (((s.fn fn).arg 4 4) ≤ 7) ∧ (s.featObj fn ((s.fn fn).arg 4 4) ((s.fn fn).arg 8 4) = true)) ∧
    (∃ s : State, ∃ fn : Nat, (s.power.porst = false) ∧ (s.runsAdmin fn 0x8F = true) ∧ (((s.fn fn).arg 4 4) = 5) ∧
      (s.featObj fn 5 ((s.fn fn).arg 8 4) = true) ∧
      ((((s.fn fn).arg 12 4) % 256 == 0) ≠ ((s.sq ((s.fn fn).arg 8 4)).cls == .w))) ∧
    (∃ s : State, ∃ fn : Nat, (s.power.porst = false) ∧ (s.runsAdmin fn 0x8F = true) ∧ (((s.fn fn).arg 4 4) = 6) ∧
      (s.featObj fn 6 ((s.fn fn).arg 8 4) = true)) ∧
    (∃ s : State, ∃ fn : Nat, (s.power.porst = false) ∧ (s.runsAdmin fn 0x8F = true) ∧ (1 ≤ ((s.fn fn).arg 4 4)) ∧
      (((s.fn fn).arg 4 4) ≤ 7) ∧ (((s.fn fn).arg 4 4) ≠ 5) ∧ (((s.fn fn).arg 4 4) ≠ 6)) ∧
    (∃ s : State, ∃ fn : Nat, (s.power.porst = false) ∧ (s.runsAdmin fn 0x90 = true) ∧
      (s.admBuf fn (BitVec.ofNat 64 ((s.fn fn).arg 24 8)) 256 = none)) ∧
    (∃ s : State, ∃ fn : Nat, (s.power.porst = false) ∧ (s.runsAdmin fn 0x91 = true) ∧
      (s.admBuf fn (BitVec.ofNat 64 ((s.fn fn).arg 24 8)) 32 = none) ∧ (((s.fn fn).arg 6 2) < 256) ∧ (((s.fn fn).arg 4 1) = 0) ∧
      ((s.sq ((s.fn fn).arg 6 2)).state = .free ∨ (s.sq ((s.fn fn).arg 6 2)).fn = fn)) ∧
    (∃ s : State, ∃ fn : Nat, (s.power.porst = false) ∧ (s.runsAdmin fn 0x91 = true) ∧
      (s.admBuf fn (BitVec.ofNat 64 ((s.fn fn).arg 24 8)) 32 = none) ∧ (((s.fn fn).arg 6 2) < 256) ∧ (((s.fn fn).arg 4 1) ≠ 0) ∧
      ((s.cq ((s.fn fn).arg 6 2)).exists_ = false ∨ (s.cq ((s.fn fn).arg 6 2)).fn = fn)) :=
  ⟨⟨admin [0x8E, 0, 1, 0, 7], 0, by decide +kernel⟩,
   ⟨{ admin [0x8F, 0, 1, 0, 5, 0, 0, 0, 255, 0, 0, 0, 9, 4] with sqs := [(255, { state := .active })] }, 0, by decide +kernel⟩,
   ⟨{ admin [0x8F, 0, 1, 0, 6, 0, 0, 0, 255, 0, 0, 0, 9, 4] with cqs := [(255, { exists_ := true })] }, 0, by decide +kernel⟩,
   ⟨admin [0x8F, 0, 1, 0, 7], 0, by decide +kernel⟩,
   ⟨admin [0x90], 0, by decide +kernel⟩,
   ⟨admin [0x91, 0, 1, 0, 0, 0, 255], 0, by decide +kernel⟩,
   ⟨admin [0x91, 0, 1, 0, 1, 0, 255], 0, by decide +kernel⟩⟩

/-- States and operands that meet the hypotheses of each clause of Flow_words. -/
theorem witness_Flow_words :
    (∃ s : State, ∃ n : Nat, ∃ c : Ccw, (s.power.porst = false) ∧ (s.reaches n 0x0F c = true)) ∧
    (∃ s : State, ∃ n : Nat, ∃ c : Ccw, (s.power.porst = false) ∧ (s.reaches n 0x10 c = true) ∧
      ((s.begun n c).ccwAddr ((s.begun n c).schSag n) c.addr = none)) ∧
    (∃ s : State, ∃ n : Nat, ∃ c : Ccw, (s.power.porst = false) ∧ (s.reaches n 0x11 c = true) ∧ (condValid c.condCode = true) ∧
      ((s.begun n c).condRight n c = none)) ∧
    (∃ s : State, ∃ n : Nat, ∃ c : Ccw, ∃ a : DWord, (s.power.porst = false) ∧ (s.reaches n 0x15 c = true) ∧
      (((s.begun n c).sch n).curPc = .at a) ∧ (isLs a = isLs c.addr) ∧ ((isLs c.addr && lsResv c.addr) = false) ∧
      ((s.begun n c).ccwAddr ((s.begun n c).schSag n) c.addr = none) ∧ (2 ≤ (((s.begun n c).sch n).lc (fld c.count 0 2)).toNat)) ∧
    (∃ s : State, ∃ n : Nat, ∃ c : Ccw, ∃ a : DWord, (s.power.porst = false) ∧ (s.reaches n 0x15 c = true) ∧
      (((s.begun n c).sch n).curPc = .at a) ∧ (isLs a = isLs c.addr) ∧ ((isLs c.addr && lsResv c.addr) = false) ∧
      ((s.begun n c).ccwAddr ((s.begun n c).schSag n) c.addr = none) ∧ ((((s.begun n c).sch n).lc (fld c.count 0 2)).toNat ≤ 1)) ∧
    (∃ s : State, ∃ n : Nat, ∃ c : Ccw, (s.power.porst = false) ∧ (s.reaches n 0x16 c = true)) ∧
    (∃ s : State, ∃ n : Nat, ∃ c : Ccw, (s.power.porst = false) ∧ (s.reaches n 0x7F c = true) ∧ (c.pause = false) ∧
      (((s.begun n c).sch n).state ≠ .halting)) ∧
    (∃ s : State, ∃ n : Nat, ∃ c : Ccw, ∃ a : DWord, (s.power.porst = false) ∧ (s.reaches n 0x7F c = true) ∧ (c.pause = true) ∧
      (((s.begun n c).sch n).curPc = .at a) ∧ (((s.begun n c).sch n).state ≠ .halting)) :=
  ⟨⟨prog { op := 0x0F, flags := 0, tgt := 0, count := 0, addr := 0 }, 255,
    { op := 0x0F, flags := 0, tgt := 0, count := 0, addr := 0 }, by decide +kernel⟩,
   ⟨prog { op := 0x10, flags := 0, tgt := 0, count := 0, addr := 0x8000000000000FF0 }, 255,
    { op := 0x10, flags := 0, tgt := 0, count := 0, addr := 0x8000000000000FF0 }, by decide +kernel⟩,
   ⟨prog { op := 0x11, flags := 0, tgt := 0, count := 0x600, addr := 0 }, 255,
    { op := 0x11, flags := 0, tgt := 0, count := 0x600, addr := 0 }, by decide +kernel⟩,
   ⟨loopProg { op := 0x15, flags := 0, tgt := 0, count := 0, addr := 0x8000000000000FF0 }, 255,
    { op := 0x15, flags := 0, tgt := 0, count := 0, addr := 0x8000000000000FF0 }, 0x8000000000000000, by decide +kernel⟩,
   ⟨{ prog { op := 0x15, flags := 0, tgt := 0, count := 0, addr := 0x8000000000000FF0 } with schs := [(255, { state := .active, owner := some (.sq 255), pc := .at 0x8000000000000000, lc0 := 1 })] },
    255, { op := 0x15, flags := 0, tgt := 0, count := 0, addr := 0x8000000000000FF0 }, 0x8000000000000000, by decide +kernel⟩,
   ⟨prog { op := 0x16, flags := 0, tgt := 0, count := 7, addr := 3 }, 255,
    { op := 0x16, flags := 0, tgt := 0, count := 7, addr := 3 }, by decide +kernel⟩,
   ⟨prog { op := 0x7F, flags := 0, tgt := 0, count := 0, addr := 0 }, 255,
    { op := 0x7F, flags := 0, tgt := 0, count := 0, addr := 0 }, by decide +kernel⟩,
   ⟨prog { op := 0x7F, flags := 0x40, tgt := 0, count := 0, addr := 0 }, 255,
    { op := 0x7F, flags := 0x40, tgt := 0, count := 0, addr := 0 }, 0x8000000000000000, by decide +kernel⟩⟩

/-- States and operands that meet the hypotheses of each clause of Wait_words. -/
theorem witness_Wait_words :
    (∃ s : State, ∃ n : Nat, ∃ c : Ccw, (s.power.porst = false) ∧ (s.reaches n 0x12 c = true) ∧ (c.count ≠ 0)) ∧
    (∃ s : State, ∃ n : Nat, ∃ c : Ccw, (s.power.porst = false) ∧ (s.reaches n 0x13 c = true) ∧ (condValid c.condCode = true) ∧
      ((s.begun n c).condRight n c = none) ∧ ((s.begun n c).ccwCond n c = false) ∧ (fld c.addr 0 32 ≠ 0)) ∧
    (∃ s : State, ∃ n : Nat, ∃ c : Ccw, (s.power.porst = false) ∧ (s.reaches n 0x14 c = true) ∧ (bit c.addr 0 = false) ∧
      (c.count ≠ 0)) ∧
    (∃ s : State, ∃ n : Nat, ∃ c : Ccw, (s.power.porst = false) ∧ (s.reaches n 0x14 c = true) ∧ (bit c.addr 0 = true) ∧
      (c.count ≠ (s.begun n c).kiln.frame) ∧ (inPast c.count (s.begun n c).kiln.frame = false)) ∧
    (∃ s : State, ∃ n : Nat, ∃ d : Nat, (s.power.porst = false) ∧ (n < 256) ∧ ((s.sch n).wait = .time d) ∧ (d ≤ s.clk)) ∧
    (∃ s : State, ∃ n : Nat, ∃ k : BitVec 16, ∃ i : Bool, ∃ d : Option Nat, (s.power.porst = false) ∧ (n < 256) ∧
      ((s.sch n).wait = .cond k i d) ∧ (s.cond n k.toNat ≠ i) ∧ (timedOut d s.clk = false)) ∧
    (∃ s : State, ∃ n : Nat, ∃ k : BitVec 16, ∃ i : Bool, ∃ d : Nat, (s.power.porst = false) ∧ (n < 256) ∧
      ((s.sch n).wait = .cond k i (some d)) ∧ (d ≤ s.clk)) ∧
    (∃ s : State, ∃ n : Nat, (s.power.porst = false) ∧ (n < 256) ∧ ((s.sch n).wait = .ticks 0)) ∧
    (∃ s : State, ∃ n : Nat, ∃ f : Word, (s.power.porst = false) ∧ (n < 256) ∧ ((s.sch n).wait = .frame f) ∧
      (f = s.kiln.frame ∨ inPast f s.kiln.frame = true)) :=
  ⟨⟨prog { op := 0x12, flags := 0, tgt := 0, count := 5, addr := 0 }, 255,
    { op := 0x12, flags := 0, tgt := 0, count := 5, addr := 0 }, by decide +kernel⟩,
   ⟨prog { op := 0x13, flags := 0, tgt := 0, count := 0x10600, addr := 5 }, 255,
    { op := 0x13, flags := 0, tgt := 0, count := 0x10600, addr := 5 }, by decide +kernel⟩,
   ⟨prog { op := 0x14, flags := 0, tgt := 0, count := 2, addr := 0 }, 255,
    { op := 0x14, flags := 0, tgt := 0, count := 2, addr := 0 }, by decide +kernel⟩,
   ⟨prog { op := 0x14, flags := 0, tgt := 0, count := 2, addr := 1 }, 255,
    { op := 0x14, flags := 0, tgt := 0, count := 2, addr := 1 }, by decide +kernel⟩,
   ⟨waits (.time 5), 255, 5, by decide +kernel⟩,
   ⟨waits (.cond 1 true (some 6)), 255, 1, true, some 6, by decide +kernel⟩,
   ⟨waits (.cond 1 true (some 5)), 255, 1, true, 5, by decide +kernel⟩,
   ⟨waits (.ticks 0), 255, by decide +kernel⟩,
   ⟨waits (.frame 0), 255, 0, by decide +kernel⟩⟩

/-- States and operands that meet the hypotheses of each clause of Service_words. -/
theorem witness_Service_words :
    (∃ s : State, ∃ n : Nat, ∃ c : Ccw, (s.power.porst = false) ∧ (s.reaches n 0x09 c = true) ∧ (c.count = 0) ∧
      (fld c.tgt 9 7 = (s.begun n c).lnk.node) ∧ (1 ≤ portKind (fencePort c)) ∧ (portKind (fencePort c) ≤ 3) ∧
      ((portKind (fencePort c) == 1 && ((s.begun n c).portMode (fencePort c) == 0 || (s.begun n c).portMode (fencePort c) == 5)) = false) ∧
      ((s.begun n c).mayObserve ((s.begun n c).schSag n) (fencePort c) = true)) ∧
    (∃ s : State, ∃ n : Nat, ∃ c : Ccw, (s.power.porst = false) ∧ (s.reaches n 0x09 c = true) ∧ (c.count ≠ 0) ∧
      (isLs c.addr = true) ∧ (lsResv c.addr = false) ∧ ((s.begun n c).checkRange ((s.begun n c).schSag n) c.addr 1 = none)) ∧
    (∃ s : State, ∃ n : Nat, ∃ c : Ccw, (s.power.porst = false) ∧ (s.reaches n 0x09 c = true) ∧ (c.count ≠ 0) ∧
      (isLs c.addr = false) ∧ (fld c.addr 0 3 = 0) ∧ ((s.begun n c).checkRange ((s.begun n c).schSag n) c.addr 8 = none) ∧
      (((s.begun n c).fn ((s.begun n c).schSag n)).busMaster = true)) ∧
    (∃ s : State, ∃ n : Nat, ∃ c : Ccw, ∃ a : DWord, (a = (if c.addr = 0 then ((s.begun n c).sch n).stata else c.addr)) ∧
      (s.power.porst = false) ∧ (s.reaches n 0x18 c = true) ∧ ((isLs c.addr && lsResv c.addr) = false) ∧ (a ≠ 0) ∧
      (fld a 0 4 = 0) ∧ ((s.begun n c).checkWrite ((s.begun n c).schSag n) a 16 = none)) ∧
    (∃ s : State, ∃ n : Nat, ∃ c : Ccw, (s.power.porst = false) ∧ (s.reaches n 0x19 c = true) ∧ (fld c.count 30 2 = 0)) ∧
    (∃ s : State, ∃ n : Nat, ∃ c : Ccw, ∃ q : QRef, (s.power.porst = false) ∧ (s.reaches n 0x19 c = true) ∧
      (fld c.count 30 2 = 1) ∧ (((s.begun n c).sch (fld c.count 0 8)).owner = some q) ∧
      ((s.begun n c).qSag q = (s.begun n c).schSag n)) ∧
    (∃ s : State, ∃ n : Nat, ∃ c : Ccw, ∃ q : QRef, (s.power.porst = false) ∧ (s.reaches n 0x19 c = true) ∧
      (fld c.count 30 2 = 2) ∧ (((s.begun n c).sch (fld c.count 0 8)).owner = some q) ∧
      ((s.begun n c).qSag q = (s.begun n c).schSag n)) ∧
    (∃ s : State, ∃ n : Nat, ∃ c : Ccw, (s.power.porst = false) ∧ (s.reaches n 0x1C c = true) ∧
      ((s.begun n c).sharedTgt c = true) ∧ (((s.begun n c).slotOn (fld c.tgt 0 9) n).isSome = true) ∧
      ((s.begun n c).holds (fld c.tgt 0 9) n = true)) ∧
    (∃ s : State, ∃ n : Nat, ∃ c : Ccw, ∃ g : Nat, ∃ k : Nat, (s.power.porst = false) ∧ (s.reaches n 0x1C c = true) ∧
      ((s.begun n c).sharedTgt c = true) ∧ ((s.begun n c).slotOn (fld c.tgt 0 9) n = some (g, k)) ∧
      ((s.begun n c).holds (fld c.tgt 0 9) n = false)) ∧
    (∃ s : State, ∃ n : Nat, ∃ c : Ccw, ∃ g : Nat, ∃ k : Nat, (s.power.porst = false) ∧ (s.reaches n 0x1D c = true) ∧
      ((s.begun n c).sharedTgt c = true) ∧ ((s.begun n c).slotOn (fld c.tgt 0 9) n = some (g, k)) ∧
      (((s.begun n c).claim g).holder = some k)) ∧
    (∃ s : State, ∃ n : Nat, (s.power.porst = false) ∧ (n < 256) ∧ ((s.sch n).wait = .fenceLs)) ∧
    (∃ s : State, ∃ n : Nat, ∃ p : Nat, (s.power.porst = false) ∧ (n < 256) ∧ ((s.sch n).wait = .fencePort p) ∧
      (s.fenceDue n p = true)) :=
  ⟨⟨{ prog { op := 0x09, flags := 0, tgt := 0x42, count := 0, addr := 0 } with sags := [(0, { en := true, observe := 0xFFFFFFFFFFFFFFFFFFFFFFFF })] },
    255, { op := 0x09, flags := 0, tgt := 0x42, count := 0, addr := 0 }, by decide +kernel⟩,
   ⟨prog { op := 0x09, flags := 0, tgt := 0, count := 1, addr := 0x8000000000000000 }, 255,
    { op := 0x09, flags := 0, tgt := 0, count := 1, addr := 0x8000000000000000 }, by decide +kernel⟩,
   ⟨{ prog { op := 0x09, flags := 0, tgt := 0, count := 1, addr := 4096 } with fns := [(0, { busMaster := true })] }, 255,
    { op := 0x09, flags := 0, tgt := 0, count := 1, addr := 4096 }, by decide +kernel⟩,
   ⟨prog { op := 0x18, flags := 0, tgt := 0, count := 0x1234, addr := 0x8000000000000FF0 }, 255,
    { op := 0x18, flags := 0, tgt := 0, count := 0x1234, addr := 0x8000000000000FF0 }, _, rfl, by decide +kernel⟩,
   ⟨prog { op := 0x19, flags := 0, tgt := 0, count := 0xFFFF, addr := 0 }, 255,
    { op := 0x19, flags := 0, tgt := 0, count := 0xFFFF, addr := 0 }, by decide +kernel⟩,
   ⟨prog { op := 0x19, flags := 0, tgt := 0, count := 0x400000FF, addr := 0 }, 255,
    { op := 0x19, flags := 0, tgt := 0, count := 0x400000FF, addr := 0 }, .sq 255, by decide +kernel⟩,
   ⟨prog { op := 0x19, flags := 0, tgt := 0, count := 0x800000FF, addr := 0 }, 255,
    { op := 0x19, flags := 0, tgt := 0, count := 0x800000FF, addr := 0 }, .sq 255, by decide +kernel⟩,
   ⟨sharedProg true { op := 0x1C, flags := 0, tgt := 0, count := 0, addr := 0 }, 255,
    { op := 0x1C, flags := 0, tgt := 0, count := 0, addr := 0 }, by decide +kernel⟩,
   ⟨sharedProg false { op := 0x1C, flags := 0, tgt := 0, count := 0, addr := 0 }, 255,
    { op := 0x1C, flags := 0, tgt := 0, count := 0, addr := 0 }, 0, 15, by decide +kernel⟩,
   ⟨sharedProg true { op := 0x1D, flags := 0, tgt := 0, count := 0, addr := 0 }, 255,
    { op := 0x1D, flags := 0, tgt := 0, count := 0, addr := 0 }, 0, 15, by decide +kernel⟩,
   ⟨waits .fenceLs, 255, by decide +kernel⟩,
   ⟨waits (.fencePort 0x43), 255, 0x43, by decide +kernel⟩⟩

/-- States and operands that meet the hypotheses of each clause of Port_words. -/
theorem witness_Port_words :
    (∃ s : State, ∃ n : Nat, ∃ c : Ccw, (s.power.porst = false) ∧ (s.reaches n 0x01 c = true) ∧
      ((s.begun n c).portStep2 n c = true) ∧ ((s.begun n c).portStep3 n c = none) ∧ ((s.begun n c).portStep4 n c = none)) ∧
    (∃ s : State, ∃ n : Nat, ∃ c : Ccw, (s.power.porst = false) ∧ (s.reaches n 0x02 c = true) ∧
      ((s.begun n c).portStep2 n c = true) ∧ ((s.begun n c).portStep3 n c = none) ∧ ((s.begun n c).portStep4 n c = none)) ∧
    (∃ s : State, ∃ n : Nat, ∃ c : Ccw, (s.power.porst = false) ∧ (s.reaches n 0x03 c = true) ∧
      ((s.begun n c).portStep2 n c = true) ∧ ((s.begun n c).portStep3 n c = none) ∧ ((s.begun n c).portStep4 n c = none)) ∧
    (∃ s : State, ∃ n : Nat, ∃ c : Ccw, (s.power.porst = false) ∧ (s.reaches n 0x04 c = true) ∧
      ((s.begun n c).portStep2 n c = true) ∧ ((s.begun n c).portStep3 n c = none) ∧ ((s.begun n c).portStep4 n c = none)) ∧
    (∃ s : State, ∃ n : Nat, ∃ c : Ccw, (s.power.porst = false) ∧ (s.reaches n 0x05 c = true) ∧
      ((s.begun n c).portStep2 n c = true) ∧ ((s.begun n c).portStep3 n c = none) ∧ ((s.begun n c).portStep4 n c = none)) ∧
    (∃ s : State, ∃ n : Nat, ∃ c : Ccw, ∃ l : List Byte,
      (l = (s.begun n c).lsRead ((s.begun n c).schSag n) (lsOff c.addr) c.count.toNat) ∧ (s.power.porst = false) ∧
      (s.reaches n 0x0A c = true) ∧ ((s.begun n c).portStep2 n c = true) ∧ (c.count.toNat = stageSize c.port) ∧
      (isLs c.addr = true) ∧ (lsResv c.addr = false) ∧ (fld c.addr 0 3 = 0) ∧
      ((s.begun n c).checkRange ((s.begun n c).schSag n) c.addr c.count.toNat = none) ∧ ((s.begun n c).portStep4 n c = none) ∧
      ((s.begun n c).lsPoisoned ((s.begun n c).schSag n) (lsOff c.addr) ((c.count.toNat + 7) / 8 * 8) = false) ∧
      (stageOk c.port l = true) ∧ ((s.begun n c).isRemote c = false) ∧ ((s.begun n c).portEn c.port = true) ∧
      (((s.begun n c).inCommit = false ∨ (s.begun n c).kiln.slice = 15))) ∧
    (∃ s : State, ∃ n : Nat, ∃ c : Ccw, ∃ l : List Byte,
      (l = (s.begun n c).lsRead ((s.begun n c).schSag n) (lsOff c.addr) c.count.toNat) ∧ (s.power.porst = false) ∧
      (s.reaches n 0x0A c = true) ∧ ((s.begun n c).portStep2 n c = true) ∧ (c.count.toNat = stageSize c.port) ∧
      (isLs c.addr = true) ∧ (lsResv c.addr = false) ∧ (fld c.addr 0 3 = 0) ∧
      ((s.begun n c).checkRange ((s.begun n c).schSag n) c.addr c.count.toNat = none) ∧ ((s.begun n c).portStep4 n c = none) ∧
      ((s.begun n c).lsPoisoned ((s.begun n c).schSag n) (lsOff c.addr) ((c.count.toNat + 7) / 8 * 8) = false) ∧
      (stageOk c.port l = true) ∧ ((s.begun n c).isRemote c = false) ∧ ((s.begun n c).portEn c.port = true) ∧
      ((s.begun n c).inCommit = true) ∧ ((s.begun n c).kiln.slice ≠ 15)) ∧
    (∃ s : State, ∃ n : Nat, ∃ c : Ccw, (s.power.porst = false) ∧ (s.reaches n 0x0B c = true) ∧
      ((s.begun n c).portStep2 n c = true) ∧ (c.count.toNat = snapSize c.port) ∧ ((isLs c.addr && lsResv c.addr) = false) ∧
      (fld c.addr 0 3 = 0) ∧ ((s.begun n c).checkRange ((s.begun n c).schSag n) c.addr c.count.toNat = none) ∧
      ((s.begun n c).portStep4 n c = none) ∧ ((s.begun n c).isRemote c = false)) ∧
    (∃ s : State, ∃ _ : Nat, ∃ c : Ccw, ∃ o : PortOp,
      (o = { seq := s.tick1.serial, respNs := s.respNs c.port, byteNs := s.byteNs c.port, turnNs := s.turnNs c.port, ovhNs := s.ovhNs c.port, ccw := c, port := c.port, node := c.node, phase := .prep, t0 := s.clk, pieces := if c.list || !c.usesAddr then [] else [(c.addr, c.bufLen (s.ccwI2c c))], listNext := if c.list && c.usesAddr && c.bufLen (s.ccwI2c c) ≠ 0 then some c.addr else none }) ∧
      (s.isRemote c = false) ∧ (c.op ≠ 0x03)) ∧
    (∃ s : State, ∃ _ : Nat, ∃ c : Ccw, ∃ o : PortOp,
      (o = { seq := s.tick1.serial, respNs := s.respNs c.port, byteNs := s.byteNs c.port, turnNs := s.turnNs c.port, ovhNs := s.ovhNs c.port, ccw := c, port := c.port, node := c.node, phase := .prep, t0 := s.clk, pieces := if c.list || !c.usesAddr then [] else [(c.addr, c.bufLen (s.ccwI2c c))], listNext := if c.list && c.usesAddr && c.bufLen (s.ccwI2c c) ≠ 0 then some c.addr else none }) ∧
      (s.isRemote c = true ∨ c.op = 0x03)) :=
  ⟨⟨portProg { op := 0x01, flags := 0, tgt := 0, count := 4, addr := 0x8000000000000000 }, 255,
    { op := 0x01, flags := 0, tgt := 0, count := 4, addr := 0x8000000000000000 }, by decide +kernel⟩,
   ⟨portProg { op := 0x02, flags := 0, tgt := 0, count := 4, addr := 0x8000000000000000 }, 255,
    { op := 0x02, flags := 0, tgt := 0, count := 4, addr := 0x8000000000000000 }, by decide +kernel⟩,
   ⟨(portProg { op := 0x03, flags := 0, tgt := 0, count := 4, addr := 0x8000000000000010 }).lsWrite 0 16 [2, 0, 0, 0], 255,
    { op := 0x03, flags := 0, tgt := 0, count := 4, addr := 0x8000000000000010 }, by decide +kernel⟩,
   ⟨portProg { op := 0x04, flags := 0, tgt := 0, count := 32, addr := 0x8000000000000000 }, 255,
    { op := 0x04, flags := 0, tgt := 0, count := 32, addr := 0x8000000000000000 }, by decide +kernel⟩,
   ⟨portProg { op := 0x05, flags := 0, tgt := 0, count := 0x40004, addr := 0x8000000000000000 }, 255,
    { op := 0x05, flags := 0, tgt := 0, count := 0x40004, addr := 0x8000000000000000 }, by decide +kernel⟩,
   ⟨portProg { op := 0x0A, flags := 0, tgt := 0x60, count := 16, addr := 0x8000000000000010 }, 255,
    { op := 0x0A, flags := 0, tgt := 0x60, count := 16, addr := 0x8000000000000010 }, _, rfl, by decide +kernel⟩,
   ⟨{ portProg { op := 0x0A, flags := 0, tgt := 0x60, count := 16, addr := 0x8000000000000010 } with clk := 15000, kiln := { frameRuns := true, frameLen := 16000, slice := 14 } },
    255, { op := 0x0A, flags := 0, tgt := 0x60, count := 16, addr := 0x8000000000000010 }, _, rfl, by decide +kernel⟩,
   ⟨portProg { op := 0x0B, flags := 0, tgt := 0x1FF, count := 64, addr := 0x8000000000000000 }, 255,
    { op := 0x0B, flags := 0, tgt := 0x1FF, count := 64, addr := 0x8000000000000000 }, by decide +kernel⟩,
   ⟨up, 255, { op := 0x01, flags := 0, tgt := 0x00, count := 4, addr := 0x8000000000000000 }, _, rfl, by decide +kernel⟩,
   ⟨up, 255, { op := 0x03, flags := 0, tgt := 0x00, count := 4, addr := 0 }, _, rfl, by decide +kernel⟩⟩

/-- States and operands that meet the hypotheses of each clause of Transfer_ends. -/
theorem witness_Transfer_ends :
    (∃ s : State, ∃ n : Nat, ∃ o : PortOp, ∃ _ : LineEnd, (s.power.porst = false) ∧ (n < opLimit) ∧ ((s.sch n).op = some o) ∧
      (o.phase = .ended) ∧ (o.t3 ≤ s.clk) ∧ (o.rxPlaced = true)) ∧
    (∃ s : State, ∃ n : Nat, ∃ o : PortOp, ∃ _ : LineEnd, (s.power.porst = false) ∧ (n < opLimit) ∧ ((s.sch n).op = some o) ∧
      (o.phase = .line) ∧ (portKind o.port = 1) ∧ (o.ccw.op ≠ 0x03) ∧ (s.charMode o.port = false)) ∧
    (∃ s : State, ∃ n : Nat, ∃ o : PortOp, ∃ _ : LineEnd, (s.power.porst = false) ∧ (n < opLimit) ∧ ((s.sch n).op = some o) ∧
      (o.phase = .line) ∧ (portKind o.port = 1) ∧ (o.ccw.op = 0x01) ∧ (s.charMode o.port = true) ∧ (s.writeRoom o.port = true)) ∧
    (∃ s : State, ∃ u : State, ∃ n : Nat, ∃ p : Nat, ∃ _ : LineEnd,
      (u = ((s.sampleReqsAt p n ((s.port p).txEnd - s.charNs p)).drained p).freeLine p) ∧ (s.power.porst = false) ∧
      (n < opLimit) ∧ ((s.sch n).op = none) ∧ (s.lineOf n = some p) ∧ ((s.port p).txOwner = some n) ∧
      ((s.port p).txEnd ≤ s.clk) ∧ ((s.sch n).spanOn p = false)) ∧
    (∃ s : State, ∃ p : Nat, (s.power.porst = false) ∧ (p < 512) ∧ (portKind p = 1) ∧ (s.charMode p = true) ∧
      ((s.port p).lineBusy = none) ∧ ((s.port p).txEnd + (s.port p).txTurn ≤ s.clk)) ∧
    (∃ s : State, ∃ u : State, ∃ p : Nat, ∃ n : Nat, ∃ o : PortOp, (u = s.transmitEnds p n) ∧ (s.power.porst = false) ∧
      (p < 512) ∧ (portKind p = 1) ∧ (s.charMode p = true) ∧ ((s.port p).lineBusy = some n) ∧ ((u.port p).lineBusy = some n) ∧
      ((u.sch n).op = some o) ∧ (o.port = p) ∧ (o.phase = .line) ∧ (o.ccw.op = 0x05) ∧ (o.t2 + o.turnNs ≤ u.clk) ∧
      (o.ccw.rxLen false ≠ 0)) ∧
    (∃ s : State, ∃ u : State, ∃ p : Nat, ∃ n : Nat, ∃ o : PortOp, (u = s.transmitEnds p n) ∧ (s.power.porst = false) ∧
      (p < 512) ∧ (portKind p = 1) ∧ (s.charMode p = true) ∧ ((s.port p).lineBusy = some n) ∧ ((u.port p).lineBusy = some n) ∧
      ((u.sch n).op = some o) ∧ (o.port = p) ∧ (o.phase = .line) ∧ (o.ccw.op = 0x02) ∧
      ((u.port p).txEnd + (u.port p).txTurn ≤ u.clk)) ∧
    (∃ s : State, ∃ n : Nat, ∃ o : PortOp, (s.power.porst = false) ∧ (n < opLimit) ∧ ((s.sch n).op = some o) ∧
      (o.phase = .listen) ∧ (o.t3 + o.respNs ≤ s.clk)) ∧
    (∃ s : State, ∃ n : Nat, ∃ o : PortOp, (s.power.porst = false) ∧ (n < opLimit) ∧ ((s.sch n).op = some o) ∧
      (o.phase = .receive) ∧ (o.ccw.op = 0x02) ∧ (o.lastByte + o.byteNs ≤ s.clk)) ∧
    (∃ s : State, ∃ p : Nat, ∃ g : Nat, (s.power.porst = false) ∧ (p < 512) ∧ (portKind p = 1) ∧ (s.charMode p = true) ∧
      (s.frameGap p = some g) ∧ ((s.port p).lastRx + g ≤ s.clk) ∧ ((s.port p).lineBusy = none)) ∧
    (∃ s : State, ∃ p : Nat, ∃ g : Nat, ∃ n : Nat, ∃ o : PortOp, (s.power.porst = false) ∧ (p < 512) ∧ (portKind p = 1) ∧
      (s.charMode p = true) ∧ (s.frameGap p = some g) ∧ ((s.port p).lastRx + g ≤ s.clk) ∧ ((s.port p).lineBusy = some n) ∧
      ((s.sch n).op = some o) ∧ (o.port = p) ∧ (o.phase = .receive) ∧ ((s.port p).frameRx ≠ [])) :=
  ⟨⟨{ up with schs := [(255, { state := .waiting, owner := some (.sq 255), op := some { ccw := { op := 0x02, flags := 0, tgt := 0, count := 4, addr := 0 }, port := 0, node := 0, phase := .ended } })] },
    255, { ccw := { op := 0x02, flags := 0, tgt := 0, count := 4, addr := 0 }, port := 0, node := 0, phase := .ended }, {},
    by decide +kernel⟩,
   ⟨{ up with schs := [(255, { state := .waiting, owner := some (.sq 255), op := some { ccw := { op := 0x02, flags := 0, tgt := 0, count := 4, addr := 0 }, port := 0, node := 0, phase := .line } })], tables := { port := [(0, 0x31)] } },
    255, { ccw := { op := 0x02, flags := 0, tgt := 0, count := 4, addr := 0 }, port := 0, node := 0, phase := .line }, {},
    by decide +kernel⟩,
   ⟨{ up with schs := [(255, { state := .waiting, owner := some (.sq 255), op := some { ccw := { op := 0x01, flags := 0, tgt := 0, count := 4, addr := 0 }, port := 0, node := 0, phase := .line } })], tables := { port := [(0, 0x11)] } },
    255, { ccw := { op := 0x01, flags := 0, tgt := 0, count := 4, addr := 0 }, port := 0, node := 0, phase := .line }, {},
    by decide +kernel⟩,
   ⟨{ up with clk := 1000, tables := { port := [(0, 0x11), (1, 9600)] }, ports := [(0, { lineBusy := some 255, txOwner := some 255, txEnd := 1000 })], schs := [(255, { state := .active, owner := some (.sq 255) })] },
    _, 255, 0, {}, rfl, by decide +kernel⟩,
   ⟨{ up with tables := { port := [(16 * 0x2F, 0x11)] } }, 0x2F, by decide +kernel⟩,
   ⟨{ up with tables := { port := [(0, 0x11)] }, ports := [(0, { lineBusy := some 255 })], schs := [(255, { op := some { ccw := { op := 0x05, flags := 0, tgt := 0, count := 0x40004, addr := 0 }, port := 0, node := 0, phase := .line } })] },
    _, 0, 255,
    { ccw := { op := 0x05, flags := 0, tgt := 0, count := 0x40004, addr := 0 }, port := 0, node := 0, phase := .line }, rfl,
    by decide +kernel⟩,
   ⟨{ up with tables := { port := [(0, 0x11)] }, ports := [(0, { lineBusy := some 255 })], schs := [(255, { op := some { ccw := { op := 0x02, flags := 0, tgt := 0, count := 4, addr := 0 }, port := 0, node := 0, phase := .line } })] },
    _, 0, 255, { ccw := { op := 0x02, flags := 0, tgt := 0, count := 4, addr := 0 }, port := 0, node := 0, phase := .line },
    rfl, by decide +kernel⟩,
   ⟨{ up with schs := [(255, { state := .waiting, owner := some (.sq 255), op := some { ccw := { op := 0x02, flags := 0, tgt := 0, count := 4, addr := 0 }, port := 0, node := 0, phase := .listen } })] },
    255, { ccw := { op := 0x02, flags := 0, tgt := 0, count := 4, addr := 0 }, port := 0, node := 0, phase := .listen },
    by decide +kernel⟩,
   ⟨{ up with schs := [(255, { state := .waiting, owner := some (.sq 255), op := some { ccw := { op := 0x02, flags := 0, tgt := 0, count := 4, addr := 0 }, port := 0, node := 0, phase := .receive } })] },
    255, { ccw := { op := 0x02, flags := 0, tgt := 0, count := 4, addr := 0 }, port := 0, node := 0, phase := .receive },
    by decide +kernel⟩,
   ⟨{ up with clk := 100000000, tables := { port := [(0, 0x211), (1, 9600), (2, 0x408)] } }, 0, 422400, by decide +kernel⟩,
   ⟨{ up with clk := 100000000, tables := { port := [(0, 0x211), (1, 9600), (2, 0x408)] }, ports := [(0, { lineBusy := some 255, frameRx := [0x41] })], schs := [(255, { state := .waiting, owner := some (.sq 255), op := some { ccw := { op := 0x02, flags := 0, tgt := 0, count := 8, addr := 0 }, port := 0, node := 0, phase := .receive } })] },
    0, 422400, 255,
    { ccw := { op := 0x02, flags := 0, tgt := 0, count := 8, addr := 0 }, port := 0, node := 0, phase := .receive },
    by decide +kernel⟩⟩

/-- States and operands that meet the hypotheses of each clause of Watchdogs_of_programs_and_ports. -/
theorem witness_Watchdogs_of_programs_and_ports :
    (∃ s : State, ∃ n : Nat, (s.power.porst = false) ∧ (n < 256) ∧ ((s.sch n).timed = true) ∧ (s.bitten n = false) ∧
      ((s.sch n).dispatchedAt + 1000 * (s.sch n).wdgInForce ≤ s.clk)) ∧
    (∃ s : State, ∃ n : Nat, (s.power.porst = false) ∧ (n < 256) ∧ ((s.sch n).timed = false) ∧ (s.readingCcw n = true) ∧
      ((s.sch n).readySince + 1000 * (s.sch n).ccwWdg ≤ s.clk)) ∧
    (∃ s : State, ∃ u : State, ∃ v : State, ∃ g : Nat, ∃ k : Nat, ∃ n : Nat, ∃ p : Nat, (n = ((s.claim g).slot k).sch) ∧
      (p = (s.claim g).port) ∧ (u = (s.claimEvent g k n 0).dropGrants n) ∧
      (v = (if (u.port p).lineBusy == some n && !(match (u.sch n).op with | some o => o.port == p && o.phase != .queued | none => false) then (u.stopLine p).freeLine p else u)) ∧
      (s.power.porst = false) ∧ (g < 16) ∧ ((s.claim g).holder = some k) ∧ ((s.claim g).en = true) ∧
      ((s.claim g).holdSince + (s.claim g).cwdgNs ≤ s.clk)) ∧
    (∃ s : State, ∃ g : Nat, ∃ k : Nat, ∃ t : Nat, (s.power.porst = false) ∧ (g < 16) ∧ (k < 16) ∧
      (((s.claim g).slot k).reqSince = some t) ∧ ((s.claim g).en = true) ∧ (t + (s.claim g).cwdgNs ≤ s.clk)) ∧
    (∃ s : State, ∃ n : Nat, ∃ o : PortOp, (s.power.porst = false) ∧ (n < 256) ∧ ((s.sch n).op = some o) ∧ (o.phase = .remote) ∧
      (o.remoteSt = none) ∧ (o.deadline ≤ s.clk)) :=
  ⟨⟨{ up with clk := 1000, schs := [(255, { state := .waiting, owner := some (.sq 255), wait := .fenceLs, wdgInForce := 1, cur := some { op := 9, flags := 0, tgt := 0, count := 1, addr := 0 } })] },
    255, by decide +kernel⟩,
   ⟨{ up with clk := 1000, schs := [(255, { state := .active, owner := some (.sq 255), pc := .at 0x1000, ccwWdg := 1 })] }, 255,
    by decide +kernel⟩,
   ⟨{ up with clk := 1000, claims := [(15, { port := 3, en := true, cwdg := 1, holder := some 15, slots := [(15, { sch := 255, bound := true, reqSince := some 0 })] })] },
    _, _, 15, 15, _, _, rfl, rfl, rfl, rfl, by decide +kernel⟩,
   ⟨{ up with clk := 1000, claims := [(15, { port := 3, en := true, cwdg := 1, holder := some 15, slots := [(15, { sch := 255, bound := true, reqSince := some 0 })] })] },
    15, 15, 0, by decide +kernel⟩,
   ⟨{ up with schs := [(255, { state := .waiting, owner := some (.sq 255), op := some { ccw := { op := 0x02, flags := 0, tgt := 0, count := 4, addr := 0 }, port := 0, node := 0, phase := .remote } })] },
    255, { ccw := { op := 0x02, flags := 0, tgt := 0, count := 4, addr := 0 }, port := 0, node := 0, phase := .remote },
    by decide +kernel⟩⟩

/-- States and operands that meet the hypotheses of each clause of Control_codes. -/
theorem witness_Control_codes :
    (∃ s : State, ∃ n : Nat, ∃ o : PortOp, (s.power.porst = false) ∧ (n < opLimit) ∧ (s.codeOp n 0x0001 = some o)) ∧
    (∃ s : State, ∃ n : Nat, ∃ o : PortOp, (s.power.porst = false) ∧ (n < opLimit) ∧ (s.codeOp n 0x0002 = some o)) ∧
    (∃ s : State, ∃ n : Nat, ∃ o : PortOp, (s.power.porst = false) ∧ (n < opLimit) ∧ (s.codeOp n 0x0010 = some o)) ∧
    (∃ s : State, ∃ n : Nat, ∃ o : PortOp, (s.power.porst = false) ∧ (n < opLimit) ∧ (s.codeOp n 0x0011 = some o)) ∧
    (∃ s : State, ∃ n : Nat, ∃ o : PortOp, (s.power.porst = false) ∧ (n < opLimit) ∧ (s.codeOp n 0x0020 = some o)) ∧
    (∃ s : State, ∃ n : Nat, ∃ o : PortOp, (s.power.porst = false) ∧ (n < opLimit) ∧ (s.codeOp n 0x0040 = some o)) ∧
    (∃ s : State, ∃ n : Nat, ∃ o : PortOp, (s.power.porst = false) ∧ (n < opLimit) ∧ (s.codeOp n 0x0060 = some o)) ∧
    (∃ s : State, ∃ n : Nat, ∃ o : PortOp, (s.power.porst = false) ∧ (n < opLimit) ∧ (s.codeOp n 0x0050 = some o) ∧
      (s.kiln.frameRuns = true)) ∧
    (∃ s : State, ∃ n : Nat, ∃ o : PortOp, (s.power.porst = false) ∧ (n < opLimit) ∧ (s.codeOp n 0x0051 = some o)) ∧
    (∃ s : State, ∃ n : Nat, ∃ o : PortOp, (s.power.porst = false) ∧ (n < opLimit) ∧ (s.codeOp n 0x0070 = some o)) ∧
    (∃ s : State, ∃ n : Nat, ∃ o : PortOp, (s.power.porst = false) ∧ (n < opLimit) ∧ (s.codeOp n 0x0071 = some o) ∧
      (s.kiln.run = true) ∧ (s.kiln.frameRuns = true)) ∧
    (∃ s : State, ∃ n : Nat, ∃ o : PortOp, (s.power.porst = false) ∧ (n < opLimit) ∧ (s.codeOp n 0x0080 = some o) ∧
      (s.kiln.run = true) ∧ (s.kiln.frameRuns = true)) :=
  ⟨⟨{ up with schs := [(255, { state := .waiting, owner := some (.sq 255), op := some { ccw := { op := 0x03, flags := 0, tgt := 0, count := 4, addr := 0 }, port := 0, node := 0, phase := .line, tx := leBytes 2 0x0001 ++ zeros 2 ++ [] } })] },
    255,
    { ccw := { op := 0x03, flags := 0, tgt := 0, count := 4, addr := 0 }, port := 0, node := 0, phase := .line, tx := leBytes 2 0x0001 ++ zeros 2 ++ [] },
    by decide +kernel⟩,
   ⟨{ up with schs := [(255, { state := .waiting, owner := some (.sq 255), op := some { ccw := { op := 0x03, flags := 0, tgt := 0x47, count := 4, addr := 0 }, port := 0x47, node := 0, phase := .line, tx := leBytes 2 0x0002 ++ zeros 2 ++ [] } })] },
    255,
    { ccw := { op := 0x03, flags := 0, tgt := 0x47, count := 4, addr := 0 }, port := 0x47, node := 0, phase := .line, tx := leBytes 2 0x0002 ++ zeros 2 ++ [] },
    by decide +kernel⟩,
   ⟨{ up with schs := [(255, { state := .waiting, owner := some (.sq 255), op := some { ccw := { op := 0x03, flags := 0, tgt := 0, count := 4, addr := 0 }, port := 0, node := 0, phase := .line, tx := leBytes 2 0x0010 ++ zeros 2 ++ [] } })], tables := { port := [(0, 0x41)] } },
    255,
    { ccw := { op := 0x03, flags := 0, tgt := 0, count := 4, addr := 0 }, port := 0, node := 0, phase := .line, tx := leBytes 2 0x0010 ++ zeros 2 ++ [] },
    by decide +kernel⟩,
   ⟨{ up with schs := [(255, { state := .waiting, owner := some (.sq 255), op := some { ccw := { op := 0x03, flags := 0, tgt := 0, count := 4, addr := 0 }, port := 0, node := 0, phase := .line, tx := leBytes 2 0x0011 ++ zeros 2 ++ leBytes 4 13 } })], tables := { port := [(0, 0x11)] } },
    255,
    { ccw := { op := 0x03, flags := 0, tgt := 0, count := 4, addr := 0 }, port := 0, node := 0, phase := .line, tx := leBytes 2 0x0011 ++ zeros 2 ++ leBytes 4 13 },
    by decide +kernel⟩,
   ⟨{ up with schs := [(255, { state := .waiting, owner := some (.sq 255), op := some { ccw := { op := 0x03, flags := 0, tgt := 0x40, count := 4, addr := 0 }, port := 0x40, node := 0, phase := .line, tx := leBytes 2 0x0020 ++ zeros 2 ++ [63, 1] } })] },
    255,
    { ccw := { op := 0x03, flags := 0, tgt := 0x40, count := 4, addr := 0 }, port := 0x40, node := 0, phase := .line, tx := leBytes 2 0x0020 ++ zeros 2 ++ [63, 1] },
    by decide +kernel⟩,
   ⟨{ up with schs := [(255, { state := .waiting, owner := some (.sq 255), op := some { ccw := { op := 0x03, flags := 0, tgt := 0x60, count := 4, addr := 0 }, port := 0x60, node := 0, phase := .line, tx := leBytes 2 0x0040 ++ zeros 2 ++ [63, 3] } })] },
    255,
    { ccw := { op := 0x03, flags := 0, tgt := 0x60, count := 4, addr := 0 }, port := 0x60, node := 0, phase := .line, tx := leBytes 2 0x0040 ++ zeros 2 ++ [63, 3] },
    by decide +kernel⟩,
   ⟨{ up with schs := [(255, { state := .waiting, owner := some (.sq 255), op := some { ccw := { op := 0x03, flags := 0, tgt := 0x7F, count := 4, addr := 0 }, port := 0x7F, node := 0, phase := .line, tx := leBytes 2 0x0060 ++ zeros 2 ++ leBytes 4 0xFFFFFF } })] },
    255,
    { ccw := { op := 0x03, flags := 0, tgt := 0x7F, count := 4, addr := 0 }, port := 0x7F, node := 0, phase := .line, tx := leBytes 2 0x0060 ++ zeros 2 ++ leBytes 4 0xFFFFFF },
    by decide +kernel⟩,
   ⟨{ up with schs := [(255, { state := .waiting, owner := some (.sq 255), op := some { ccw := { op := 0x03, flags := 0, tgt := 0x87, count := 4, addr := 0 }, port := 0x87, node := 0, phase := .line, tx := leBytes 2 0x0050 ++ zeros 2 ++ leBytes 4 7 } })], kiln := { frameRuns := true } },
    255,
    { ccw := { op := 0x03, flags := 0, tgt := 0x87, count := 4, addr := 0 }, port := 0x87, node := 0, phase := .line, tx := leBytes 2 0x0050 ++ zeros 2 ++ leBytes 4 7 },
    by decide +kernel⟩,
   ⟨{ up with schs := [(255, { state := .waiting, owner := some (.sq 255), op := some { ccw := { op := 0x03, flags := 0, tgt := 0x87, count := 4, addr := 0 }, port := 0x87, node := 0, phase := .line, tx := leBytes 2 0x0051 ++ zeros 2 ++ [] } })] },
    255,
    { ccw := { op := 0x03, flags := 0, tgt := 0x87, count := 4, addr := 0 }, port := 0x87, node := 0, phase := .line, tx := leBytes 2 0x0051 ++ zeros 2 ++ [] },
    by decide +kernel⟩,
   ⟨{ up with schs := [(255, { state := .waiting, owner := some (.sq 255), op := some { ccw := { op := 0x03, flags := 0, tgt := 0xBF, count := 4, addr := 0 }, port := 0xBF, node := 0, phase := .line, tx := leBytes 2 0x0070 ++ zeros 2 ++ [] } })] },
    255,
    { ccw := { op := 0x03, flags := 0, tgt := 0xBF, count := 4, addr := 0 }, port := 0xBF, node := 0, phase := .line, tx := leBytes 2 0x0070 ++ zeros 2 ++ [] },
    by decide +kernel⟩,
   ⟨{ up with schs := [(255, { state := .waiting, owner := some (.sq 255), op := some { ccw := { op := 0x03, flags := 0, tgt := 0xBF, count := 4, addr := 0 }, port := 0xBF, node := 0, phase := .line, tx := leBytes 2 0x0071 ++ zeros 2 ++ leBytes 4 7 } })], kiln := { run := true, frameRuns := true } },
    255,
    { ccw := { op := 0x03, flags := 0, tgt := 0xBF, count := 4, addr := 0 }, port := 0xBF, node := 0, phase := .line, tx := leBytes 2 0x0071 ++ zeros 2 ++ leBytes 4 7 },
    by decide +kernel⟩,
   ⟨{ up with schs := [(255, { state := .waiting, owner := some (.sq 255), op := some { ccw := { op := 0x03, flags := 0, tgt := 0x90, count := 4, addr := 0 }, port := 0x90, node := 0, phase := .line, tx := leBytes 2 0x0080 ++ zeros 2 ++ [] } })], kiln := { run := true, frameRuns := true } },
    255,
    { ccw := { op := 0x03, flags := 0, tgt := 0x90, count := 4, addr := 0 }, port := 0x90, node := 0, phase := .line, tx := leBytes 2 0x0080 ++ zeros 2 ++ [] },
    by decide +kernel⟩⟩

/-- States and operands that meet the hypotheses of each clause of Mdio_operations. -/
theorem witness_Mdio_operations :
    (∃ s : State, ∃ n : Nat, ∃ o : PortOp, (s.power.porst = false) ∧ (n < opLimit) ∧ (s.codeOp n 0x0030 = some o) ∧
      ((s.mdio.any fun m => m.sch == n) = false) ∧ (s.mdioEarlier o = false)) ∧
    (∃ s : State, ∃ n : Nat, ∃ o : PortOp, (s.power.porst = false) ∧ (n < opLimit) ∧ (s.codeOp n 0x0031 = some o) ∧
      ((s.mdio.any fun m => m.sch == n) = false) ∧ (s.mdioEarlier o = false)) ∧
    (∃ s : State, ∃ m : MdioOp, ∃ o : PortOp, ∃ _ : BitVec 16, (s.power.porst = false) ∧ (s.mdio = [m]) ∧
      ((s.sch m.sch).op = some o) ∧ (o.t1 + 25600 ≤ s.clk) ∧ (m.data = none)) ∧
    (∃ s : State, ∃ m : MdioOp, ∃ o : PortOp, ∃ _ : BitVec 16, (s.power.porst = false) ∧ (s.mdio = [m]) ∧
      ((s.sch m.sch).op = some o) ∧ (o.t1 + 25600 ≤ s.clk) ∧ (m.data.isSome = true)) ∧
    (∃ s : State, ∃ u : State, ∃ m : MdioOp, ∃ h : MdioOp, ∃ rest : List MdioOp, ∃ o : PortOp, ∃ _ : BitVec 16,
      (u = State.updOp { s with mdio := h :: rest } h.sch (fun o => { o with t1 := s.clk })) ∧ (s.power.porst = false) ∧
      (s.mdio = m :: h :: rest) ∧ ((s.sch m.sch).op = some o) ∧ (o.t1 + 25600 ≤ s.clk)) :=
  ⟨⟨{ up with schs := [(255, { state := .waiting, owner := some (.sq 255), op := some { ccw := { op := 0x03, flags := 0, tgt := 0x53, count := 4, addr := 0 }, port := 0x53, node := 0, phase := .line, tx := leBytes 2 0x0030 ++ zeros 2 ++ [] } })] },
    255,
    { ccw := { op := 0x03, flags := 0, tgt := 0x53, count := 4, addr := 0 }, port := 0x53, node := 0, phase := .line, tx := leBytes 2 0x0030 ++ zeros 2 ++ [] },
    by decide +kernel⟩,
   ⟨{ up with schs := [(255, { state := .waiting, owner := some (.sq 255), op := some { ccw := { op := 0x03, flags := 0, tgt := 0x53, count := 4, addr := 0 }, port := 0x53, node := 0, phase := .line, tx := leBytes 2 0x0031 ++ zeros 2 ++ [] } })] },
    255,
    { ccw := { op := 0x03, flags := 0, tgt := 0x53, count := 4, addr := 0 }, port := 0x53, node := 0, phase := .line, tx := leBytes 2 0x0031 ++ zeros 2 ++ [] },
    by decide +kernel⟩,
   ⟨{ up with clk := 25600, mdio := [{ sch := 255, mac := 0x53, phy := 0, reg := 0, data := none }], schs := [(255, { op := some { ccw := { op := 0x03, flags := 0, tgt := 0x53, count := 4, addr := 0 }, port := 0x53, node := 0, phase := .line, tx := leBytes 2 0x0031 ++ zeros 2 ++ [] } })] },
    { sch := 255, mac := 0x53, phy := 0, reg := 0, data := none },
    { ccw := { op := 0x03, flags := 0, tgt := 0x53, count := 4, addr := 0 }, port := 0x53, node := 0, phase := .line, tx := leBytes 2 0x0031 ++ zeros 2 ++ [] },
    0xBEEF, by decide +kernel⟩,
   ⟨{ up with clk := 25600, mdio := [{ sch := 255, mac := 0x53, phy := 0, reg := 0, data := some 5 }], schs := [(255, { op := some { ccw := { op := 0x03, flags := 0, tgt := 0x53, count := 4, addr := 0 }, port := 0x53, node := 0, phase := .line, tx := leBytes 2 0x0031 ++ zeros 2 ++ [] } })] },
    { sch := 255, mac := 0x53, phy := 0, reg := 0, data := some 5 },
    { ccw := { op := 0x03, flags := 0, tgt := 0x53, count := 4, addr := 0 }, port := 0x53, node := 0, phase := .line, tx := leBytes 2 0x0031 ++ zeros 2 ++ [] },
    0xBEEF, by decide +kernel⟩,
   ⟨{ up with clk := 25600, mdio := [{ sch := 255, mac := 0x53, phy := 0, reg := 0, data := none }, { sch := 254, mac := 0x53, phy := 0, reg := 1, data := none }], schs := [(255, { op := some { ccw := { op := 0x03, flags := 0, tgt := 0x53, count := 4, addr := 0 }, port := 0x53, node := 0, phase := .line, tx := leBytes 2 0x0031 ++ zeros 2 ++ [] } })] },
    _, { sch := 255, mac := 0x53, phy := 0, reg := 0, data := none },
    { sch := 254, mac := 0x53, phy := 0, reg := 1, data := none }, [],
    { ccw := { op := 0x03, flags := 0, tgt := 0x53, count := 4, addr := 0 }, port := 0x53, node := 0, phase := .line, tx := leBytes 2 0x0031 ++ zeros 2 ++ [] },
    0xBEEF, rfl, by decide +kernel⟩⟩

/-- States and operands that meet the hypotheses of each clause of Block_mover_registers. -/
theorem witness_Block_mover_registers :
    (∃ s : State, ∃ ch : Nat, (s.power.porst = false) ∧ (ch < 16) ∧ ((s.bm ch).en = true) ∧ (s.shpBound (s.bm ch).sag = false) ∧
      (s.barOn (s.bm ch).sag = true) ∧ ((s.bm ch).zeroing = false) ∧ ((s.bm ch).shut = false) ∧ ((s.bm ch).vec ≤ 32) ∧
      ((s.bm ch).state = .idle) ∧ ((s.bm ch).waiters = [])) ∧
    (∃ s : State, ∃ ch : Nat, (s.power.porst = false) ∧ (ch < 16) ∧ ((s.bm ch).en = true) ∧ (s.shpBound (s.bm ch).sag = false) ∧
      (s.barOn (s.bm ch).sag = true) ∧ ((s.bm ch).zeroing = false) ∧ ((s.bm ch).shut = false) ∧ ((s.bm ch).vec ≤ 32) ∧
      ((s.bm ch).state = .run)) ∧
    (∃ s : State, ∃ ch : Nat, (s.power.porst = false) ∧ (ch < 16) ∧ ((s.bm ch).en = true) ∧ (s.shpBound (s.bm ch).sag = false) ∧
      (s.barOn (s.bm ch).sag = true) ∧ ((s.bm ch).zeroing = false) ∧ ((s.bm ch).shut = false) ∧ ((s.bm ch).vec ≤ 32) ∧
      ((s.bm ch).state ≠ .stalled)) ∧
    (∃ s : State, ∃ ch : Nat, ∃ _ : Word, (s.power.porst = false) ∧ (ch < 16) ∧ ((s.bm ch).en = true) ∧
      (s.shpBound (s.bm ch).sag = false) ∧ (s.barOn (s.bm ch).sag = true) ∧ ((s.bm ch).zeroing = false) ∧
      ((s.bm ch).shut = false) ∧ ((s.bm ch).state ≠ .stalled)) ∧
    (∃ s : State, ∃ ch : Nat, ∃ cmd : Instr, ∃ w : Word, (s.power.porst = false) ∧ (ch < 16) ∧ ((s.bm ch).en = true) ∧
      (s.shpBound (s.bm ch).sag = false) ∧ (s.barOn (s.bm ch).sag = true) ∧ ((s.bm ch).zeroing = false) ∧
      ((s.bm ch).shut = true) ∧ (cmd = .bmGo ch ∨ cmd = .bmAbort ch ∨ cmd = .bmDisable ch ∨ cmd = .bmStatClear ch w)) :=
  ⟨⟨{ hostUp with bms := [(15, { sag := 63, slot := 0, en := true })] }, 15, by decide +kernel⟩,
   ⟨{ hostUp with bms := [(15, { sag := 63, slot := 0, en := true, state := .run })] }, 15, by decide +kernel⟩,
   ⟨{ hostUp with bms := [(15, { sag := 63, slot := 0, en := true })] }, 15, by decide +kernel⟩,
   ⟨{ hostUp with bms := [(15, { sag := 63, slot := 0, en := true })] }, 15, 0xFFFFFFFF, by decide +kernel⟩,
   ⟨{ hostUp with bms := [(15, { sag := 63, slot := 0, en := true, mover := some 3 })] }, 15, .bmGo 15, 0, by decide +kernel⟩⟩

/-- States and operands that meet the hypotheses of each clause of Block_mover_progress. -/
theorem witness_Block_mover_progress :
    (∃ s : State, ∃ ch : Nat, (s.power.porst = false) ∧ (ch < 16) ∧ ((s.bm ch).state = .run) ∧ ((s.bm ch).halfDone = false)) ∧
    (∃ s : State, ∃ ch : Nat, (s.power.porst = false) ∧ (ch < 16) ∧ ((s.bm ch).state = .run)) ∧
    (∃ s : State, ∃ ch : Nat, ∃ m : Nat, (s.power.porst = false) ∧ (ch < 16) ∧ ((s.bm ch).state = .run) ∧
      (((s.bm ch).run.sPort || (s.bm ch).run.dPort) = true) ∧ (((s.bm ch).mover.isNone && (s.bm ch).pace) = false) ∧
      (m < (s.bm ch).run.count) ∧ ((s.bm ch).done ≤ m)) ∧
    (∃ s : State, ∃ ch : Nat, ∃ m : Nat, (s.power.porst = false) ∧ (ch < 16) ∧ ((s.bm ch).state = .run) ∧
      ((s.bm ch).run.sPort = false) ∧ (m < (s.bm ch).run.count) ∧ ((s.bm ch).done ≤ m)) ∧
    (∃ s : State, ∃ ch : Nat, ∃ m : Nat, ∃ t : State, (t = (s.bmRunTo ch (min m (s.bm ch).run.count)).2) ∧
      (s.power.porst = false) ∧ (ch < 16) ∧ ((s.bm ch).state = .aborting)) :=
  ⟨⟨{ hostUp with bms := [(15, { sag := 63, slot := 0, en := true, run := { src := 0x8000000000000000, dst := 0x8000000000000100, count := 64 }, state := .run })] },
    15, by decide +kernel⟩,
   ⟨{ hostUp with bms := [(15, { sag := 63, slot := 0, en := true, run := { src := 0x8000000000000000, dst := 0x8000000000000100, count := 64 }, state := .run })] },
    15, by decide +kernel⟩,
   ⟨{ hostUp with bms := [(15, { sag := 63, slot := 0, en := true, run := { src := 0, dst := 0x8000000000000100, count := 64, mode := 0x1000 }, state := .run })] },
    15, 63, by decide +kernel⟩,
   ⟨{ hostUp with bms := [(15, { sag := 63, slot := 0, en := true, run := { src := 0x8000000000000000, dst := 0x8000000000000100, count := 64 }, state := .run })] },
    15, 0, by decide +kernel⟩,
   ⟨{ hostUp with bms := [(15, { sag := 63, slot := 0, en := true, run := { src := 0x8000000000000000, dst := 0x8000000000000100, count := 64 }, state := .aborting })] },
    15, 1, _, rfl, by decide +kernel⟩⟩

/-- States and operands that meet the hypotheses of each clause of Words_that_hand_over. -/
theorem witness_Words_that_hand_over :
    (∃ s : State, ∃ n : Nat, ∃ c : Ccw, ∃ g : BmCfg, (g = (s.begun n c).moveOf n c) ∧ (s.power.porst = false) ∧
      (s.reaches n 0x08 c = true) ∧ ((isLs c.addr && lsResv c.addr) = false) ∧
      ((s.begun n c).descAt ((s.begun n c).schSag n) c.addr = true) ∧
      ((s.begun n c).lsPoisoned ((s.begun n c).schSag n) (lsOff c.addr) 32 = false) ∧ ((s.begun n c).bmOk g true = true) ∧
      (((s.begun n c).bm g.chan).en = true) ∧ (((s.begun n c).bm g.chan).sag = (s.begun n c).schSag n) ∧
      (((s.begun n c).bm g.chan).gres = none ∨ ((s.begun n c).bm g.chan).gres = ((s.begun n c).sch n).owner) ∧
      ((s.begun n c).bmRights ((s.begun n c).schSag n) g = true) ∧ (((s.begun n c).bm g.chan).failed = false)) ∧
    (∃ s : State, ∃ n : Nat, ∃ c : Ccw, ∃ d : List Byte, ∃ u : State, ∃ j : Job, (d = (s.begun n c).jappendDesc n c) ∧
      (u = (s.begun n c).tick1) ∧
      (j = { id := u.jrn.nextJob, who := .jappend n, sag := u.schSag n, rank := (match u.schCls n with | .g => 0 | .w => 2 | .b => 3), opc := 0x42, nsid := leAt d 0 4, folio := 0, nfol := 0, coding := w32 (leAt d 4 4), samples := leAt d 16 4, srcAddr := BitVec.ofNat 64 (leAt d 8 8), stride := leAt d 20 4, res := BitVec.ofNat 64 (leAt d 24 8), firstStime := u.stime, askedAt := u.clk, seq := u.serial }) ∧
      (s.power.porst = false) ∧ (s.reaches n 0x20 c = true) ∧ (c.count = 32) ∧ ((isLs c.addr && lsResv c.addr) = false) ∧
      ((s.begun n c).descAt ((s.begun n c).schSag n) c.addr = true) ∧
      ((s.begun n c).lsPoisoned ((s.begun n c).schSag n) (lsOff c.addr) 32 = false) ∧ (jappendOk d = true) ∧
      (fld (BitVec.ofNat 64 (leAt d 24 8)) 0 3 = 0) ∧
      ((s.begun n c).checkRange ((s.begun n c).schSag n) (BitVec.ofNat 64 (leAt d 24 8)) 8 = none) ∧
      ((s.begun n c).jappendNs ((s.begun n c).schSag n) (leAt d 0 4) = none) ∧
      ((s.begun n c).checkWrite ((s.begun n c).schSag n) (BitVec.ofNat 64 (leAt d 24 8)) 8 = none) ∧
      ((s.begun n c).health.engines.isEmpty = false)) :=
  ⟨⟨{ prog { op := 0x08, flags := 0, tgt := 0, count := 64, addr := 0x8000000000000020 } with bms := [(15, { en := true })], ls := { (prog { op := 0x08, flags := 0, tgt := 0, count := 64, addr := 0x8000000000000020 }).ls with mem := Store.setList (prog { op := 0x08, flags := 0, tgt := 0, count := 64, addr := 0x8000000000000020 }).ls.mem 0 0x20 (leBytes 8 0x8000000000000000 ++ leBytes 8 0x8000000000000100 ++ leBytes 4 0xF0000000) } },
    255, { op := 0x08, flags := 0, tgt := 0, count := 64, addr := 0x8000000000000020 }, _, rfl, by decide +kernel⟩,
   ⟨{ prog { op := 0x20, flags := 0, tgt := 0, count := 32, addr := 0x8000000000000020 } with nss := [(1023, { exist := true, type := .ring })], health := { engines := [0] }, ls := { (prog { op := 0x20, flags := 0, tgt := 0, count := 32, addr := 0x8000000000000020 }).ls with mem := Store.setList (prog { op := 0x20, flags := 0, tgt := 0, count := 32, addr := 0x8000000000000020 }).ls.mem 0 0x20 (leBytes 4 1023 ++ leBytes 4 0x00000001 ++ leBytes 8 0x8000000000000000 ++ leBytes 4 256 ++ leBytes 4 512 ++ leBytes 8 0x8000000000000100) } },
    255, { op := 0x20, flags := 0, tgt := 0, count := 32, addr := 0x8000000000000020 }, _, _, _, rfl, rfl, rfl,
    by decide +kernel⟩⟩

/-- States and operands that meet the hypotheses of each clause of Serial_characters. -/
theorem witness_Serial_characters :
    (∃ s : State, ∃ p : Nat, ∃ b : Byte, ∃ fe : Bool, ∃ pe : Bool, ∃ n : Nat, ∃ o : PortOp, ∃ r : RxByte, ∃ u : State,
      (r = { b := if bit (s.liveWord p 2) 0 then b &&& 0x7F else b, fe := fe, pe := pe, stime := s.stime - BitVec.ofNat 64 (s.charNs p) }) ∧
      (u = (s.updPort p fun x => { x with rxTotal := x.rxTotal + 1, lastRx := s.clk })) ∧ (s.power.porst = false) ∧ (p < 512) ∧
      (s.receiverOn p = true) ∧ ((s.port p).discard = false) ∧ ((s.port p).lineBusy = some n) ∧ ((s.sch n).op = some o) ∧
      (o.port = p) ∧ (o.phase = .receive)) ∧
    (∃ s : State, ∃ p : Nat, ∃ b : Byte, ∃ fe : Bool, ∃ pe : Bool, ∃ r : RxByte,
      (r = { b := if bit (s.liveWord p 2) 0 then b &&& 0x7F else b, fe := fe, pe := pe, stime := s.stime - BitVec.ofNat 64 (s.charNs p) }) ∧
      (s.power.porst = false) ∧ (p < 512) ∧ (s.receiverOn p = true) ∧ ((s.port p).lineBusy = none) ∧
      ((s.port p).discard = false) ∧ ((s.port p).rx.length < 256)) ∧
    (∃ s : State, ∃ p : Nat, ∃ b : Byte, ∃ fe : Bool, ∃ pe : Bool, ∃ r : RxByte,
      (r = { b := if bit (s.liveWord p 2) 0 then b &&& 0x7F else b, fe := fe, pe := pe, stime := s.stime - BitVec.ofNat 64 (s.charNs p) }) ∧
      (s.power.porst = false) ∧ (p < 512) ∧ (s.receiverOn p = true) ∧ ((s.port p).lineBusy = none) ∧
      ((s.port p).discard = false) ∧ (256 ≤ (s.port p).rx.length)) ∧
    (∃ s : State, ∃ p : Nat, ∃ b : RxByte, ∃ l : LateDrop,
      (l = { fifo := 0, at_ := s.clk, rx := some b, record := [], drops := (s.port p).drops, estat := (s.port p).estat, flag := s.overrun p 0 })) ∧
    (∃ s : State, ∃ p : Nat, ∃ _ : Byte, ∃ _ : Bool, ∃ _ : Bool, (s.power.porst = false) ∧ (p < 512) ∧ (s.receiverOn p = true) ∧
      ((s.port p).discard = true) ∧ (s.frameOver p = false)) ∧
    (∃ s : State, ∃ p : Nat, ∃ b : Byte, ∃ fe : Bool, ∃ pe : Bool, ∃ r : RxByte,
      (r = { b := if bit (s.liveWord p 2) 0 then b &&& 0x7F else b, fe := fe, pe := pe, stime := s.stime - BitVec.ofNat 64 (s.charNs p) }) ∧
      (s.power.porst = false) ∧ (p < 512) ∧ (s.receiverOn p = true) ∧ ((s.port p).discard = true) ∧ (s.frameOver p = true) ∧
      ((s.port p).lineBusy = none) ∧ ((s.port p).rx.length < 256)) ∧
    (∃ s : State, ∃ p : Nat, ∃ n : Nat, ∃ o : PortOp, (s.power.porst = false) ∧ (p < 512) ∧ (s.receiverOn p = true) ∧
      ((s.port p).lineBusy = some n) ∧ ((s.sch n).op = some o) ∧ (o.port = p) ∧ (o.phase = .receive ∨ o.phase = .listen)) ∧
    (∃ s : State, ∃ p : Nat, (s.power.porst = false) ∧ (p < 512) ∧ (s.receiverOn p = true) ∧ ((s.port p).lineBusy = none)) ∧
    (∃ s : State, ∃ p : Nat, ∃ b : Byte, ∃ fe : Bool, ∃ pe : Bool, ∃ cmd : Instr, (s.power.porst = false) ∧ (p < 512) ∧
      (s.receiverOn p = false) ∧ (cmd = .byteReceived p b fe pe ∨ cmd = .breakReceived p)) :=
  ⟨⟨{ up with tables := { port := [(0, 17)] }, ports := [(0, { lineBusy := some 255 })], schs := [(255, { op := some { ccw := { op := 2, flags := 0, tgt := 0, count := 4, addr := 0 }, port := 0, node := 0, phase := .receive } })] },
    0, 0x41, true, false, 255,
    { ccw := { op := 2, flags := 0, tgt := 0, count := 4, addr := 0 }, port := 0, node := 0, phase := .receive }, _, _, rfl,
    rfl, by decide +kernel⟩,
   ⟨{ up with tables := { port := [(0, 17)] } }, 0, 0xC1, false, true, _, rfl, by decide +kernel⟩,
   ⟨{ up with tables := { port := [(0, 17)] }, ports := [(0, { rx := List.replicate 256 { b := 0, fe := false, pe := false, stime := 0 } })] },
    0, 0, false, false, _, rfl, by decide +kernel⟩,
   ⟨up, 511, { b := 0, fe := false, pe := false, stime := 0 }, _, rfl⟩,
   ⟨{ up with tables := { port := [(0, 17), (1, 8680), (2, 3840)] }, ports := [(0, { discard := true })] }, 0, 0, false, false,
    by decide +kernel⟩,
   ⟨{ up with tables := { port := [(0, 17)] }, ports := [(0, { discard := true })] }, 0, 0xC1, false, true, _, rfl,
    by decide +kernel⟩,
   ⟨{ up with tables := { port := [(0, 17)] }, ports := [(0, { lineBusy := some 255 })], schs := [(255, { op := some { ccw := { op := 2, flags := 0, tgt := 0, count := 4, addr := 0 }, port := 0, node := 0, phase := .receive } })] },
    0, 255, { ccw := { op := 2, flags := 0, tgt := 0, count := 4, addr := 0 }, port := 0, node := 0, phase := .receive },
    by decide +kernel⟩,
   ⟨{ up with tables := { port := [(0, 17)] } }, 0, by decide +kernel⟩,
   ⟨up, 511, 0, false, false, .breakReceived 511, by decide +kernel⟩⟩

/-- States and operands that meet the hypotheses of each clause of CAN_frames. -/
theorem witness_CAN_frames :
    (∃ s : State, ∃ p : Nat, ∃ id : Word, ∃ fl : Byte, ∃ d : List Byte, ∃ age : Nat, ∃ i : Nat, ∃ t : DWord,
      (t = s.stime - BitVec.ofNat 64 age) ∧ (s.power.porst = false) ∧ (p < 512) ∧ (s.canOn p = true) ∧
      (canLenOk d.length = true) ∧ (((s.port p).safe && (s.port p).safeOpt == 1) = false) ∧
      ((((List.range 64).filter fun i => ((s.port p).mbs.get {} i).accepts id).find? fun i => !((s.port p).mbs.get {} i).full) = some i) ∧
      (Instr.wf (.canFrameReceived p id fl d age) = true)) ∧
    (∃ s : State, ∃ p : Nat, ∃ id : Word, ∃ fl : Byte, ∃ d : List Byte, ∃ age : Nat, (s.power.porst = false) ∧ (p < 512) ∧
      (s.canOn p = true) ∧ (((s.port p).safe && (s.port p).safeOpt == 1) = false) ∧ (canLenOk d.length = true) ∧
      (Instr.wf (.canFrameReceived p id fl d age) = true) ∧
      (((List.range 64).filter fun i => ((s.port p).mbs.get {} i).accepts id) ≠ []) ∧
      ((((List.range 64).filter fun i => ((s.port p).mbs.get {} i).accepts id).find? fun i => !((s.port p).mbs.get {} i).full) = none)) ∧
    (∃ s : State, ∃ p : Nat, ∃ age : Nat, ∃ i : Nat, (s.power.porst = false) ∧ (p < 512) ∧ (s.canOn p = true) ∧
      ((s.port p).safe = false) ∧ (bit (s.liveWord p 0) 10 = false) ∧ ((s.port p).canNext (s.clk - age) = some i) ∧
      (Instr.wf (.canFrameSent p age) = true)) ∧
    (∃ s : State, ∃ p : Nat, (s.power.porst = false) ∧ (p < 512) ∧ (portKind p = 2) ∧ (s.respNs p ≠ 0) ∧
      (((s.port p).mbs.any fun e => (e.2.kind == 2 && e.2.full && decide (e.2.queuedAt + s.respNs p ≤ s.clk))) = true)) ∧
    (∃ s : State, ∃ p : Nat, ∃ pick : CanMb → Bool, ∃ gone : List CanMb,
      (gone = (((s.port p).mbs.filter fun e => pick e.2).map (·.2)))) ∧
    (∃ s : State, ∃ p : Nat, ∃ td : Int, ∃ rd : Int, ∃ tec : Nat, ∃ rec : Nat, ∃ st : Nat,
      (tec = (max 0 (((s.port p).tec : Int) + td)).toNat) ∧ (rec = (max 0 (((s.port p).recErr : Int) + rd)).toNat) ∧
      (st = (if 255 < tec then 2 else if 127 < tec ∨ 127 < rec then 1 else 0)) ∧ (s.power.porst = false) ∧ (p < 512) ∧
      (s.canOn p = true) ∧ ((s.port p).canNext s.clk = none ∨ td ≤ 0 ∨ bit (s.liveWord p 0) 11 = false)) ∧
    (∃ s : State, ∃ u : State, ∃ p : Nat, ∃ td : Int, ∃ rd : Int, ∃ tec : Nat, ∃ rec : Nat, ∃ st : Nat, ∃ i : Nat,
      (tec = (max 0 (((s.port p).tec : Int) + td)).toNat) ∧ (rec = (max 0 (((s.port p).recErr : Int) + rd)).toNat) ∧
      (st = (if 255 < tec then 2 else if 127 < tec ∨ 127 < rec then 1 else 0)) ∧
      (u = ((s.updPort p fun x => { x with tec := min 255 tec, recErr := min 255 rec, canState := st }).addEstat p (dbit 0 (st == 2) ||| dbit 1 (st == 1) ||| dbit 2 (decide (96 ≤ tec) || decide (96 ≤ rec))))) ∧
      (s.power.porst = false) ∧ (p < 512) ∧ (s.canOn p = true) ∧ ((s.port p).canNext s.clk = some i) ∧ (0 < td) ∧
      (bit (s.liveWord p 0) 11 = true) ∧ (bit (u.liveWord p 0) 11 = true)) ∧
    (∃ s : State, ∃ p : Nat, (s.power.porst = false) ∧ (p < 512) ∧ (portKind p = 2) ∧ ((s.port p).recovering = true)) :=
  ⟨⟨{ up with tables := { port := [(1024, 17)] }, clk := 1000000, ports := [(0x40, { mbs := [(2, { kind := 1, filter := 0x12, mask := 0xFF })] })] },
    0x40, 0x7FFFF12 &&& 0x1FFFFFFF, 0, [1, 2], 0, 2, _, rfl, by decide +kernel⟩,
   ⟨{ up with tables := { port := [(1024, 17)] }, clk := 1000000, ports := [(0x40, { mbs := [(63, { kind := 1, full := true })] })] },
    0x40, 0, 0, [], 0, by decide +kernel⟩,
   ⟨{ up with tables := { port := [(1024, 17)] }, clk := 1000000, ports := [(0x40, { mbs := [(63, { kind := 2, full := true, record := leBytes 4 5 })] })] },
    0x40, 0, 63, by decide +kernel⟩,
   ⟨({ up with clk := 1000000, tables := { port := [(16 * 0x40, 0x11)], timing := [(8 * 0x40 + 3, 1000)] }, ports := [(0x40, { mbs := [(63, { kind := 2, full := true })] })] } : State),
    0x40, by decide +kernel⟩,
   ⟨{ up with ports := [(0x40, { mbs := [(3, { kind := 2, full := true })] })] }, 0x40, fun m => m.full, _, rfl⟩,
   ⟨{ up with tables := { port := [(1024, 17)] }, clk := 1000000, ports := [(0x40, { tec := 120 })] }, 0x40, 8, -1, _, _, _,
    rfl, rfl, rfl, by decide +kernel⟩,
   ⟨{ up with tables := { port := [(1024, 0x811)] }, clk := 1000000, ports := [(0x40, { mbs := [(3, { kind := 2, full := true, record := zeros 8 })] })] },
    _, 0x40, 8, 0, _, _, _, 3, rfl, rfl, rfl, rfl, by decide +kernel⟩,
   ⟨{ up with tables := { port := [(1024, 17)] }, clk := 1000000, ports := [(0x40, { tec := 255, canState := 2, recovering := true })] },
    0x40, by decide +kernel⟩⟩

/-- States and operands that meet the hypotheses of each clause of Ethernet_frames. -/
theorem witness_Ethernet_frames :
    (∃ s : State, ∃ p : Nat, ∃ f : List Byte, ∃ age : Nat, ∃ r : List Byte,
      (r = leBytes 2 f.length ++ leBytes 1 (b2n (bit (f.headD 0) 0 && !((f.take 6).all (· == 0xFF))) + 2 * b2n ((f.take 6).all (· == 0xFF))) ++ zeros 5 ++ leBytes 8 (s.stime - BitVec.ofNat 64 age).toNat ++ f) ∧
      (s.power.porst = false) ∧ (p < 512) ∧ (portKind p = 3) ∧ (bit (s.liveWord p 0) 0 = true) ∧
      (fld (s.liveWord p 0) 4 4 = 1) ∧ (((s.port p).safe && (s.port p).safeOpt == 1) = false) ∧ (14 ≤ f.length) ∧
      (f.length ≤ 1518) ∧ (s.ethAccepts p (f.take 6) = true) ∧ (Instr.wf (.ethFrameReceived p f true age) = true) ∧
      ((s.port p).ethRx.foldl (fun n r => n + r.length) 0 + r.length ≤ 16384)) ∧
    (∃ s : State, ∃ p : Nat, ∃ f : List Byte, ∃ ok : Bool, ∃ age : Nat, (s.power.porst = false) ∧ (p < 512) ∧ (portKind p = 3) ∧
      (bit (s.liveWord p 0) 0 = true) ∧ (fld (s.liveWord p 0) 4 4 = 1) ∧
      (((s.port p).safe && (s.port p).safeOpt == 1) = false) ∧ (14 ≤ f.length) ∧ (s.ethAccepts p (f.take 6) = true) ∧
      (Instr.wf (.ethFrameReceived p f ok age) = true) ∧ (ok = false ∨ 1518 < f.length)) ∧
    (∃ s : State, ∃ p : Nat, ∃ age : Nat, ∃ e : EthTx, ∃ l : List EthTx, (s.power.porst = false) ∧ (p < 512) ∧
      (portKind p = 3) ∧ (bit (s.liveWord p 0) 0 = true) ∧ ((s.port p).safe = false) ∧ ((s.port p).ethTx = e :: l) ∧
      (Instr.wf (.ethFrameSent p age) = true)) ∧
    (∃ s : State, ∃ p : Nat, (s.power.porst = false) ∧ (p < 512) ∧ (portKind p = 3) ∧ (s.respNs p ≠ 0) ∧
      ((((s.port p).ethTx.drop 1).any fun e => decide (e.queuedAt + s.respNs p ≤ s.clk)) = true)) :=
  ⟨⟨{ up with clk := 1000000, tables := { port := [(1280, 0x411)]}, ports := [(0x50, {})] }, 0x50, List.replicate 14 0xFF, 0, _,
    rfl, by decide +kernel⟩,
   ⟨{ up with clk := 1000000, tables := { port := [(1280, 0x411)]}, ports := [(0x50, {})] }, 0x50, List.replicate 14 0xFF,
    false, 0, by decide +kernel⟩,
   ⟨{ up with clk := 1000000, tables := { port := [(1280, 0x411)]}, ports := [(0x50, { ethTx := [{ record := zeros 2 ++ [1, 0, 7, 0], queuedAt := 0, sch := 0 }] })] },
    0x50, 0, { record := zeros 2 ++ [1, 0, 7, 0], queuedAt := 0, sch := 0 }, [], by decide +kernel⟩,
   ⟨({ up with clk := 1000000, tables := { port := [(16 * 0x50, 0x11)], timing := [(8 * 0x50 + 3, 1000)] }, ports := [(0x50, { ethTx := [{ record := [], queuedAt := 0, sch := 0 }, { record := [], queuedAt := 0, sch := 1 }] })] } : State),
    0x50, by decide +kernel⟩⟩

/-- States and operands that meet the hypotheses of each clause of Edges_snapshots_encoders. -/
theorem witness_Edges_snapshots_encoders :
    (∃ s : State, ∃ pin : Nat, ∃ k : EdgeKind, ∃ g : Gpio,
      (g = { s.gpio with level := setBit s.gpio.level pin (k == .rising), edgeFlags := setBit s.gpio.edgeFlags pin true }) ∧
      (s.power.porst = false) ∧ (pin < 64) ∧ (bit (s.liveWord 0x60 0) 0 = true) ∧ (s.isCs pin = false) ∧
      (s.gpio.edgeInForce.get 0 pin = edgeNum k ∨ s.gpio.edgeInForce.get 0 pin = 3)) ∧
    (∃ s : State, ∃ r : List Byte, (s.gpio.capture.length < 256) ∧
      ((s.gpio.capture.all fun x => !(leAt x 0 8 == leAt r 0 8 && decide (leAt r 8 1 < leAt x 8 1))) = true)) ∧
    (∃ s : State, ∃ lv : DWord, ∃ v : DWord, ∃ u : State, (v = s.seenLevels lv) ∧
      (u = { s with gpio := { s.gpio with level := v, snapNext := s.gpio.snapNext + s.gpio.snapInForce } }) ∧
      (s.power.porst = false) ∧ (bit (s.liveWord 0x60 0) 0 = true) ∧ (s.gpio.snapInForce ≠ 0) ∧ (s.kiln.frameRuns = true) ∧
      (s.gpio.snapNext ≤ s.clk) ∧ (s.gpio.snapNext < s.kiln.tickAt + s.kiln.frameLen)) ∧
    (∃ s : State, ∃ n : Nat, ∃ _ : Bool, ∃ _ : Bool, (s.power.porst = false) ∧ (n < 8)) ∧
    (∃ s : State, ∃ n : Nat,
      (((s.enc n).rawA = (s.enc n).a ∧ (s.enc n).rawB = (s.enc n).b) ∨ s.clk < (s.enc n).rawAt + fld (s.liveWord (0x80 + n) 1) 0 8)) ∧
    (∃ s : State, ∃ n : Nat, ∃ e : Enc, (e = s.enc n) ∧ ((e.rawA ≠ e.a ∨ e.rawB ≠ e.b)) ∧
      (e.rawAt + fld (s.liveWord (0x80 + n) 1) 0 8 ≤ s.clk) ∧ (bit (s.liveWord (0x80 + n) 0) 0 = true) ∧
      (¬ (fld (s.liveWord (0x80 + n) 0) 4 4 = 1 ∧ e.a ≠ e.rawA ∧ e.b ≠ e.rawB))) ∧
    (∃ s : State, ∃ n : Nat, ∃ e : Enc, (e = s.enc n) ∧ (e.qerr = false) ∧
      (e.rawAt + fld (s.liveWord (0x80 + n) 1) 0 8 ≤ s.clk) ∧ (bit (s.liveWord (0x80 + n) 0) 0 = true) ∧
      (fld (s.liveWord (0x80 + n) 0) 4 4 = 1) ∧ (e.a ≠ e.rawA) ∧ (e.b ≠ e.rawB)) ∧
    (∃ s : State, ∃ u : State, ∃ n : Nat, ∃ w : Word, (u = s.encSettle n) ∧ (w = u.liveWord (0x80 + n) 0) ∧
      (s.power.porst = false) ∧ (n < 8) ∧ (bit w 0 = true) ∧ (fld w 4 4 ≠ 0) ∧ ((u.enc n).capture.length < 64)) ∧
    (∃ s : State, ∃ u : State, ∃ n : Nat, ∃ w : Word, (u = s.encSettle n) ∧ (w = u.liveWord (0x80 + n) 0) ∧
      (s.power.porst = false) ∧ (n < 8) ∧ (bit w 0 = true) ∧ (fld w 4 4 ≠ 0) ∧ (64 ≤ (u.enc n).capture.length)) :=
  ⟨⟨{ up with tables := { port := [(16 * 0x60, 1)] }, gpio := { edgeInForce := [(63, 3)] } }, 63, .falling, _, rfl,
    by decide +kernel⟩,
   ⟨({ up with clk := 1000, tables := { port := [(16 * 0x60, 1)] }, kiln := { frameRuns := true, frameLen := 2000 }, gpio := { snapInForce := 1000 } } : State),
    zeros 8 ++ [63, 2] ++ zeros 6, by decide +kernel⟩,
   ⟨({ up with clk := 1000, tables := { port := [(16 * 0x60, 1)] }, kiln := { frameRuns := true, frameLen := 2000 }, gpio := { snapInForce := 1000 } } : State),
    0x8000000000000001, _, _, rfl, rfl, by decide +kernel⟩,
   ⟨{ up with tables := { port := [(2160, 17)] } }, 7, true, false, by decide +kernel⟩,
   ⟨{ up with tables := { port := [(2160, 17)] } }, 7, by decide +kernel⟩,
   ⟨{ up with tables := { port := [(2160, 17)] }, encs := [(7, { rawA := true })] }, 7, _, rfl, by decide +kernel⟩,
   ⟨{ up with tables := { port := [(2160, 0x11)] }, encs := [(7, { rawA := true, rawB := true })] }, 7, _, rfl,
    by decide +kernel⟩,
   ⟨{ up with tables := { port := [(2160, 17)] } }, _, 7, _, rfl, rfl, by decide +kernel⟩,
   ⟨{ up with tables := { port := [(2160, 17)] }, encs := [(7, { capture := List.replicate 64 [] })] }, _, 7, _, rfl, rfl,
    by decide +kernel⟩⟩

/-- States and operands that meet the hypotheses of each clause of Monitors_and_converters. -/
theorem witness_Monitors_and_converters :
    (∃ s : State, ∃ n : Nat, ∃ uv : Int, ∃ a : Bool, ∃ b : Bool, ∃ u : State, ∃ v : State, (s.evaluate n uv = (a, b, u)) ∧
      (v = (u.updWm n fun m => { m with sampleAt := some u.sliceAt, input := uv })) ∧ (s.power.porst = false) ∧ (n < 32) ∧
      (Instr.wf (.monitorSample n uv) = true) ∧ (s.dev.ready = true) ∧ (s.sampleDue n = true) ∧ (v.kiln.slice = 0)) ∧
    (∃ s : State, ∃ n : Nat, ∃ uv : Int, ∃ a : Bool, ∃ b : Bool, ∃ u : State, (s.evaluate n uv = (a, b, u)) ∧
      (s.power.porst = false) ∧ (n < 32) ∧ (Instr.wf (.monitorSample n uv) = true) ∧ (s.dev.ready = true) ∧
      (s.sampleDue n = true) ∧ (u.kiln.slice ≠ 0)) ∧
    (∃ s : State, ∃ v : State, ∃ n : Nat, ∃ uv : Int, ∃ a : Bool, ∃ b : Bool, ∃ u : State,
      (v = (s.updWm n fun m => { m with input := uv })) ∧ (v.evaluate n (v.wm n).input = (a, b, u)) ∧ (s.power.porst = false) ∧
      (n < 32) ∧ ((v.wm n).live.en = true) ∧ ((v.wm n).live.guard = true)) ∧
    (∃ s : State, ∃ u : State, ∃ i : ConverterInputs, ∃ l : List Int, (s.adcCodes i.vref i.volts = (l, u)) ∧
      (s.power.porst = false) ∧ (s.setDue = true) ∧ (i.volts.length = s.adc.live.nch) ∧ (u.adc.sets.length < u.adc.live.npf) ∧
      (s.adc.live.free = false)) ∧
    (∃ s : State, ∃ d : AdcDue, ∃ off : Nat, (off = d.cfg.base + d.slot * d.cfg.reclen) ∧ (s.power.porst = false) ∧
      (s.adc.due = some d) ∧ (d.cfgOk = true) ∧ ((s.sag d.cfg.sag).en = true) ∧ (s.lsMapped d.cfg.sag off d.cfg.reclen = true) ∧
      (s.lsLocked d.cfg.sag off d.cfg.reclen = false)) ∧
    (∃ s : State, ∃ d : AdcDue, ∃ off : Nat, (off = d.cfg.base + d.slot * d.cfg.reclen) ∧ (s.power.porst = false) ∧
      (s.adc.due = some d) ∧
      ((d.cfgOk && (s.sag d.cfg.sag).en && s.lsMapped d.cfg.sag off d.cfg.reclen && !s.lsLocked d.cfg.sag off d.cfg.reclen) = false)) :=
  ⟨⟨({ up with clk := 5000, wms := [(31, { live := { en := true, uen := true, upper := 1000 } })], kiln := { run := true, frameRuns := true, frameLen := 16000, tickAt := 1000 } } : State),
    31, 3300000, _, _, _, _, rfl, rfl, by decide +kernel⟩,
   ⟨({ up with clk := 5000, wms := [(31, { live := { en := true, uen := true, rate := 4, upper := 1000 } })], kiln := { run := true, slice := 15, frameRuns := true, frameLen := 16000, tickAt := 1000 } } : State),
    31, 0, _, _, _, rfl, by decide +kernel⟩,
   ⟨({ up with clk := 5000, wms := [(7, { live := { en := true, uen := true, upper := 1000, mode := 1 } })], kiln := { run := true, frameRuns := true, frameLen := 16000, tickAt := 1000 } } : State),
    _, 7, 3300000, _, _, _, rfl, rfl, by decide +kernel⟩,
   ⟨({ up with adc := { live := { en := true, npf := 2, chmask := 0x8001 } }, kiln := { run := true, frameRuns := true, frameLen := 16000 } } : State),
    _, { volts := [(1000000, 0), (0, 1000000)], vref := 2500000 }, _, rfl, by decide +kernel⟩,
   ⟨({ up with adc := { due := some { cfg := { en := true, sag := 5, npf := 1, chmask := 1, nrec := 1, base := 0 }, slot := 0, stime := 9, frame := 3, sets := [[0x8000]], drop := false, clip := true } }, sags := [(5, { en := true })], ls := { view := [(4096 * 5 + 0, some 7)] } } : State),
    { cfg := { en := true, sag := 5, npf := 1, chmask := 1, nrec := 1, base := 0 }, slot := 0, stime := 9, frame := 3, sets := [[0x8000]], drop := false, clip := true },
    _, rfl, by decide +kernel⟩,
   ⟨({ up with adc := { due := some { cfg := { en := true, sag := 5, npf := 1, chmask := 1, nrec := 1, base := 4096 }, slot := 0, stime := 9, frame := 3, sets := [[0x8000]], drop := false, clip := true } }, sags := [(5, { en := true })], ls := { view := [(4096 * 5 + 0, some 7)] } } : State),
    { cfg := { en := true, sag := 5, npf := 1, chmask := 1, nrec := 1, base := 4096 }, slot := 0, stime := 9, frame := 3, sets := [[0x8000]], drop := false, clip := true },
    _, rfl, by decide +kernel⟩⟩

/-- States and operands that meet the hypotheses of each clause of Journal_commands_begin. -/
theorem witness_Journal_commands_begin :
    (∃ s : State, ∃ q : QueueId, ∃ e : Entry, (s.power.porst = false) ∧ (q.wf = true) ∧ ((∀ f, q ≠ .admin f)) ∧
      ((s.entries (qref q)).find? (fun e => e.kind == .journal && e.phase == .waiting) = some e) ∧ (e.jrn.opc = 0x40) ∧
      (s.jrnCheck (s.qSag (qref q)) e.jrn = none)) ∧
    (∃ s : State, ∃ q : QueueId, ∃ e : Entry, (s.power.porst = false) ∧ (q.wf = true) ∧ ((∀ f, q ≠ .admin f)) ∧
      ((s.entries (qref q)).find? (fun e => e.kind == .journal && e.phase == .waiting) = some e) ∧ (e.jrn.opc = 0x41) ∧
      (s.jrnCheck (s.qSag (qref q)) e.jrn = none)) ∧
    (∃ s : State, ∃ q : QueueId, ∃ e : Entry, (s.power.porst = false) ∧ (q.wf = true) ∧ ((∀ f, q ≠ .admin f)) ∧
      ((s.entries (qref q)).find? (fun e => e.kind == .journal && e.phase == .waiting) = some e) ∧ (e.jrn.opc = 0x42) ∧
      (s.jrnCheck (s.qSag (qref q)) e.jrn = none)) ∧
    (∃ s : State, ∃ q : QueueId, ∃ e : Entry, (s.power.porst = false) ∧ (q.wf = true) ∧ ((∀ f, q ≠ .admin f)) ∧
      ((s.entries (qref q)).find? (fun e => e.kind == .journal && e.phase == .waiting) = some e) ∧ (e.jrn.opc = 0x46) ∧
      (s.jrnCheck (s.qSag (qref q)) e.jrn = none)) ∧
    (∃ s : State, ∃ q : QueueId, ∃ e : Entry, (s.power.porst = false) ∧ (q.wf = true) ∧ ((∀ f, q ≠ .admin f)) ∧
      ((s.entries (qref q)).find? (fun e => e.kind == .journal && e.phase == .waiting) = some e) ∧ (e.jrn.opc = 0x47) ∧
      (s.jrnCheck (s.qSag (qref q)) e.jrn = none)) ∧
    (∃ s : State, ∃ q : QueueId, ∃ e : Entry, (s.power.porst = false) ∧ (q.wf = true) ∧ ((∀ f, q ≠ .admin f)) ∧
      ((s.entries (qref q)).find? (fun e => e.kind == .journal && e.phase == .waiting) = some e) ∧ (e.jrn.opc = 0x43) ∧
      (s.jrnCheck (s.qSag (qref q)) e.jrn = none)) ∧
    (∃ s : State, ∃ q : QueueId, ∃ e : Entry, (s.power.porst = false) ∧ (q.wf = true) ∧ ((∀ f, q ≠ .admin f)) ∧
      ((s.entries (qref q)).find? (fun e => e.kind == .journal && e.phase == .waiting) = some e) ∧ (e.jrn.opc = 0x44) ∧
      (s.jrnCheck (s.qSag (qref q)) e.jrn = none)) ∧
    (∃ s : State, ∃ m : Nat, ∃ _ : Nat, ∃ _ : Nat, ((s.jrn.jobs.all fun j => !(j.took && j.nsid == m)) = true)) ∧
    (∃ s : State, ∃ q : QueueId, ∃ e : Entry, (s.power.porst = false) ∧ (q.wf = true) ∧ ((∀ f, q ≠ .admin f)) ∧
      ((s.entries (qref q)).find? (fun e => e.kind == .journal && e.phase == .waiting) = some e) ∧ (e.jrn.opc = 0x45) ∧
      (s.jrnCheck (s.qSag (qref q)) e.jrn = none) ∧ (e.jrn.folio.toNat = (s.ns e.jrn.nsid).seq) ∧
      (e.jrn.chain = s.headOf e.jrn.nsid)) ∧
    (∃ s : State, ∃ q : QueueId, ∃ e : Entry, (s.power.porst = false) ∧ (q.wf = true) ∧ ((∀ f, q ≠ .admin f)) ∧
      ((s.entries (qref q)).find? (fun e => e.kind == .journal && e.phase == .waiting) = some e) ∧ (e.jrn.opc = 0x45) ∧
      (s.jrnCheck (s.qSag (qref q)) e.jrn = none) ∧
      (¬ (e.jrn.folio.toNat = (s.ns e.jrn.nsid).seq ∧ e.jrn.chain = s.headOf e.jrn.nsid))) ∧
    (∃ s : State, ∃ q : QueueId, ∃ e : Entry, ∃ cmd : Instr, ∃ opc : Nat, ∃ r : Status, (s.power.porst = false) ∧
      (q.wf = true) ∧ ((∀ f, q ≠ .admin f)) ∧
      ((s.entries (qref q)).find? (fun e => e.kind == .journal && e.phase == .waiting) = some e) ∧ (e.jrn.opc = opc) ∧
      (s.jrnCheck (s.qSag (qref q)) e.jrn = some r) ∧
      ((cmd, opc) ∈ [(Instr.jrnRead q, 0x40), (.jrnWrite q, 0x41), (.append q, 0x42), (.jrnFlush q, 0x43), (.zeroRange q, 0x44), (.seal q, 0x45), (.info q, 0x46), (.verify q, 0x47)])) :=
  ⟨⟨{ up with sags := [(63, { en := true })], nss := [(1023, { owner := 63, exist := true, type := .ring, nfol := 512 })], sqs := [(255, { state := .active, fn := 63, entries := [{ eid := 9, slot := 0, cid := 0, kind := .journal, jrn := { opc := 0x40, nsid := 1023, nfol := 256, folio := 256 } }] })] },
    .sq 255,
    { eid := 9, slot := 0, cid := 0, kind := .journal, jrn := { opc := 0x40, nsid := 1023, nfol := 256, folio := 256 } },
    (by decide +kernel), (by decide +kernel), (fun _ h => by cases h), (by decide +kernel), (by decide +kernel),
    (by decide +kernel)⟩,
   ⟨{ up with sags := [(63, { en := true })], nss := [(1023, { owner := 63, exist := true, type := .linear, nfol := 512 })], sqs := [(255, { state := .active, fn := 63, entries := [{ eid := 9, slot := 0, cid := 0, kind := .journal, jrn := { opc := 0x41, nsid := 1023, nfol := 1, folio := 511 } }] })] },
    .sq 255, { eid := 9, slot := 0, cid := 0, kind := .journal, jrn := { opc := 0x41, nsid := 1023, nfol := 1, folio := 511 } },
    (by decide +kernel), (by decide +kernel), (fun _ h => by cases h), (by decide +kernel), (by decide +kernel),
    (by decide +kernel)⟩,
   ⟨{ up with sags := [(63, { en := true })], nss := [(1023, { owner := 63, exist := true, type := .sealed, nfol := 512 })], sqs := [(255, { state := .active, fn := 63, entries := [{ eid := 9, slot := 0, cid := 0, kind := .journal, jrn := { opc := 0x42, nsid := 1023, nfol := 256 } }] })] },
    .sq 255, { eid := 9, slot := 0, cid := 0, kind := .journal, jrn := { opc := 0x42, nsid := 1023, nfol := 256 } },
    (by decide +kernel), (by decide +kernel), (fun _ h => by cases h), (by decide +kernel), (by decide +kernel),
    (by decide +kernel)⟩,
   ⟨{ up with sags := [(63, { en := true })], nss := [(1023, { owner := 63, exist := true, type := .linear, nfol := 512 })], sqs := [(255, { state := .active, fn := 63, entries := [{ eid := 9, slot := 0, cid := 0, kind := .journal, jrn := { opc := 0x46, nsid := 1023 } }] })] },
    .sq 255, { eid := 9, slot := 0, cid := 0, kind := .journal, jrn := { opc := 0x46, nsid := 1023 } }, (by decide +kernel),
    (by decide +kernel), (fun _ h => by cases h), (by decide +kernel), (by decide +kernel), (by decide +kernel)⟩,
   ⟨{ up with sags := [(63, { en := true })], nss := [(1023, { owner := 63, exist := true, type := .ring, nfol := 512 })], sqs := [(255, { state := .active, fn := 63, entries := [{ eid := 9, slot := 0, cid := 0, kind := .journal, jrn := { opc := 0x47, nsid := 1023, nfol := 1 } }] })] },
    .sq 255, { eid := 9, slot := 0, cid := 0, kind := .journal, jrn := { opc := 0x47, nsid := 1023, nfol := 1 } },
    (by decide +kernel), (by decide +kernel), (fun _ h => by cases h), (by decide +kernel), (by decide +kernel),
    (by decide +kernel)⟩,
   ⟨{ up with sags := [(63, { en := true })], nss := [(1023, { owner := 63, exist := true, type := .ring, nfol := 512 })], sqs := [(255, { state := .active, fn := 63, entries := [{ eid := 9, slot := 0, cid := 0, kind := .journal, jrn := { opc := 0x43, nsid := 1023 } }] })] },
    .sq 255, { eid := 9, slot := 0, cid := 0, kind := .journal, jrn := { opc := 0x43, nsid := 1023 } }, (by decide +kernel),
    (by decide +kernel), (fun _ h => by cases h), (by decide +kernel), (by decide +kernel), (by decide +kernel)⟩,
   ⟨{ up with sags := [(63, { en := true })], nss := [(1023, { owner := 63, exist := true, type := .ring, nfol := 512 })], sqs := [(255, { state := .active, fn := 63, entries := [{ eid := 9, slot := 0, cid := 0, kind := .journal, jrn := { opc := 0x44, nsid := 1023, nfol := 512 } }] })] },
    .sq 255, { eid := 9, slot := 0, cid := 0, kind := .journal, jrn := { opc := 0x44, nsid := 1023, nfol := 512 } },
    (by decide +kernel), (by decide +kernel), (fun _ h => by cases h), (by decide +kernel), (by decide +kernel),
    (by decide +kernel)⟩,
   ⟨{ up with sags := [(63, { en := true })], nss := [(1023, { owner := 63, exist := true, type := .sealed, nfol := 512 })], sqs := [(255, { state := .active, fn := 63, entries := [{ eid := 9, slot := 0, cid := 0, kind := .journal, jrn := { opc := 0x41, nsid := 1023, nfol := 1 } }] })] },
    1023, 0, 1, by decide +kernel⟩,
   ⟨{ up with sags := [(63, { en := true })], nss := [(1023, { owner := 63, exist := true, type := .sealed, nfol := 512, seq := 1, head := [7] })], sqs := [(255, { state := .active, fn := 63, entries := [{ eid := 9, slot := 0, cid := 0, kind := .journal, jrn := { opc := 0x45, nsid := 1023, folio := 1, chain := [7] } }] })] },
    .sq 255,
    { eid := 9, slot := 0, cid := 0, kind := .journal, jrn := { opc := 0x45, nsid := 1023, folio := 1, chain := [7] } },
    (by decide +kernel), (by decide +kernel), (fun _ h => by cases h), (by decide +kernel), (by decide +kernel),
    (by decide +kernel), (by decide +kernel), (by decide +kernel)⟩,
   ⟨{ up with sags := [(63, { en := true })], nss := [(1023, { owner := 63, exist := true, type := .sealed, nfol := 512, seq := 1, head := [7] })], sqs := [(255, { state := .active, fn := 63, entries := [{ eid := 9, slot := 0, cid := 0, kind := .journal, jrn := { opc := 0x45, nsid := 1023, folio := 2, chain := [7] } }] })] },
    .sq 255,
    { eid := 9, slot := 0, cid := 0, kind := .journal, jrn := { opc := 0x45, nsid := 1023, folio := 2, chain := [7] } },
    (by decide +kernel), (by decide +kernel), (fun _ h => by cases h), (by decide +kernel), (by decide +kernel),
    (by decide +kernel), (by decide +kernel)⟩,
   ⟨{ up with sags := [(63, { en := true })], nss := [(1023, { owner := 63, exist := true, type := .sealed, nfol := 512 })], sqs := [(255, { state := .active, fn := 63, entries := [{ eid := 9, slot := 0, cid := 0, kind := .journal, jrn := { opc := 0x41, nsid := 1023, nfol := 1 } }] })] },
    .sq 255, { eid := 9, slot := 0, cid := 0, kind := .journal, jrn := { opc := 0x41, nsid := 1023, nfol := 1 } },
    .jrnWrite (.sq 255), 0x41, .jrnSealed, (by decide +kernel), (by decide +kernel), (fun _ h => by cases h),
    (by decide +kernel), (by decide +kernel), (by decide +kernel), (by decide +kernel)⟩⟩

/-- States and operands that meet the hypotheses of each clause of Folio_operations. -/
theorem witness_Folio_operations :
    (∃ s : State, ∃ g : Nat, ∃ j : Job, ∃ b : Block, ∃ k : Job,
      (b = codeBlock j.coding j.samples j.firstStime j.rejected j.data) ∧
      (k = { j with engine := none, data := [], tag := b.header, rawFall := b.raw, total := ceilDiv b.payload.length 4096, news := cutFolios (ceilDiv b.payload.length 4096) b.header b.payload }) ∧
      (s.power.porst = false) ∧ (g < 5) ∧ (s.jrn.jobs.find? (fun j => j.engine == some g) = some j) ∧ (j.need ≤ j.data.length) ∧
      ((s.ns j.nsid).unfit (ceilDiv b.payload.length 4096) = none)) ∧
    (∃ s : State, ∃ g : Nat, ∃ j : Job, ∃ st : Status, (s.power.porst = false) ∧ (g < 5) ∧
      (s.jrn.jobs.find? (fun j => j.engine == some g) = some j) ∧ (j.need ≤ j.data.length) ∧
      ((s.ns j.nsid).unfit (ceilDiv (codeBlock j.coding j.samples j.firstStime j.rejected j.data).payload.length 4096) = some st)) ∧
    (∃ s : State, ∃ u : State, ∃ v : State, ∃ sec : Nat, ∃ bits : Nat, ∃ unc : Nat, ∃ id : Nat, ∃ f : Nat × Nat × Nat,
      ∃ i : Nat, ∃ j : Job, ∃ j2 : Job, ∃ r : Option Status, ∃ st : Status, (f = j.found.getD (sec, bits, unc)) ∧
      (u = State.countSectors (s.updJrn fun x => { x with cur := none, lastOp := s.clk }) j.nsid f.1 f.2.2) ∧
      (i = (if j.opc = 0x42 then (u.ns j.nsid).place (j.first + j.pos) else j.folio + j.pos)) ∧
      (u.folioEffect { j with remaps := if 4 < f.2.1 then j.remaps ++ [i] else j.remaps } (f.2.2 != 0) = (r, j2, v)) ∧
      (s.power.porst = false) ∧ (s.jrn.cur = some id) ∧ (s.job? id = some j) ∧ (s.jrn.opEnd ≤ s.clk) ∧ (r = some st)) ∧
    (∃ s : State, ∃ u : State, ∃ v : State, ∃ sec : Nat, ∃ bits : Nat, ∃ unc : Nat, ∃ id : Nat, ∃ f : Nat × Nat × Nat,
      ∃ i : Nat, ∃ j : Job, ∃ j2 : Job, ∃ r : Option Status, (f = j.found.getD (sec, bits, unc)) ∧
      (u = State.countSectors (s.updJrn fun x => { x with cur := none, lastOp := s.clk }) j.nsid f.1 f.2.2) ∧
      (i = (if j.opc = 0x42 then (u.ns j.nsid).place (j.first + j.pos) else j.folio + j.pos)) ∧
      (u.folioEffect { j with remaps := if 4 < f.2.1 then j.remaps ++ [i] else j.remaps } (f.2.2 != 0) = (r, j2, v)) ∧
      (s.power.porst = false) ∧ (s.jrn.cur = some id) ∧ (s.job? id = some j) ∧ (s.jrn.opEnd ≤ s.clk) ∧ (r = none) ∧
      (j2.pos + 1 < j2.total ∨ j2.who = .zero j2.nsid)) ∧
    (∃ s : State, ∃ u : State, ∃ v : State, ∃ sec : Nat, ∃ bits : Nat, ∃ unc : Nat, ∃ id : Nat, ∃ f : Nat × Nat × Nat,
      ∃ i : Nat, ∃ j : Job, ∃ j2 : Job, ∃ r : Option Status, (f = j.found.getD (sec, bits, unc)) ∧
      (u = State.countSectors (s.updJrn fun x => { x with cur := none, lastOp := s.clk }) j.nsid f.1 f.2.2) ∧
      (i = (if j.opc = 0x42 then (u.ns j.nsid).place (j.first + j.pos) else j.folio + j.pos)) ∧
      (u.folioEffect { j with remaps := if 4 < f.2.1 then j.remaps ++ [i] else j.remaps } (f.2.2 != 0) = (r, j2, v)) ∧
      (s.power.porst = false) ∧ (s.jrn.cur = some id) ∧ (s.job? id = some j) ∧ (s.jrn.opEnd ≤ s.clk) ∧ (r = none) ∧
      (j2.total ≤ j2.pos + 1) ∧ (j2.who ≠ .zero j2.nsid)) ∧
    (∃ s : State, ∃ n : Nat, ∃ f : Nat, ∃ _ : Nat, ∃ _ : Nat, ∃ _ : Nat, (s.power.porst = false) ∧ (n < 1024) ∧ (f < 2 ^ 20) ∧
      ((s.folioAt n f).isSome = true) ∧ ((s.jrn.jobs.all fun j => j.who != .scrub) = true)) :=
  ⟨⟨({ up with nss := [(1023, { exist := true, type := .ring, nfol := 512 })], jrn := { jobs := [{ id := 3, who := .jappend 255, sag := 0, rank := 2, opc := 0x42, nsid := 1023, folio := 0, nfol := 0, coding := 1, samples := 256, engine := some 4, rejected := true, data := zeros 2 }] } } : State),
    4,
    { id := 3, who := .jappend 255, sag := 0, rank := 2, opc := 0x42, nsid := 1023, folio := 0, nfol := 0, coding := 1, samples := 256, engine := some 4, rejected := true, data := zeros 2 },
    _, _, rfl, rfl, by decide +kernel⟩,
   ⟨({ up with nss := [(1023, { exist := true, type := .ring, nfol := 512, closed := true })], jrn := { jobs := [{ id := 3, who := .jappend 255, sag := 0, rank := 2, opc := 0x42, nsid := 1023, folio := 0, nfol := 0, coding := 1, samples := 256, engine := some 4, rejected := true, data := zeros 2 }] } } : State),
    4,
    { id := 3, who := .jappend 255, sag := 0, rank := 2, opc := 0x42, nsid := 1023, folio := 0, nfol := 0, coding := 1, samples := 256, engine := some 4, rejected := true, data := zeros 2 },
    .jrnFull, by decide +kernel⟩,
   ⟨({ up with clk := 200, jrn := { cur := some 3, opEnd := 200, jobs := [{ id := 3, who := .jappend 255, sag := 0, rank := 2, opc := 0x40, nsid := 1023, folio := 0, nfol := 2, total := 2 }] } } : State),
    _, _, 0, 0, 1, 3, _, _,
    { id := 3, who := .jappend 255, sag := 0, rank := 2, opc := 0x40, nsid := 1023, folio := 0, nfol := 2, total := 2 }, _, _,
    .dataIntegrity, rfl, rfl, rfl, rfl, by decide +kernel⟩,
   ⟨({ up with clk := 200, jrn := { cur := some 3, opEnd := 200, jobs := [{ id := 3, who := .jappend 255, sag := 0, rank := 2, opc := 0x41, nsid := 1023, folio := 0, nfol := 2, total := 2 }] } } : State),
    _, _, 0, 0, 0, 3, _, _,
    { id := 3, who := .jappend 255, sag := 0, rank := 2, opc := 0x41, nsid := 1023, folio := 0, nfol := 2, total := 2 }, _, _,
    rfl, rfl, rfl, rfl, by decide +kernel⟩,
   ⟨({ up with clk := 200, jrn := { cur := some 3, opEnd := 200, jobs := [{ id := 3, who := .jappend 255, sag := 0, rank := 2, opc := 0x41, nsid := 1023, folio := 0, nfol := 2, total := 1 }] } } : State),
    _, _, 0, 0, 0, 3, _, _,
    { id := 3, who := .jappend 255, sag := 0, rank := 2, opc := 0x41, nsid := 1023, folio := 0, nfol := 2, total := 1 }, _, _,
    rfl, rfl, rfl, rfl, by decide +kernel⟩,
   ⟨{ up with jrn := { folios := [(folioKey 1023 5, some { data := [], tag := [], chain := [] })] } }, 1023, 5, 2, 5, 0,
    by decide +kernel⟩⟩

/-- States and operands that meet the hypotheses of each clause of Journal_power_states. -/
theorem witness_Journal_power_states :
    (∃ s : State, (s.power.porst = false) ∧ (s.jrn.ps = 0) ∧ (s.jrn.idle1 ≠ 0) ∧ (s.jrn.maxps ≠ 0) ∧ (s.jrnIdle = true) ∧
      (s.jrn.lastOp + 1000 * s.jrn.idle1 ≤ s.clk)) ∧
    (∃ s : State, (s.power.porst = false) ∧ (s.jrn.ps ≠ 2) ∧ (s.jrn.idle2 ≠ 0) ∧ (s.jrn.maxps ≥ 2) ∧ (s.jrnCap = false) ∧
      (s.jrnIdle = true) ∧ (s.jrn.lastOp + 1000 * s.jrn.idle2 ≤ s.clk)) ∧
    (∃ s : State, ∃ t : Nat, (s.power.porst = false) ∧ (s.jrn.exitAt = some t) ∧ (t ≤ s.clk) ∧
      ((s.jrnAwake.fns.all fun e => e.2.opc != some 0x83) = true)) :=
  ⟨⟨{ up with clk := 1000000 }, by decide +kernel⟩,
   ⟨{ up with clk := 2000, jrn := { ps := 1, idle2 := 2 } }, by decide +kernel⟩,
   ⟨{ up with clk := 120000, jrn := { ps := 2, exitAt := some 120000 } }, 120000, by decide +kernel⟩⟩

/-- States and operands that meet the hypotheses of each clause of Zeroing_ends. -/
theorem witness_Zeroing_ends :
    (∃ s : State, ∃ p : Nat, ∃ g : Nat, (s.power.porst = false) ∧ (Instr.wf (.zeroingDone (.page p)) = true) ∧
      (s.pageState p = .zeroing g)) ∧
    (∃ s : State, ∃ p : Nat, (s.power.porst = false) ∧ (Instr.wf (.zeroingDone (.fifo p)) = true)) ∧
    (∃ s : State, ∃ n : Nat, (s.power.porst = false) ∧ (Instr.wf (.zeroingDone (.prefetch n)) = true) ∧
      ((s.sq n).zeroing = true)) ∧
    (∃ s : State, ∃ ch : Nat, (s.power.porst = false) ∧ (Instr.wf (.zeroingDone (.bmSet ch)) = true) ∧
      ((s.bm ch).zeroing = true)) ∧
    (∃ s : State, ∃ n : Nat, (s.power.porst = false) ∧ (Instr.wf (.zeroingDone (.ns n)) = true) ∧ ((s.ns n).zeroing = true)) :=
  ⟨⟨{ up with ls := { pages := [(4095, .zeroing 63)] } }, 4095, 63, by decide +kernel⟩,
   ⟨up, 0x47, by decide +kernel⟩,
   ⟨{ up with sqs := [(255, { zeroing := true })] }, 255, by decide +kernel⟩,
   ⟨{ up with bms := [(15, { zeroing := true })] }, 15, by decide +kernel⟩,
   ⟨{ up with nss := [(1023, { zeroing := true })] }, 1023, by decide +kernel⟩⟩

/-- States and operands that meet the hypotheses of each clause of Link_sides. -/
theorem witness_Link_sides :
    (∃ s : State, ∃ t : Nat, (s.power.porst = false) ∧ (s.lnk.testAt = some t) ∧ (s.lnk.en = true) ∧ (t + 100000 ≤ s.clk)) ∧
    (∃ s : State, ∃ t : Nat, ∃ u : State,
      (u = (s.updLnk fun l => { l with testAt := none, retryAt := some (t + 100000000), faultRaised := true })) ∧
      (s.power.porst = false) ∧ (s.lnk.testAt = some t) ∧ (s.lnk.en = true) ∧ (t + 100000 ≤ s.clk)) ∧
    (∃ s : State, ∃ t : Nat, (s.power.porst = false) ∧ (s.lnk.retryAt = some t) ∧ (s.lnk.en = true) ∧ (t ≤ s.clk)) ∧
    (∃ s : State, ∃ d : Side, ∃ u : State,
      (u = (s.updSide d fun x => { x with training := true, trainAt := s.clk, exchanges := 0, sum := 0 })) ∧
      (s.power.porst = false) ∧ (s.inserted = true) ∧ ((s.lnk.side d).up = false) ∧ ((s.lnk.side d).training = false) ∧
      (s.lnk.insertAt + 5000000 ≤ s.clk)) ∧
    (∃ s : State, ∃ d : Side, (s.power.porst = false) ∧ ((s.lnk.side d).training = true)) ∧
    (∃ s : State, ∃ d : Side, ∃ a : Nat, ∃ b : Nat, ∃ c : Nat, ∃ e : Nat, (s.power.porst = false) ∧
      (Instr.wf (.train d a b c e) = true) ∧ ((s.lnk.side d).up = false) ∧ ((s.lnk.side d).training = true) ∧
      ((s.lnk.side d).exchanges < 64)) ∧
    (∃ s : State, ∃ d : Side, ∃ u : State, ∃ v : State,
      (u = (s.updSide d fun x => { x with up := true, training := false, delay := x.mean, exchanges := 0, sum := 0, upAt := s.clk, upTicks := 0, downTicks := 0, badCells := 0 })) ∧
      (v = (if s.lnk.east.up || s.lnk.west.up then u else u.updLnk fun l => { l with runSince := s.clk })) ∧
      (s.power.porst = false) ∧ ((s.lnk.side d).training = true) ∧ (64 ≤ (s.lnk.side d).exchanges)) ∧
    (∃ s : State, ∃ d : Side, (s.power.porst = false) ∧ ((s.lnk.side d).up = true)) ∧
    (∃ s : State, ∃ d : Side, ∃ o : Nat, ∃ u : State,
      (u = ((s.updSide d fun x => { x with wrapped := true }).updLnk fun l => { l with state := 4, wrapped := true, wrapWest := if d == .west then l.node else o, wrapEast := if d == .east then l.node else o })) ∧
      (s.power.porst = false) ∧ (Instr.wf (.linkWrap d o) = true) ∧ (s.inserted = true) ∧ ((s.lnk.side d).up = false) ∧
      (2 ≤ (s.lnk.side d).downTicks) ∧ ((s.lnk.side (otherSide d)).up = true) ∧
      ((s.lnk.wrapped && (s.lnk.side d).wrapped) = false)) ∧
    (∃ s : State, ∃ d : Side, ∃ u : State,
      (u = ((s.updSide d fun x => { x with wrapped := false }).updLnk fun l => { l with state := 3, wrapped := false, wrapWest := 0xFF, wrapEast := 0xFF })) ∧
      (s.power.porst = false) ∧ ((s.lnk.side d).wrapped = true) ∧ ((s.lnk.side d).up = true) ∧
      ((s.lnk.side d).upAt + 5000000 ≤ s.clk) ∧ ((s.lnk.side d).crcAt = 0 ∨ (s.lnk.side d).crcAt + 5000000 ≤ s.clk) ∧
      (2 ≤ (s.lnk.side d).upTicks)) :=
  ⟨⟨{ up with clk := 100000, lnk := { en := true, testAt := some 0 } }, 0, by decide +kernel⟩,
   ⟨{ up with clk := 100000, lnk := { en := true, testAt := some 0 } }, 0, _, rfl, by decide +kernel⟩,
   ⟨{ up with clk := 100000, lnk := { en := true, retryAt := some 100000 } }, 100000, by decide +kernel⟩,
   ⟨({ up with lnk := { en := true, state := 1 }, pins := { up.pins with lkInsert := true }, clk := 10000000 } : State), .west,
    _, rfl, by decide +kernel⟩,
   ⟨({ up with lnk := { en := true, east := { training := true } }, pins := { up.pins with lkInsert := true }, clk := 10000000 } : State),
    .east, by decide +kernel⟩,
   ⟨({ up with lnk := { en := true, east := { training := true, exchanges := 63 } }, pins := { up.pins with lkInsert := true }, clk := 10000000 } : State),
    .east, 0, 1, 2, 3, by decide +kernel⟩,
   ⟨({ up with lnk := { en := true, east := { training := true, exchanges := 64, sum := 1000 } }, pins := { up.pins with lkInsert := true }, clk := 10000000 } : State),
    .east, _, _, rfl, rfl, by decide +kernel⟩,
   ⟨({ up with lnk := { en := true, west := { up := true } }, pins := { up.pins with lkInsert := true }, clk := 10000000 } : State),
    .west, by decide +kernel⟩,
   ⟨({ up with lnk := { en := true, east := { downTicks := 2 }, west := { up := true } }, pins := { up.pins with lkInsert := true }, clk := 10000000 } : State),
    .east, 5, _, rfl, by decide +kernel⟩,
   ⟨({ up with lnk := { en := true, east := { up := true, wrapped := true, upTicks := 2 } }, pins := { up.pins with lkInsert := true }, clk := 10000000 } : State),
    .east, _, rfl, by decide +kernel⟩⟩

/-- States and operands that meet the hypotheses of each clause of Link_cells. -/
theorem witness_Link_cells :
    (∃ s : State, ∃ ln : Lane, ∃ g : Nat, ∃ k : Nat, ∃ i : SlotIn, ∃ f : Side, ∃ u : State, ∃ fwd : Option Cell, ∃ v : State,
      ∃ out : Option Cell, ∃ w : State, (f = (match ln with | .a => Side.west | .b => Side.east)) ∧
      (u = (if s.lnk.segment = some g then s else s.updLnk fun l => { l with segment := some g, peers := l.peers.map fun e => (e.1, { e.2 with segCells := 0 }) })) ∧
      ((if (u.lnk.side f).up then u.stripCell f i else (none, u)) = (fwd, v)) ∧
      ((match fwd with | some c => (some c, v) | none => v.fillSlot ln g k) = (out, w)) ∧ (s.power.porst = false) ∧
      (Instr.wf (.slotStart ln g k i) = true) ∧ (s.inserted = true) ∧ (k < s.nSeg) ∧ (g < 16) ∧
      ((w.lnk.side (otherSide f)).up = true)) ∧
    (∃ s : State, ∃ ln : Lane, ∃ p : List Byte, (s.power.porst = false) ∧ (Instr.wf (.sync ln p) = true) ∧ (s.inserted = true) ∧
      ((s.lnk.side (match ln with | .a => .west | .b => .east)).up = true) ∧ (p.length = 64) ∧ (leAt p 12 1 = s.lnk.node) ∧
      (s.lnk.master = true) ∧ (leAt p 13 1 % 2 = 0)) ∧
    (∃ s : State, ∃ ln : Lane, ∃ p : List Byte, ∃ m : Nat, ∃ f : Side, ∃ a1 : State, ∃ a2 : State, ∃ acc : Nat,
      (f = (match ln with | .a => Side.west | .b => Side.east)) ∧ (m = leAt p 12 1) ∧
      (acc = leAt p 16 4 + (s.lnk.side f).delay) ∧
      (a1 = ((s.forwardSync ln (s.lnk.side f).delay p).updLnk fun l => { l with master := false, candidate := false, electing := false, missedTicks := 0, lastSync := some s.clk })) ∧
      (a2 = (a1.setMaster m).setPres (BitVec.ofNat 128 (leAt p 40 16))) ∧ (s.power.porst = false) ∧
      (Instr.wf (.sync ln p) = true) ∧ (s.inserted = true) ∧ ((s.lnk.side f).up = true) ∧ (p.length = 64) ∧ (m ≠ s.lnk.node) ∧
      (leAt p 13 1 = 0) ∧ ((s.lnk.master = false ∨ m < s.lnk.node)) ∧ (s.lnk.lastSync.isSome = true) ∧
      (s.lnk.masterValid = true) ∧ (s.lnk.masterNode = m) ∧ ((∀ t, s.lnk.lastSync = some t → s.periodNs ≤ 2 * (s.clk - t))) ∧
      (s.lnk.wrapped = false) ∧ (leAt p 14 1 = s.lnk.wrapWest) ∧ (leAt p 15 1 = s.lnk.wrapEast) ∧
      (leAt p 20 4 = s.lnk.generation)) ∧
    (∃ s : State, ∃ n : Nat, (s.power.porst = false) ∧ (Instr.wf (.election n) = true) ∧ (s.inserted = true)) ∧
    (∃ s : State, (s.power.porst = false) ∧ (s.inserted = true) ∧ (s.lnk.mcap = true) ∧ (s.kiln.src = 2) ∧ (s.kiln.run = true) ∧
      (s.kiln.frameRuns = false) ∧ ((s.lnk.east.up || s.lnk.west.up) = true) ∧ (s.lnk.runSince + 2 * s.periodNs ≤ s.clk) ∧
      ((match s.lnk.lastSync with | some t => decide (t + 2 * s.periodNs ≤ s.clk) | none => true) = true)) ∧
    (∃ s : State, ∃ c : Cell, ∃ t : DWord, ∃ off : Nat, ∃ u : State, ∃ v : State,
      (off = (s.peer c.src).subOff + 16 + 64 * c.index) ∧ (u = s.lsWrite (s.peer c.src).subSag off (padTo 64 c.payload)) ∧
      (v = (u.updPeer c.src fun p => { p with rxGot := p.rxGot + 1, rxSeen := c.index :: p.rxSeen, rxStime := some t })) ∧
      (s.power.porst = false) ∧ (Instr.wf (.image c t) = true) ∧ (s.inserted = true) ∧ ((s.peer c.src).sub = true) ∧
      ((s.peer c.src).rxDone = false) ∧ ((s.peer c.src).rxSeen.contains c.index = false) ∧
      (s.lsMapped (s.peer c.src).subSag (s.peer c.src).subOff (16 + 64 * c.index + 64) = true) ∧
      (s.lsLocked (s.peer c.src).subSag (s.peer c.src).subOff (16 + 64 * c.index + 64) = false)) :=
  ⟨⟨({ up with lnk := { en := true, node := 3, east := { up := true }, west := { up := true } }, pins := { up.pins with lkInsert := true }, clk := 10000000, kiln := { frameRuns := true, frameLen := 2000000, tickAt := 9000000 } } : State),
    .a, 15, 1, .cell { type := 3, lane := .a, src := 5, dst := 9, payload := [] }, _, _, _, _, _, _, rfl, rfl, rfl, rfl,
    by decide +kernel⟩,
   ⟨({ up with lnk := { en := true, node := 0, master := true, west := { up := true } }, pins := { up.pins with lkInsert := true }, clk := 10000000 } : State),
    .a, zeros 64, by decide +kernel⟩,
   ⟨({ up with lnk := { en := true, node := 3, west := { up := true, delay := 20 }, lastSync := some 0, masterValid := true, masterNode := 2, wrapWest := 0xFF, wrapEast := 0xFF }, pins := { up.pins with lkInsert := true }, clk := 10000000, kiln := { src := 2, run := true, frameRuns := true, frameLen := 1000000, tickAt := 9000000, per := 1000 } } : State),
    .a, (leBytes 8 77 ++ leBytes 4 1 ++ [2, 0, 0xFF, 0xFF] ++ leBytes 4 500 ++ zeros 44), _, _, _, _, _, rfl, rfl, rfl, rfl,
    rfl, (by decide +kernel), (by decide +kernel), (by decide +kernel), (by decide +kernel), (by decide +kernel),
    (by decide +kernel), (by decide +kernel), (by decide +kernel), (by decide +kernel), (by decide +kernel),
    (by decide +kernel), (fun t h => by cases h; decide +kernel), (by decide +kernel), (by decide +kernel), (by decide +kernel),
    (by decide +kernel)⟩,
   ⟨({ up with lnk := { en := true, candidate := true, node := 127 }, pins := { up.pins with lkInsert := true }, clk := 10000000 } : State),
    126, by decide +kernel⟩,
   ⟨({ up with lnk := { en := true, mcap := true, east := { up := true } }, pins := { up.pins with lkInsert := true }, clk := 10000000, kiln := { src := 2, run := true } } : State),
    by decide +kernel⟩,
   ⟨({ up with lnk := { en := true, peers := [(5, { sub := true, subSag := 63, subOff := 4096, rxGot := 1 })] }, pins := { up.pins with lkInsert := true }, clk := 10000000, ls := { view := [(4096 * 63 + 1, some 7)] } } : State),
    { type := 3, lane := .a, last := true, src := 5, dst := 0x80, index := 1, payload := [1] }, 9, _, _, _, rfl, rfl, rfl,
    by decide +kernel⟩⟩

/-- States and operands that meet the hypotheses of each clause of Link_remote_work. -/
theorem witness_Link_remote_work :
    (∃ s : State, ∃ src : Nat, ∃ sag : Nat, ∃ cls : Nat, ∃ tag : Nat, ∃ fr : Nat, ∃ cb : List Byte, ∃ d : List Byte,
      (s.power.porst = false) ∧ (Instr.wf (.rportReq src sag cls tag fr cb d) = true) ∧ (s.inserted = true) ∧
      (src ≠ s.lnk.node) ∧ ((s.remoteOf (remoteNum src tag)).isSome = false) ∧ (s.kiln.run = false)) ∧
    (∃ s : State, ∃ src : Nat, ∃ sag : Nat, ∃ cls : Nat, ∃ tag : Nat, ∃ fr : Nat, ∃ cb : List Byte, ∃ d : List Byte, ∃ c : Ccw,
      (c = { Ccw.ofBytes (padTo 16 cb) with flags := 0 }) ∧ (s.power.porst = false) ∧
      (Instr.wf (.rportReq src sag cls tag fr cb d) = true) ∧ (s.inserted = true) ∧ (src ≠ s.lnk.node) ∧
      ((s.remoteOf (remoteNum src tag)).isSome = false) ∧ (s.kiln.run = true) ∧
      (s.remoteRight src sag c = false ∨ (portKind c.port ≤ 3 ∧ s.portShared c.port = true))) ∧
    (∃ s : State, ∃ src : Nat, ∃ sag : Nat, ∃ cls : Nat, ∃ tag : Nat, ∃ fr : Nat, ∃ cb : List Byte, ∃ d : List Byte, ∃ c : Ccw,
      ∃ n : Nat, ∃ ls : Nat, ∃ u : State, ∃ o : PortOp, (n = remoteNum src tag) ∧
      (c = { Ccw.ofBytes (padTo 16 cb) with flags := 0 }) ∧
      (ls = (((s.grantOf src sag).map fun e => (s.grant e).lsag).getD 0)) ∧
      (u = (s.tick1.updLnk fun l => { l with remotes := l.remotes ++ [{ src := src, tag := tag, cls := cls, sch := n, sag := ls, frame := s.kiln.frame }] })) ∧
      (o = { seq := u.serial, respNs := u.respNs c.port, byteNs := u.byteNs c.port, turnNs := u.turnNs c.port, ovhNs := u.ovhNs c.port, ccw := c, port := c.port, node := u.lnk.node, phase := .queued, tx := d, t0 := u.clk }) ∧
      (s.power.porst = false) ∧ (Instr.wf (.rportReq src sag cls tag fr cb d) = true) ∧ (s.inserted = true) ∧
      (src ≠ s.lnk.node) ∧ ((s.remoteOf n).isSome = false) ∧ (s.kiln.run = true) ∧ (s.remoteRight src sag c = true) ∧
      (¬ (portKind c.port ≤ 3 ∧ s.portShared c.port = true)) ∧ (cls = 0 ∨ s.remoteRoom = true) ∧
      (c.op = 0x01 ∨ c.op = 0x02 ∨ c.op = 0x04 ∨ c.op = 0x05) ∧ (u.portStep2 n c = true)) ∧
    (∃ s : State, ∃ src : Nat, ∃ tag : Nat, ∃ st : Nat, ∃ ds : BitVec 16, ∃ res : Nat, ∃ fr : Nat, ∃ d : List Byte,
      (s.power.porst = false) ∧ (Instr.wf (.rportRsp src tag st ds res fr d) = true) ∧ ((s.sch (tag % 256)).op = none)) ∧
    (∃ s : State, ∃ u : State, ∃ v : State, ∃ src : Nat, ∃ tag : Nat, ∃ st : Nat, ∃ ds : BitVec 16, ∃ res : Nat, ∃ fr : Nat,
      ∃ d : List Byte, ∃ b : List Byte, ∃ o : PortOp, ∃ q : PortOp,
      (u = (if Status.ofCode st = .protectionCheck then s.updPeer src fun p => { p with denied := sat16 p.denied } else s)) ∧
      (b = (if o.ccw.op = 0x04 ∧ o.ccw.port = 0x1FF then u.ownCounters (tag % 256) d else d)) ∧
      (v = (u.updOp (tag % 256) fun o => { o with rx := b, rxCount := b.length, remoteSt := some (Status.ofCode st, ds, res, fr) }).coverRx (tag % 256)) ∧
      ((v.sch (tag % 256)).op = some q) ∧ (s.power.porst = false) ∧ (Instr.wf (.rportRsp src tag st ds res fr d) = true) ∧
      ((s.sch (tag % 256)).op = some o) ∧ (o.phase = .remote) ∧ (o.node = src) ∧ (o.seq = tag / 256) ∧ (o.remoteSt = none) ∧
      (s.clk < o.deadline) ∧ (q.rxPlaced = true)) ∧
    (∃ _ : State, ∃ _ : Nat, ∃ o : PortOp, ∃ st : Status, ∃ ds : BitVec 16, ∃ res : Nat, ∃ fr : Nat,
      (o.remoteSt = some (st, ds, res, fr)) ∧ (o.ccw.stores = false ∨ o.rx = [])) ∧
    (∃ s : State, ∃ m : MailMsg, (s.power.porst = false) ∧ (Instr.wf (.mail m) = true) ∧ (s.inserted = true)) :=
  ⟨⟨({ up with lnk := { en := true, node := 3 }, pins := { up.pins with lkInsert := true }, clk := 10000000 } : State), 4, 63,
    1, 0xFFFF, 0, zeros 16, [], by decide +kernel⟩,
   ⟨({ up with lnk := { en := true, node := 3 }, pins := { up.pins with lkInsert := true }, clk := 10000000, kiln := { run := true } } : State),
    4, 63, 1, 0xFFFF, 0, zeros 16, [], _, rfl, by decide +kernel⟩,
   ⟨(({ up with lnk := { en := true, node := 3, grants := [(255, { en := true, rnode := 4, rsag := 63, lsag := 0, act := true, obs := true, plo := 0, phi := 511 })] }, pins := { up.pins with lkInsert := true }, clk := 10000000, kiln := { run := true }, tables := { port := [(16 * 0x47, 0x11)] }, sags := [(0, { en := true, observe := BitVec.allOnes 512, actuate := BitVec.allOnes 512 })] } : State)),
    4, 63, 1, 65535, 0, (0x04 :: 0 :: (leBytes 2 0x47 ++ leBytes 4 32 ++ zeros 8)), [], _, _, _, _, _, rfl, rfl, rfl, rfl, rfl,
    by decide +kernel⟩,
   ⟨up, 127, 0xFFFF, 0, 0, 0, 0, [], by decide +kernel⟩,
   ⟨({ up with lnk := { en := true, node := 9 }, pins := { up.pins with lkInsert := true }, clk := 10000000, schs := [(255, { state := .waiting, owner := some (.sq 255), op := some { seq := 7, ccw := { op := 0x03, flags := 0, tgt := 0x700, count := 4, addr := 0 }, port := 0, node := 3, phase := .remote, deadline := 10000001 } })] } : State),
    _, _, 3, 255 + 256 * 7, 0, 0, 0, 0, [], _,
    { seq := 7, ccw := { op := 0x03, flags := 0, tgt := 0x700, count := 4, addr := 0 }, port := 0, node := 3, phase := .remote, deadline := 10000001 },
    _, rfl, rfl, rfl, rfl, by decide +kernel⟩,
   ⟨up, 255,
    { ccw := { op := 0x03, flags := 0, tgt := 0x00, count := 4, addr := 0 }, port := 0, node := 3, phase := .remote, remoteSt := some (.ok, 0, 0, 7) },
    .ok, 0, 0, 7, by decide +kernel⟩,
   ⟨({ up with lnk := { en := true }, pins := { up.pins with lkInsert := true }, clk := 10000000 } : State), .release 127 9,
    by decide +kernel⟩⟩

/-- States and operands that meet the hypotheses of each clause of Rotation_and_processor_faults. -/
theorem witness_Rotation_and_processor_faults :
    (∃ s : State, ∃ f : Word, ∃ e : Nat, ∃ r : Nat, ∃ u : State, (f = s.kiln.frame) ∧
      (u = (s.updHealth fun h => { h with rotFrame := some f })) ∧ (s.power.porst = false) ∧ (s.kiln.frameRuns = true) ∧
      (s.kiln.run = true) ∧ (s.kiln.slice = 15) ∧ (f.toNat % 128 = 127) ∧ (s.health.rotFrame ≠ some f) ∧
      (s.health.rotDis = false) ∧ (s.health.rotHalted = false) ∧ (s.health.faultAt ≠ some s.clk) ∧
      (2 ≤ (u.testedSpares 0).length) ∧ (u.unitOf 0 (f.toNat % 4096 / 128) = some e) ∧ (u.nextSpare 0 = some r)) ∧
    (∃ s : State, ∃ e : Nat, ∃ w : Nat, (s.power.porst = false) ∧ (Instr.wf (.rotationTestEnd e .passed w) = true) ∧ (e < 36) ∧
      ((s.unit e).state = .testing)) ∧
    (∃ s : State, ∃ e : Nat, ∃ w : Nat, ∃ r : UnitTest, (s.power.porst = false) ∧ (Instr.wf (.rotationTestEnd e r w) = true) ∧
      (e < 36) ∧ ((s.unit e).state = .testing) ∧ (r ≠ .passed)) ∧
    (∃ s : State, ∃ cp : Nat, ∃ v : State, ∃ ok : Bool,
      ((s.updHealth fun h => { h with faultAt := some s.clk }).faultUnit 0 cp 3 = (ok, v)) ∧ (s.power.porst = false) ∧
      (cp < 32) ∧ ((s.unitOf 0 cp).isSome = true)) ∧
    (∃ s : State, ∃ u : State, ∃ cp : Nat, ∃ n : Nat, ∃ v : State, ∃ ok : Bool, (u = s.stopProgram n .migratedAbort) ∧
      ((u.updHealth fun h => { h with faultAt := some u.clk }).faultUnit 0 cp 3 = (ok, v)) ∧ (s.power.porst = false) ∧
      (cp < 32) ∧ (n < 256) ∧ (n / 8 = cp) ∧ ((s.unitOf 0 cp).isSome = true) ∧
      ((s.sch n).state = .active ∨ (s.sch n).state = .waiting ∨ (s.sch n).state = .halting)) :=
  ⟨⟨({ up with kiln := { frameRuns := true, run := true, slice := 15, frame := 0xFFFFFFFF }, health := { units := [(0, { state := .active, logical := 31 }), (1, { state := .testing, logical := 0xFF, last := 31 }), (2, {}), (3, { spareSince := 1 })] } } : State),
    _, 0, 2, _, rfl, rfl, by decide +kernel⟩,
   ⟨({ up with kiln := { frameRuns := true, run := true, slice := 15, frame := 0xFFFFFFFF }, health := { units := [(0, { state := .active, logical := 31 }), (1, { state := .testing, logical := 0xFF, last := 31 }), (2, {}), (3, { spareSince := 1 })] } } : State),
    1, 0, by decide +kernel⟩,
   ⟨({ up with kiln := { frameRuns := true, run := true, slice := 15, frame := 0xFFFFFFFF }, health := { units := [(0, { state := .active, logical := 31 }), (1, { state := .testing, logical := 0xFF, last := 31 }), (2, {}), (3, { spareSince := 1 })] } } : State),
    1, 0, .failedLogic, by decide +kernel⟩,
   ⟨({ up with kiln := { frameRuns := true, run := true, slice := 15, frame := 0xFFFFFFFF }, health := { units := [(0, { state := .active, logical := 31 }), (1, { state := .testing, logical := 0xFF, last := 31 }), (2, {}), (3, { spareSince := 1 })] } } : State),
    31, _, _, rfl, by decide +kernel⟩,
   ⟨({ up with kiln := { frameRuns := true, run := true, slice := 15, frame := 0xFFFFFFFF }, health := { units := [(0, { state := .active, logical := 31 }), (1, { state := .testing, logical := 0xFF, last := 31 }), (2, {}), (3, { spareSince := 1 })] }, schs := [(255, { state := .active, owner := some (.sq 255) })] } : State),
    _, 31, 255, _, _, rfl, rfl, by decide +kernel⟩⟩

/-- States and operands that meet the hypotheses of each clause of Faults_of_channels_slices_rows. -/
theorem witness_Faults_of_channels_slices_rows :
    (∃ s : State, ∃ ch : Nat, ∃ _ : Bool, ∃ v : State, (s.power.porst = false) ∧ (ch < 16) ∧
      ((s.bm ch).state = .run ∨ (s.bm ch).state = .aborting) ∧ (s.faultUnit 1 ch 7 = (true, v))) ∧
    (∃ s : State, ∃ ch : Nat, ∃ _ : Bool, ∃ v : State, (s.power.porst = false) ∧ (ch < 16) ∧
      ((s.bm ch).state = .run ∨ (s.bm ch).state = .aborting) ∧ (s.faultUnit 1 ch 7 = (false, v))) ∧
    (∃ s : State, ∃ p : Nat, ∃ _ : Bool, ∃ ok : Bool, ∃ u : State, ∃ v : State,
      (u = (s.updPort p fun x => { x with drops := satAdd 65535 x.drops x.tx.length })) ∧
      ((u.stopLine p).faultUnit 3 p 8 = (ok, v)) ∧ (s.power.porst = false) ∧ (p < 512) ∧ (portKind p = 1) ∧
      ((s.port p).failed = false) ∧ ((s.port p).lineBusy = none)) ∧
    (∃ s : State, ∃ n : Nat, ∃ f : EccFound, ∃ u : State,
      (u = (match f with | .clean => s | .corrected => s.countCorrected n | .hard => (s.countCorrected n).spareRow (8 * n) 4 | .uncorrectable => if s.ls.poison.contains n then s else ((s.updHealth fun h => { h with luncorr := sat8 h.luncorr }).poisonUnit n).spareRow (8 * n) 5)) ∧
      (s.power.porst = false) ∧ (Instr.wf (.localStoreScrub n f) = true)) :=
  ⟨⟨({ up with bms := [(15, { en := true, state := .run, run := { count := 64 } })], health := { units := [(36, { state := .active, logical := 15 }), (37, {})] } } : State),
    15, true,
    (({ up with bms := [(15, { en := true, state := .run, run := { count := 64 } })], health := { units := [(36, { state := .active, logical := 15 }), (37, {})] } } : State).faultUnit 1 15 7).2,
    by decide +kernel⟩,
   ⟨({ up with bms := [(15, { en := true, state := .run, run := { count := 64 } })], health := { units := (36, { state := .active, logical := 15 }) :: (List.range 17).map fun i => (37 + i, { state := .retired }) } } : State),
    15, true,
    (({ up with bms := [(15, { en := true, state := .run, run := { count := 64 } })], health := { units := (36, { state := .active, logical := 15 }) :: (List.range 17).map fun i => (37 + i, { state := .retired }) } } : State).faultUnit 1 15 7).2,
    by decide +kernel⟩,
   ⟨({ up with tables := { port := [(16 * 0x2F, 0x11)] }, health := { units := [(59, { state := .active, logical := 0x2F }), (60, {})] } } : State),
    0x2F, false, _, _, _, rfl, rfl, by decide +kernel⟩,
   ⟨up, 2097151, .corrected, _, rfl, by decide +kernel⟩⟩

/-- States and operands that meet the hypotheses of each clause of Health_measurements. -/
theorem witness_Health_measurements :
    (∃ s : State, ∃ t : Int, ∃ u : State,
      (u = (s.updHealth fun h => { h with tempNow := t, tempPeak := max h.tempPeak (Int.fdiv t 8) })) ∧
      (s.power.porst = false) ∧ (Instr.wf (.temp t) = true) ∧ (s.health.hot = false) ∧ (s.health.overTemp = false) ∧
      (t < 8 * s.health.twarn) ∧ (t < s.gradeLimit)) ∧
    (∃ s : State, ∃ t : Int, ∃ u : State,
      (u = (s.updHealth fun h => { h with tempNow := t, tempPeak := max h.tempPeak (Int.fdiv t 8) })) ∧
      (s.power.porst = false) ∧ (Instr.wf (.temp t) = true) ∧ (s.health.hot = false) ∧ (s.health.overTemp = false) ∧
      (8 * s.health.twarn ≤ t) ∧ (t < s.gradeLimit)) ∧
    (∃ s : State, ∃ t : Int, ∃ u : State,
      (u = (s.updHealth fun h => { h with tempNow := t, tempPeak := max h.tempPeak (Int.fdiv t 8) })) ∧
      (s.power.porst = false) ∧ (Instr.wf (.temp t) = true) ∧ (s.health.hot = true) ∧ (s.health.overTemp = false) ∧
      (t ≤ 8 * s.health.twarn - 16) ∧ (t < s.gradeLimit)) ∧
    (∃ s : State, ∃ t : Int, ∃ u : State,
      (u = (s.updHealth fun h => { h with tempNow := t, tempPeak := max h.tempPeak (Int.fdiv t 8) })) ∧
      (s.power.porst = false) ∧ (Instr.wf (.temp t) = true) ∧ (s.health.hot = false) ∧ (s.health.overTemp = false) ∧
      (t < 8 * s.health.twarn) ∧ (s.gradeLimit ≤ t)) ∧
    (∃ s : State, ∃ r : Nat, ∃ mv : Nat, ∃ lo : Nat, ∃ hi : Nat, ∃ out : Bool, ∃ u : State, (railWindow r = (lo, hi)) ∧
      (out = decide (mv < lo ∨ hi < mv)) ∧
      (u = (s.updHealth fun h => { h with rails := h.rails.set 0 r mv, vout := setBit h.vout r out, vflt := if out && !bit s.health.vout r then setBit h.vflt r true else h.vflt })) ∧
      (s.power.porst = false) ∧ (Instr.wf (.volt r mv) = true)) ∧
    (∃ s : State, ∃ r : List Byte, ∃ l : List (List Byte), (s.power.porst = false) ∧ (s.health.recBuf = r :: l) ∧
      ((s.jrn.jobs.all fun j => j.who != .record) = true)) :=
  ⟨⟨({ up with health := { twarn := 80 } } : State), 100, _, rfl, by decide +kernel⟩,
   ⟨({ up with health := { twarn := 80 } } : State), 640, _, rfl, by decide +kernel⟩,
   ⟨({ up with health := { twarn := 80, hot := true } } : State), 624, _, rfl, by decide +kernel⟩,
   ⟨({ up with health := { twarn := 127 } } : State), 840, _, rfl, by decide +kernel⟩,
   ⟨up, 8, 873, _, _, _, _, rfl, rfl, rfl, by decide +kernel⟩,
   ⟨({ up with health := { recBuf := [zeros 64] } } : State), zeros 64, [], by decide +kernel⟩⟩

/-- States and operands that meet the hypotheses of each clause of Resets_and_bisque. -/
theorem witness_Resets_and_bisque :
    (∃ s : State, (s.power.porst = false)) ∧
    (∃ s : State, (s.power.porst = false)) ∧
    (∃ s : State, (s.power.porst = true)) ∧
    (∃ _ : State, ∃ b : Bool, (b = true)) ∧
    (∃ _ : State, ∃ b : Bool, (b = false)) ∧
    (∃ s : State, (s.power.porst = false) ∧ (s.power.warmPin = false)) ∧
    (∃ s : State, (s.power.porst = false) ∧ (s.power.warmPin = true)) ∧
    (∃ s : State, ∃ u : State, ∃ v : State, ∃ w : State, (u = s.bisqueWork) ∧
      (v = (if u.dev.autoload then u.autoloadStep else u)) ∧
      (w = { v with power := { v.power with bisque := false, bisqueWarm := false }, dev := { v.dev with step := 0xFF, ready := true, bisqueFail := v.health.failMap != 0 } }) ∧
      (s.power.porst = false) ∧ (s.power.bisque = true)) ∧
    (∃ _ : State, ∃ l : JtagLoad, (l.ir.toNat < 2)) ∧
    (∃ _ : State, ∃ l : JtagLoad, (2 ≤ l.ir.toNat) ∧ (l.ir.toNat < 4)) ∧
    (∃ _ : State, ∃ l : JtagLoad, (4 ≤ l.ir.toNat)) :=
  ⟨⟨up, by decide +kernel⟩,
   ⟨up, by decide +kernel⟩,
   ⟨({ power := { porst := true } } : State), by decide +kernel⟩,
   ⟨up, _, rfl⟩,
   ⟨up, _, rfl⟩,
   ⟨up, by decide +kernel⟩,
   ⟨{ up with power := { porst := false, warmPin := true } }, by decide +kernel⟩,
   ⟨({ power := { porst := false, bisque := true } } : State), _, _, _, rfl, rfl, rfl, by decide +kernel⟩,
   ⟨State.reset, { ir := 1, scan := some 5 }, by decide +kernel⟩,
   ⟨State.reset, { ir := 3 }, by decide +kernel⟩,
   ⟨State.reset, { ir := 4 }, by decide +kernel⟩⟩

/-- States and operands that meet the hypotheses of each clause of Pci_express_events. -/
theorem witness_Pci_express_events :
    (∃ s : State, (s.pcie.perst = false) ∧ (s.power.porst = false)) ∧
    (∃ s : State, (s.power.porst = false) ∧ (s.pcie.linkUp = true)) ∧
    (∃ s : State, (s.power.porst = false) ∧ (s.pcie.perst = false)) ∧
    (∃ s : State, ∃ f : Nat, (s.power.porst = false) ∧ (f < 64) ∧ (s.fnOn f = true) ∧ (s.dev.ready = true)) ∧
    (∃ s : State, ∃ f : Nat, (s.power.porst = false) ∧ (f < 64) ∧ (s.fnOn f = true) ∧ (s.dev.ready = true) ∧
      ((s.fn f).d3 = false)) ∧
    (∃ s : State, ∃ n : Nat, ∃ _ : Bool, (s.power.porst = false) ∧ (n < 64) ∧ (s.pcie.linkUp = true) ∧ (s.dev.ready = true)) ∧
    (∃ s : State, ∃ r : CfgReq, (s.power.porst = false) ∧ (Instr.wf (.configRequest r) = true) ∧ (s.pcie.linkUp = true) ∧
      (s.dev.ready = false)) ∧
    (∃ s : State, ∃ f : Nat, ∃ o : Nat, (s.power.porst = false) ∧ (Instr.wf (.configRequest (.read f o)) = true) ∧
      (s.pcie.linkUp = true) ∧ (s.dev.ready = true)) ∧
    (∃ s : State, ∃ f : Nat, ∃ o : Nat, ∃ w : Word, (s.power.porst = false) ∧
      (Instr.wf (.configRequest (.write f o w)) = true) ∧ (s.pcie.linkUp = true) ∧ (s.dev.ready = true) ∧ (s.fnOn f = true)) ∧
    (∃ s : State, ∃ t : BadTlp, ∃ k : Nat, (s.power.porst = false) ∧ (Instr.wf (.malformedTlp t) = true) ∧
      (s.pcie.linkUp = true) ∧ ((t, k) ∈ [(BadTlp.malformed, 18), (.ecrc, 19), (.unsupported, 20)])) ∧
    (∃ s : State, ∃ f : Nat, (s.power.porst = false) ∧ (f < 64) ∧ (s.pcie.linkUp = true) ∧ (s.barOn f = true)) :=
  ⟨⟨{ hostUp with pcie := { perst := false } }, by decide +kernel⟩,
   ⟨hostUp, by decide +kernel⟩,
   ⟨{ up with pcie := { perst := false } }, by decide +kernel⟩,
   ⟨hostUp, 63, by decide +kernel⟩,
   ⟨hostUp, 63, by decide +kernel⟩,
   ⟨hostUp, 63, false, by decide +kernel⟩,
   ⟨{ hostUp with dev := {} }, .read 0 0, by decide +kernel⟩,
   ⟨hostUp, 63, 0xFFC, by decide +kernel⟩,
   ⟨hostUp, 63, 4, 4, by decide +kernel⟩,
   ⟨hostUp, .ecrc, 19, by decide +kernel⟩,
   ⟨hostUp, 63, by decide +kernel⟩⟩

/-- States and operands that meet the hypotheses of each clause of Slim_port_requests. -/
theorem witness_Slim_port_requests :
    (∃ s : State, ∃ req : List Byte, ∃ t : State, ∃ a : List Byte, (t = (s.updShp fun p => { p with response := [] })) ∧
      (a = (req.drop 1).dropLast) ∧ (s.power.porst = false) ∧ (s.shp.en = true) ∧ (leAt req 0 1 = 0x10) ∧
      (shpLength req = some req.length) ∧ (crc8 req.dropLast = req.getLastD 0)) ∧
    (∃ s : State, ∃ req : List Byte, ∃ t : State, ∃ a : List Byte, (t = (s.updShp fun p => { p with response := [] })) ∧
      (a = (req.drop 1).dropLast) ∧ (s.power.porst = false) ∧ (s.shp.en = true) ∧ (leAt req 0 1 = 0x11) ∧
      (shpLength req = some req.length) ∧ (crc8 req.dropLast = req.getLastD 0) ∧ (s.shp.active = true) ∧ (t.shp.error = false) ∧
      (leAt a 2 2 ≤ 31) ∧ (t.shpTags.contains (leAt a 2 2) = false) ∧ (t.shp.qresetting = false)) ∧
    (∃ s : State, ∃ req : List Byte, ∃ t : State, ∃ a : List Byte, (t = (s.updShp fun p => { p with response := [] })) ∧
      (a = (req.drop 1).dropLast) ∧ (s.power.porst = false) ∧ (s.shp.en = true) ∧ (leAt req 0 1 = 0x12) ∧
      (shpLength req = some req.length) ∧ (crc8 req.dropLast = req.getLastD 0) ∧ (1 ≤ leAt a 0 1) ∧ (leAt a 0 1 ≤ 8)) ∧
    (∃ s : State, ∃ req : List Byte, ∃ t : State, ∃ a : List Byte, (t = (s.updShp fun p => { p with response := [] })) ∧
      (a = (req.drop 1).dropLast) ∧ (s.power.porst = false) ∧ (s.shp.en = true) ∧ (leAt req 0 1 = 0x13) ∧
      (shpLength req = some req.length) ∧ (crc8 req.dropLast = req.getLastD 0) ∧ (s.shp.active = true) ∧ (1 ≤ leAt a 0 1) ∧
      (leAt a 0 1 ≤ 8)) ∧
    (∃ s : State, ∃ req : List Byte, ∃ t : State, ∃ a : List Byte, (t = (s.updShp fun p => { p with response := [] })) ∧
      (a = (req.drop 1).dropLast) ∧ (s.power.porst = false) ∧ (s.shp.en = true) ∧ (leAt req 0 1 = 0x14) ∧
      (shpLength req = some req.length) ∧ (crc8 req.dropLast = req.getLastD 0) ∧ (s.shp.active = true) ∧
      (t.shpRange (leAt a 0 3) (leAt a 3 2) true = none)) ∧
    (∃ s : State, ∃ req : List Byte, ∃ t : State, ∃ a : List Byte, (t = (s.updShp fun p => { p with response := [] })) ∧
      (a = (req.drop 1).dropLast) ∧ (s.power.porst = false) ∧ (s.shp.en = true) ∧ (leAt req 0 1 = 0x15) ∧
      (shpLength req = some req.length) ∧ (crc8 req.dropLast = req.getLastD 0) ∧ (s.shp.active = true) ∧
      (t.shpRange (leAt a 0 3) (leAt a 3 2) false = none) ∧ (t.lsPoisoned t.shp.sag (leAt a 0 3) (leAt a 3 2) = false)) ∧
    (∃ s : State, ∃ req : List Byte, ∃ t : State, ∃ a : List Byte, (t = (s.updShp fun p => { p with response := [] })) ∧
      (a = (req.drop 1).dropLast) ∧ (s.power.porst = false) ∧ (s.shp.en = true) ∧ (leAt req 0 1 = 0x16) ∧
      (shpLength req = some req.length) ∧ (crc8 req.dropLast = req.getLastD 0) ∧ (s.shp.active = true)) ∧
    (∃ s : State, ∃ req : List Byte, ∃ t : State, ∃ a : List Byte, (t = (s.updShp fun p => { p with response := [] })) ∧
      (a = (req.drop 1).dropLast) ∧ (s.power.porst = false) ∧ (s.shp.en = true) ∧ (leAt req 0 1 = 0x1B) ∧
      (shpLength req = some req.length) ∧ (crc8 req.dropLast = req.getLastD 0) ∧ (s.shp.active = true)) :=
  ⟨⟨({ up with shp := { en := true, active := true, sag := 63 }, sags := [(63, { en := true, clsW := true, subLim := 8, pageLim := 4, nsLim := 2, folioLim := 64 })] } : State),
    (let b : List Byte := [0x10]; b ++ [crc8 b]), _, _, rfl, rfl, by decide +kernel⟩,
   ⟨({ up with shp := { en := true, active := true, sag := 63 }, sags := [(63, { en := true, clsW := true, subLim := 8, pageLim := 4, nsLim := 2, folioLim := 64 })] } : State),
    (let b : List Byte := 0x11 :: 1 :: 0 :: 31 :: zeros 61; b ++ [crc8 b]), _, _, rfl, rfl, by decide +kernel⟩,
   ⟨({ up with shp := { en := true, active := true, sag := 63 }, sags := [(63, { en := true, clsW := true, subLim := 8, pageLim := 4, nsLim := 2, folioLim := 64 })] } : State),
    (let b : List Byte := [0x12, 8]; b ++ [crc8 b]), _, _, rfl, rfl, by decide +kernel⟩,
   ⟨({ up with shp := { en := true, active := true, sag := 63 }, sags := [(63, { en := true, clsW := true, subLim := 8, pageLim := 4, nsLim := 2, folioLim := 64 })] } : State),
    (let b : List Byte := [0x13, 1]; b ++ [crc8 b]), _, _, rfl, rfl, by decide +kernel⟩,
   ⟨({ up with shp := { en := true, active := true, sag := 63 }, ls := { view := [(4096 * 63, some 1)] }, sags := [(63, { en := true, clsW := true, subLim := 8, pageLim := 4, nsLim := 2, folioLim := 64 })] } : State),
    (let b : List Byte := 0x14 :: (leBytes 3 4090 ++ leBytes 2 4 ++ [1, 2, 3, 4]); b ++ [crc8 b]), _, _, rfl, rfl,
    by decide +kernel⟩,
   ⟨({ up with shp := { en := true, active := true, sag := 63 }, ls := { view := [(4096 * 63, some 1)] }, sags := [(63, { en := true, clsW := true, subLim := 8, pageLim := 4, nsLim := 2, folioLim := 64 })] } : State),
    (let b : List Byte := 0x15 :: (leBytes 3 4090 ++ leBytes 2 6); b ++ [crc8 b]), _, _, rfl, rfl, by decide +kernel⟩,
   ⟨({ up with shp := { en := true, active := true, sag := 63 }, sags := [(63, { en := true, clsW := true, subLim := 8, pageLim := 4, nsLim := 2, folioLim := 64 })] } : State),
    (let b : List Byte := [0x16]; b ++ [crc8 b]), _, _, rfl, rfl, by decide +kernel⟩,
   ⟨({ up with shp := { en := true, active := true, sag := 63 }, sags := [(63, { en := true, clsW := true, subLim := 8, pageLim := 4, nsLim := 2, folioLim := 64 })] } : State),
    (let b : List Byte := [0x1B]; b ++ [crc8 b]), _, _, rfl, rfl, by decide +kernel⟩⟩

/-- States and operands that meet the hypotheses of each clause of Slim_port_control. -/
theorem witness_Slim_port_control :
    (∃ s : State, ∃ req : List Byte, ∃ t : State, ∃ a : List Byte, (t = (s.updShp fun p => { p with response := [] })) ∧
      (a = (req.drop 1).dropLast) ∧ (s.power.porst = false) ∧ (s.shp.en = true) ∧ (leAt req 0 1 = 0x17) ∧
      (shpLength req = some req.length) ∧ (crc8 req.dropLast = req.getLastD 0) ∧ (s.shp.active = true) ∧ (t.shp.ctl = none) ∧
      (t.shpTags = [])) ∧
    (∃ s : State, ∃ req : List Byte, ∃ t : State, ∃ a : List Byte, (t = (s.updShp fun p => { p with response := [] })) ∧
      (a = (req.drop 1).dropLast) ∧ (s.power.porst = false) ∧ (s.shp.en = true) ∧ (leAt req 0 1 = 0x18) ∧
      (shpLength req = some req.length) ∧ (crc8 req.dropLast = req.getLastD 0) ∧ (s.shp.active = true) ∧ (t.shp.ctl = none)) ∧
    (∃ s : State, ∃ req : List Byte, ∃ t : State, ∃ a : List Byte, (t = (s.updShp fun p => { p with response := [] })) ∧
      (a = (req.drop 1).dropLast) ∧ (s.power.porst = false) ∧ (s.shp.en = true) ∧ (leAt req 0 1 = 0x19) ∧
      (shpLength req = some req.length) ∧ (crc8 req.dropLast = req.getLastD 0) ∧ (s.shp.active = true) ∧ (t.shp.ctl = none)) ∧
    (∃ s : State, ∃ req : List Byte, ∃ t : State, ∃ a : List Byte, (t = (s.updShp fun p => { p with response := [] })) ∧
      (a = (req.drop 1).dropLast) ∧ (s.power.porst = false) ∧ (s.shp.en = true) ∧ (leAt req 0 1 = 0x1A) ∧
      (shpLength req = some req.length) ∧ (crc8 req.dropLast = req.getLastD 0) ∧ (s.shp.active = true) ∧ (t.shp.ctl = none)) ∧
    (∃ s : State, ∃ c : ShpCtl, (s.power.porst = false) ∧ (s.shp.ctl = some c) ∧ (c.cmd = 0x17) ∧ (s.msp.busy = none) ∧
      (s.sharedHeld = false)) ∧
    (∃ s : State, ∃ c : ShpCtl, (s.power.porst = false) ∧ (s.shp.ctl = some c) ∧ (c.cmd = 0x18) ∧ (s.msp.busy = none) ∧
      (s.sharedHeld = false)) ∧
    (∃ s : State, ∃ c : ShpCtl, (s.power.porst = false) ∧ (s.shp.ctl = some c) ∧ (c.cmd = 0x19) ∧ (s.msp.busy = none) ∧
      (s.sharedHeld = false)) ∧
    (∃ s : State, ∃ c : ShpCtl, ∃ l : List Entry,
      (l = (s.shp.entries.map fun e => { e with phase := .ended .aborted }) ++ s.shp.waiting.map (fun bs => if isJrnOp bs && !jrnBad bs false then jrnEntry bs { s.blankEntry 0 (leAt bs 2 2) with phase := .ended .aborted } else { s.blankEntry 0 (leAt bs 2 2) with phase := .ended .aborted })) ∧
      (s.power.porst = false) ∧ (s.shp.ctl = some c) ∧ (c.cmd = 0x1A) ∧
      (((s.schsOf .shp).any fun n => (s.sch n).state != .idle) = false) ∧ ((s.shp.entries.any s.shpOnMedia) = false)) :=
  ⟨⟨({ up with shp := { en := true, active := true, sag := 63 }, sags := [(63, { en := true, clsW := true, subLim := 8, pageLim := 4, nsLim := 2, folioLim := 64 })] } : State),
    (let b : List Byte := [0x17, 0, 8, 32]; b ++ [crc8 b]), _, _, rfl, rfl, by decide +kernel⟩,
   ⟨({ up with shp := { en := true, active := true, sag := 63 }, sags := [(63, { en := true, clsW := true, subLim := 8, pageLim := 4, nsLim := 2, folioLim := 64 })] } : State),
    (let b : List Byte := 0x18 :: zeros 5; b ++ [crc8 b]), _, _, rfl, rfl, by decide +kernel⟩,
   ⟨({ up with shp := { en := true, active := true, sag := 63 }, sags := [(63, { en := true, clsW := true, subLim := 8, pageLim := 4, nsLim := 2, folioLim := 64 })] } : State),
    (let b : List Byte := 0x19 :: zeros 10; b ++ [crc8 b]), _, _, rfl, rfl, by decide +kernel⟩,
   ⟨({ up with shp := { en := true, active := true, sag := 63 }, sags := [(63, { en := true, clsW := true, subLim := 8, pageLim := 4, nsLim := 2, folioLim := 64 })] } : State),
    (let b : List Byte := [0x1A]; b ++ [crc8 b]), _, _, rfl, rfl, by decide +kernel⟩,
   ⟨({ up with shp := { en := true, active := true, sag := 63, ctl := some { cmd := 0x17, req := [0, 8, 32] } }, sags := [(63, { en := true, clsW := true, subLim := 8, pageLim := 4, nsLim := 2, folioLim := 64 })] } : State),
    { cmd := 0x17, req := [0, 8, 32] }, by decide +kernel⟩,
   ⟨({ up with shp := { en := true, active := true, sag := 63, ctl := some { cmd := 0x18, req := zeros 5 } }, sags := [(63, { en := true, clsW := true, subLim := 8, pageLim := 4, nsLim := 2, folioLim := 64 })] } : State),
    { cmd := 0x18, req := zeros 5 }, by decide +kernel⟩,
   ⟨({ up with shp := { en := true, active := true, sag := 63, ctl := some { cmd := 0x19, req := zeros 10 } }, sags := [(63, { en := true, clsW := true, subLim := 8, pageLim := 4, nsLim := 2, folioLim := 64 })] } : State),
    { cmd := 0x19, req := zeros 10 }, by decide +kernel⟩,
   ⟨({ up with shp := { en := true, active := true, sag := 63, waiting := [zeros 64], ctl := some { cmd := 0x1A, req := [] } }, sags := [(63, { en := true, clsW := true, subLim := 8, pageLim := 4, nsLim := 2, folioLim := 64 })] } : State),
    { cmd := 0x1A, req := [] }, _, rfl, by decide +kernel⟩⟩

/-- States and operands that meet the hypotheses of each clause of Admin_queue_enable. -/
theorem witness_Admin_queue_enable :
    (∃ s : State, ∃ f : Nat, (s.power.porst = false) ∧ (f < 64) ∧ (s.barOn f = true) ∧ (s.dev.ready = true) ∧
      ((s.fn f).en = false) ∧ ((s.sag f).en = true) ∧ (s.shpBound f = false) ∧ ((s.fn f).regsOk = true) ∧ (s.zbusy f = 0)) ∧
    (∃ s : State, ∃ f : Nat, (s.power.porst = false) ∧ (f < 64) ∧ (s.barOn f = true) ∧ ((s.fn f).en = true)) :=
  ⟨⟨{ hostUp with sags := [(63, { en := true })], fns := [(63, { sqb := 0x1000, cqb := 0x2000, sqn := 256, cqn := 2 })] }, 63,
    by decide +kernel⟩,
   ⟨{ hostUp with fns := [(63, { en := true, rdy := true })] }, 63, by decide +kernel⟩⟩

/-- States and operands that meet the hypotheses of each clause of Head_doorbells. -/
theorem witness_Head_doorbells :
    (∃ s : State, ∃ f : Nat, ∃ k : Nat, ∃ v : DWord, ∃ i : Nat, (i = fld v 0 16) ∧ (s.power.porst = false) ∧ (f < 64) ∧
      (s.barOn f = true) ∧ ((s.sag f).en = true) ∧ (k = 4 ∨ k = 8) ∧ ((s.fn f).rdy = true) ∧ ((s.fn f).heldAdmin = none) ∧
      (i < (s.fn f).cqn ∧ (i + (s.fn f).cqn - (s.fn f).cqHead) % (s.fn f).cqn ≤ ((s.fn f).cqTail + (s.fn f).cqn - (s.fn f).cqHead) % (s.fn f).cqn)) ∧
    (∃ s : State, ∃ f : Nat, ∃ k : Nat, ∃ v : DWord, ∃ i : Nat, ∃ c : Cqe, (i = fld v 0 16) ∧ (s.power.porst = false) ∧
      (f < 64) ∧ (s.barOn f = true) ∧ ((s.sag f).en = true) ∧ (k = 4 ∨ k = 8) ∧ ((s.fn f).rdy = true) ∧
      ((s.fn f).heldAdmin = some c) ∧ (ringFull i (s.fn f).cqTail (s.fn f).cqn = false) ∧
      (i < (s.fn f).cqn ∧ (i + (s.fn f).cqn - (s.fn f).cqHead) % (s.fn f).cqn ≤ ((s.fn f).cqTail + (s.fn f).cqn - (s.fn f).cqHead) % (s.fn f).cqn)) ∧
    (∃ s : State, ∃ f : Nat, ∃ n : Nat, ∃ k : Nat, ∃ v : DWord, ∃ i : Nat, (i = fld v 0 16) ∧ (s.power.porst = false) ∧
      (f < 64) ∧ (s.barOn f = true) ∧ ((s.sag f).en = true) ∧ (k = 4 ∨ k = 8) ∧ (n < 256) ∧ ((s.cq n).exists_ = true) ∧
      ((s.cq n).fn = f) ∧
      (i < (s.cq n).n ∧ (i + (s.cq n).n - (s.cq n).head) % (s.cq n).n ≤ ((s.cq n).tail + (s.cq n).n - (s.cq n).head) % (s.cq n).n)) ∧
    (∃ s : State, ∃ f : Nat, ∃ k : Nat, ∃ v : DWord, ∃ i : Nat, (i = fld v 0 16) ∧ (s.power.porst = false) ∧ (f < 64) ∧
      (s.barOn f = true) ∧ ((s.sag f).en = true) ∧ (k = 4 ∨ k = 8) ∧ ((s.fn f).evqOn = true) ∧ (i ≠ (s.fn f).evqHead) ∧
      (i < (s.fn f).evqN ∧ (i + (s.fn f).evqN - (s.fn f).evqHead) % (s.fn f).evqN ≤ ((s.fn f).evqTail + (s.fn f).evqN - (s.fn f).evqHead) % (s.fn f).evqN)) ∧
    (∃ s : State, ∃ f : Nat, ∃ k : Nat, ∃ v : DWord, ∃ i : Nat, (i = fld v 0 16) ∧ (s.power.porst = false) ∧ (f < 64) ∧
      (s.barOn f = true) ∧ ((s.sag f).en = true) ∧ (k = 4 ∨ k = 8) ∧ ((s.fn f).evqOn = true) ∧ (i = (s.fn f).evqHead) ∧
      (i < (s.fn f).evqN)) ∧
    (∃ s : State, ∃ f : Nat, ∃ k : Nat, ∃ v : DWord, ∃ i : Nat, (i = fld v 0 16) ∧ (s.power.porst = false) ∧ (f < 64) ∧
      (s.barOn f = true) ∧ ((s.sag f).en = true) ∧ (k = 4 ∨ k = 8) ∧
      (¬ (i < (s.fn f).cqn ∧ (i + (s.fn f).cqn - (s.fn f).cqHead) % (s.fn f).cqn ≤ ((s.fn f).cqTail + (s.fn f).cqn - (s.fn f).cqHead) % (s.fn f).cqn))) ∧
    (∃ s : State, ∃ f : Nat, ∃ n : Nat, ∃ k : Nat, ∃ v : DWord, ∃ i : Nat, (i = fld v 0 16) ∧ (s.power.porst = false) ∧
      (f < 64) ∧ (s.barOn f = true) ∧ ((s.sag f).en = true) ∧ (k = 4 ∨ k = 8) ∧ (n < 256) ∧
      (¬ (i < (s.cq n).n ∧ (i + (s.cq n).n - (s.cq n).head) % (s.cq n).n ≤ ((s.cq n).tail + (s.cq n).n - (s.cq n).head) % (s.cq n).n))) ∧
    (∃ s : State, ∃ f : Nat, ∃ k : Nat, ∃ v : DWord, ∃ i : Nat, (i = fld v 0 16) ∧ (s.power.porst = false) ∧ (f < 64) ∧
      (s.barOn f = true) ∧ ((s.sag f).en = true) ∧ (k = 4 ∨ k = 8) ∧
      (¬ (i < (s.fn f).evqN ∧ (i + (s.fn f).evqN - (s.fn f).evqHead) % (s.fn f).evqN ≤ ((s.fn f).evqTail + (s.fn f).evqN - (s.fn f).evqHead) % (s.fn f).evqN))) :=
  ⟨⟨{ hostUp with sags := [(63, { en := true })], fns := [(63, { rdy := true, evqOn := true, evqN := 8, evqHead := 6, evqTail := 1, cqn := 4, cqHead := 3, cqTail := 1 })] },
    63, 4, 1, _, rfl, by decide +kernel⟩,
   ⟨{ hostUp with sags := [(63, { en := true })], fns := [(63, { rdy := true, cqn := 4, cqHead := 2, cqTail := 1, heldAdmin := some { cid := 1, sqid := 0, status := .ok, kd := 0 } })] },
    63, 4, 3, _, { cid := 1, sqid := 0, status := .ok, kd := 0 }, rfl, by decide +kernel⟩,
   ⟨{ hostUp with sags := [(63, { en := true })], cqs := [(255, { exists_ := true, fn := 63, n := 4, head := 3, tail := 1 })] },
    63, 255, 8, 3, _, rfl, by decide +kernel⟩,
   ⟨{ hostUp with sags := [(63, { en := true })], fns := [(63, { rdy := true, evqOn := true, evqN := 8, evqHead := 6, evqTail := 1, cqn := 4, cqHead := 3, cqTail := 1 })] },
    63, 8, 7, _, rfl, by decide +kernel⟩,
   ⟨{ hostUp with sags := [(63, { en := true })], fns := [(63, { rdy := true, evqOn := true, evqN := 8, evqHead := 6, evqTail := 1, cqn := 4, cqHead := 3, cqTail := 1 })] },
    63, 8, 6, _, rfl, by decide +kernel⟩,
   ⟨{ hostUp with sags := [(63, { en := true })], fns := [(63, { rdy := true, evqOn := true, evqN := 8, evqHead := 6, evqTail := 1, cqn := 4, cqHead := 3, cqTail := 1 })] },
    63, 4, 2, _, rfl, by decide +kernel⟩,
   ⟨{ hostUp with sags := [(63, { en := true })], cqs := [(255, { exists_ := true, fn := 63, n := 4, head := 3, tail := 1 })] },
    63, 255, 8, 4, _, rfl, by decide +kernel⟩,
   ⟨{ hostUp with sags := [(63, { en := true })], fns := [(63, { rdy := true, evqOn := true, evqN := 8, evqHead := 6, evqTail := 1, cqn := 4, cqHead := 3, cqTail := 1 })] },
    63, 8, 2, _, rfl, by decide +kernel⟩⟩

/-- States and operands that meet the hypotheses of each clause of Flags_permitted. -/
theorem witness_Flags_permitted :
    (∃ s : State, ∃ n : Nat, ∃ c : Ccw, ∃ cmd : Instr, ∃ op : Byte, ∃ m : Byte, (s.power.porst = false) ∧ (n < 256) ∧
      (s.chosen n = true) ∧ (s.ccwAt n = .ok c) ∧
      ((cmd, op, m) ∈ [(Instr.ccwWrite n, 0x01, 0b11110111), (.ccwRead n, 0x02, 0b11111111), (.ccwControl n, 0x03, 0b11110101), (.ccwSense n, 0x04, 0b11111101), (.ccwExchange n, 0x05, 0b11111101), (.ccwStage n, 0x0a, 0b01100001), (.ccwSnap n, 0x0b, 0b01100001), (.ccwMove n, 0x08, 0b01100001), (.ccwFence n, 0x09, 0b01100001), (.ccwNop n, 0x0f, 0b01100001), (.ccwTest n, 0x11, 0b01100001), (.ccwWaitt n, 0x12, 0b01100001), (.ccwWaitc n, 0x13, 0b01100001), (.ccwWaitf n, 0x14, 0b01100001), (.ccwLoop n, 0x15, 0b01100001), (.ccwSetc n, 0x16, 0b01100001), (.ccwPost n, 0x18, 0b01100001), (.ccwSignal n, 0x19, 0b01100001), (.ccwClaim n, 0x1c, 0b01100001), (.ccwRelease n, 0x1d, 0b01100001), (.ccwJappend n, 0x20, 0b01100001), (.ccwJump n, 0x10, 0), (.ccwColophon n, 0x7f, 0b01000000)]) ∧
      (c.op = op) ∧ (c.flags &&& ~~~m ≠ 0)) :=
  ⟨prog { op := 0x10, flags := 1, tgt := 0, count := 0, addr := 0 }, 255,
    { op := 0x10, flags := 1, tgt := 0, count := 0, addr := 0 }, .ccwJump 255, 0x10, 0, by decide +kernel⟩

/-- A request with a wrong CRC to a port that answers, in time. -/
theorem witness_Checksum_of_the_ports :
    ∃ (s : State) (req : List Byte) (k : Nat), (s.mspSilent = false) ∧ (s.msp.nextAt ≤ s.clk) ∧ (k + 1 = mspFrame req) ∧
      (k < req.length) ∧ (crc8 (req.take k) ≠ req.getD k 0) :=
  ⟨up, [1, 0, 0, 0, 0x17], 4, by decide +kernel⟩

/-- A mapped range of two bytes at the end of a page, and a byte outside it. -/
theorem witness_Local_store_writes :
    ∃ (s : State) (sag off : Nat) (bs : List Byte), (Memory.wf s = true) ∧
      (∃ a, ∀ i, i < bs.length → s.phys sag (off + i) ≠ some a) ∧
      (∀ i, i < bs.length → (s.phys sag (off + i)).isSome = true) ∧
      (∀ i, i < bs.length → ∀ j, j < bs.length → s.phys sag (off + i) = s.phys sag (off + j) → i = j) :=
  ⟨{ up with ls := { view := [(0, some 5), (1, some 3)] } }, 0, 4095, [1, 2], by decide +kernel, ⟨0, by decide +kernel⟩,
    by decide +kernel, by decide +kernel⟩

/-- A well-formed command, and one that is not. -/
theorem witness_Every_command_completes :
    (∃ c : Instr, c.wf = true) ∧ (∃ c : Instr, c.wf = false) := ⟨⟨.flr 63, by decide⟩, ⟨.flr 64, by decide⟩⟩

/-- The reset state meets the premises. -/
theorem witness_Pins_follow_the_state : ∃ s t : State, s.pinsAgree = true ∧ step s = .next t :=
  ⟨State.reset, State.reset, by decide +kernel, rfl⟩

/-- The reset state and a command of the management port. -/
theorem witness_Held_in_reset :
    (State.reset.power.porst = true) ∧ ((Instr.commit 0).wf = true) ∧ (State.reset.pending = []) := by decide +kernel

/-- A block that is up with an empty queue: TRIM's account inside its bounds, at the upper one, at the lower one. -/
theorem witness_Clock_advances :
    (∃ (s : State) (acc : Int), (s.pending = []) ∧ (s.power.porst = false) ∧
      (acc = s.kiln.trimAcc + (if s.kiln.src = 0 ∨ s.kiln.holdover = true then s.kiln.trim.toInt else 0)) ∧
      (-1000000000 < acc) ∧ (acc < 1000000000)) ∧
    (∃ (s : State) (acc : Int), (s.pending = []) ∧ (s.power.porst = false) ∧
      (acc = s.kiln.trimAcc + (if s.kiln.src = 0 ∨ s.kiln.holdover = true then s.kiln.trim.toInt else 0)) ∧
      (1000000000 ≤ acc)) ∧
    (∃ (s : State) (acc : Int), (s.pending = []) ∧ (s.power.porst = false) ∧
      (acc = s.kiln.trimAcc + (if s.kiln.src = 0 ∨ s.kiln.holdover = true then s.kiln.trim.toInt else 0)) ∧
      (acc ≤ -1000000000)) :=
  ⟨⟨up, 0, by decide +kernel⟩,
   ⟨{ up with kiln := { trim := 32767, trimAcc := 999967233 } }, 1000000000, by decide +kernel⟩,
   ⟨{ up with kiln := { src := 2, holdover := true, trim := 0x8001, trimAcc := -999967233 } }, -1000000000, by decide +kernel⟩⟩

/-! ### Worked cases of the spec -/

/-- R415: the CRC over "123456789". -/
theorem test_crc8_check : crc8 [0x31, 0x32, 0x33, 0x34, 0x35, 0x36, 0x37, 0x38, 0x39] = 0xF4 := by decide +kernel

/-- The next state of a command, or the state it was given. -/
def after (c : Instr) (s : State) : State :=
  match exec c s with
  | .next t => t
  | .fault _ => s
  | .refused _ => s

/-- Section 17.3, the kick: its request is answered 61 20. -/
theorem test_msp_kick :
    (after (.mspWrite [0x02, 0x2A, 0, 0, 0x1C, 0x4B, 0, 0, 0x31]) up).msp.response = [0x61, 0x20] := by decide +kernel

/-- Section 17.3, the identity read: 61 01 00 90 5C AA. -/
theorem test_msp_identity :
    (after (.mspRead [0x01, 0, 0, 0, 0x16] 1) up).msp.response = [0x61, 0x01, 0x00, 0x90, 0x5C, 0xAA] := by decide +kernel

/-- Section 3.11: the fields of the EXCHANGE word. -/
theorem test_exchange_word :
    Ccw.ofBytes [0x05, 0x01, 0x04, 0x02, 8, 0, 9, 0, 0x00, 0x21, 0, 0, 0, 0, 0, 0x80] =
      { op := 0x05, flags := 1, tgt := 0x0204, count := 0x00090008, addr := 0x8000000000002100 } := by decide

/-- Section 2.8: a deadline across the wrap of KILN_FRAME. -/
theorem test_deadline_wrap :
    (inPast 2 0xFFFFFFFE, inPast 2 2, inPast 2 3) = (false, false, true) := by decide

/-- Section 15.11: at the Commit slice of frame 0x0001_20FF CP1 moves from unit 9 to unit 33, and unit 9 is tested. -/
theorem test_rotation :
    let s : State := { up with
      kiln := { frameRuns := true, run := true, slice := 15, frame := 0x000120FF }
      health := { units := (List.range 32).map (fun i => (i, { state := .active, logical := if i = 9 then 1 else if i = 1 then 9 else i }))
        ++ [(32, { spareSince := 5 }), (33, {}), (34, { spareSince := 6 }), (35, { spareSince := 7 })] } }
    let t := after .rotation s
    ((t.unit 33).state, (t.unit 33).logical, (t.unit 9).state, (t.unit 9).last) = (.active, 1, .testing, 1) := by decide +kernel

/-- Section 15.11: unit 9 fails the margin step; the margin goes from 4 to 3, and the record waits. -/
theorem test_rotation_retires :
    let s : State := { up with health := { units := (List.range 36).map (fun i =>
      (i, if i = 9 then { state := .testing, last := 1 } else if i < 33 then { state := .active, logical := i } else {})) } }
    let t := after (.rotationTestEnd 9 .failedMargin 31) s
    ((t.unit 9).state, s.margin 0, t.margin 0, leAt (t.health.recBuf.headD []) 16 3) = (.retired, 4, 3, 0x020003) := by decide +kernel

/-- A command the block has no resource for faults (R11). -/
theorem test_no_such_resource : exec (.flr 64) up = .fault .noSuchResource := rfl

/-- The command at the front of the queue runs first. -/
theorem test_queue_order :
    step { State.reset with pending := [.testMode true, .porstNRelease] } =
      exec (.testMode true) { State.reset with pending := [.porstNRelease] } := rfl

end Sys2Proof.Tests
end

/-! ## Proofs of the statements about the station model -/

namespace Sys2Proof

/-- A value read from a store is listed in it, or is the default. -/
theorem Store.mem_or_get_eq_default {α : Type} (m : Store α) (d : α) (k : Nat) : (k, m.get d k) ∈ m ∨ m.get d k = d := by
  induction m with
  | nil => exact .inr rfl
  | cons e rest ih =>
    obtain ⟨j, v⟩ := e
    by_cases h : j = k
    · simp [Store.get, h]
    · simpa [Store.get, h, Ne.symm h] using ih

namespace Machine

/-! ### Every command completes (R11) -/

/-- A well-formed command completes with the queue it was given, whether PORST_N is asserted or not. -/
theorem act_wellFormed_completes {i : Instr} (s : State) (f : State → State) (hw : i.wf = true) :
    ∃ t, act i s f = .next t ∧ t.pending = s.pending := by
  cases hp : s.power.porst with
  | true => exact ⟨s, act_reset hw hp, rfl⟩
  | false => exact ⟨_, act_up hw hp, finish_pending s (f s)⟩

/-- Every command is guarded by its operands and by PORST_N, or is one of those that act in reset too, whose operands are
all in range (R11, R454, R456). -/
theorem exec_act_or_always (i : Instr) (s : State) :
    (∃ f, exec i s = act i s f) ∨ (i.wf = true ∧ ∃ f, exec i s = always s f) := by
  unfold exec
  cases i
  case porstNAssert | porstNRelease | testMode | brownOut | pePerstNAssert | pePerstNRelease | jtagInstruction =>
    exact .inr ⟨rfl, _, rfl⟩
  all_goals exact .inl ⟨_, rfl⟩

/-- Settles O56: a guarded command answers by its operands, and the others always answer a next state (R11, log entry 1). -/
theorem everyCommandCompletes : Obligations.Every_command_completes := by
  intro c s
  obtain ⟨f, hact⟩ | ⟨hwf, f, halways⟩ := exec_act_or_always c s
  · rw [hact]
    exact ⟨act_wellFormed_completes s f, act_illFormed⟩
  · rw [halways]
    exact ⟨fun _ => ⟨_, rfl, finish_pending s (f s)⟩, fun hill => absurd hwf (by simp [hill])⟩

/-! ### The Commit slice (R14, R44) -/

/-- A subchannel that is not IDLE is listed. -/
theorem State.sch_mem_schs {s : State} {n : Nat} (h : (s.sch n).state ≠ .idle) : (n, s.sch n) ∈ s.schs :=
  (Store.mem_or_get_eq_default s.schs {} n).resolve_right fun hd => h (congrArg Sch.state hd)

/-- An overrun is marked for the processor of a subchannel. -/
def State.markOverran (s : State) (e : Nat × Sch) : State :=
  s.setCpAcct (e.1 / 8) { s.cpAcct (e.1 / 8) with overran := true }

/-- The subchannel runs G work: it is of class G, and neither IDLE nor ARMED (R44). -/
def State.runsG (s : State) (e : Nat × Sch) : Bool :=
  s.schCls e.1 == .g && e.2.state != .idle && e.2.state != .armed && decide (e.1 < 256)

/-- The staging image is frozen and empty, and slice 15 begins (R14). -/
def State.freezeStage (s : State) : State :=
  { s with kiln := { s.kiln with slice := 15 }, frozen := s.stage, stage := {} }

/-- The Commit slice freezes the staging image, then marks the processors whose G work still runs (R14, R44). -/
theorem State.commitBegin_eq (s : State) :
    s.commitBegin = (s.schs.filter s.runsG).foldl State.markOverran s.freezeStage := rfl

/-- Where no G work runs, the Commit slice only freezes the staging image. -/
theorem State.commitBegin_of_no_G {s : State}
    (h : s.schs.all (fun e => s.schCls e.1 != .g || e.2.state == .idle || e.2.state == .armed) = true) :
    s.commitBegin = s.freezeStage := by
  have hnone : s.schs.filter s.runsG = [] := by
    refine List.filter_eq_nil_iff.mpr fun e he => ?_
    have hidle := List.all_eq_true.mp h e he
    simp only [Bool.or_eq_true, bne_iff_ne, beq_iff_eq] at hidle
    simp only [State.runsG, Bool.and_eq_true, bne_iff_ne, beq_iff_eq]
    rintro ⟨⟨⟨hg, hbusy⟩, harmed⟩, -⟩
    obtain (hw | hi) | ha := hidle
    · exact hw hg
    · exact hbusy hi
    · exact harmed ha
  rw [State.commitBegin_eq, hnone, List.foldl_nil]

/-- Marking one subchannel's processor takes no mark away. -/
theorem State.markOverran_keeps {s : State} (e : Nat × Sch) {k : Nat} (h : (s.cpAcct k).overran = true) :
    ((s.markOverran e).cpAcct k).overran = true := by
  by_cases hk : k = e.1 / 8
  · simp [State.markOverran, hk]
  · rwa [State.markOverran, State.cpAcct_setCpAcct_other _ _ hk]

/-- Marking a list of subchannels' processors takes no mark away. -/
theorem State.foldl_markOverran_keeps (l : List (Nat × Sch)) {s : State} {k : Nat} (h : (s.cpAcct k).overran = true) :
    ((l.foldl State.markOverran s).cpAcct k).overran = true := by
  induction l generalizing s with
  | nil => exact h
  | cons e rest ih => exact ih (State.markOverran_keeps e h)

/-- Every subchannel of the list has its processor marked. -/
theorem State.foldl_markOverran_marks {l : List (Nat × Sch)} (s : State) {e : Nat × Sch} (he : e ∈ l) :
    ((l.foldl State.markOverran s).cpAcct (e.1 / 8)).overran = true := by
  induction l generalizing s with
  | nil => cases he
  | cons d rest ih =>
    cases he with
    | head => exact State.foldl_markOverran_keeps rest (by simp [State.markOverran])
    | tail _ hrest => exact ih _ hrest

/-- G work that runs in the Commit slice is an overrun of its processor (R44). -/
theorem State.commitBegin_overran {s : State} {n : Nat} (hn : n < 256) (hg : s.schCls n = .g)
    (hidle : (s.sch n).state ≠ .idle) (harmed : (s.sch n).state ≠ .armed) :
    (s.commitBegin.cpAcct (n / 8)).overran = true := by
  have hmem : (n, s.sch n) ∈ s.schs.filter s.runsG :=
    List.mem_filter.mpr ⟨State.sch_mem_schs hidle, by simp [State.runsG, hn, hg, hidle, harmed]⟩
  rw [State.commitBegin_eq]
  exact State.foldl_markOverran_marks _ hmem

/-! ### The slices of a frame (R18, R396, R499) -/

/-- The next slice of the frame (R18). -/
def State.nextSlice (s : State) : State := s.updKiln fun k => { k with slice := k.slice + 1 }

/-- SLICE_START at or past the instant of the next of slices 1 to 14 (R18, R499). -/
theorem exec_sliceStart_due {s : State} (hp : s.power.porst = false) (hrun : s.kiln.frameRuns = true)
    (hlt : s.kiln.slice < 14) (hdue : s.kiln.tickAt + (s.kiln.slice + 1) * (s.kiln.frameLen / 16) ≤ s.clk) :
    exec .sliceStart s = .next (finish s
      (if s.kiln.slice = 0 then s.nextSlice.subsAtSeg1 else s.nextSlice).startWaiting) := by
  dsimp only [exec, execSliceStart]
  rw [act_up rfl hp, if_neg (by simp [hrun, hlt, hdue])]
  rfl

/-- COMMIT_SLICE at or past the instant of slice 15. -/
theorem exec_commitSlice_due {s : State} (hp : s.power.porst = false) (hrun : s.kiln.frameRuns = true)
    (hne : s.kiln.slice ≠ 15) (hdue : s.kiln.tickAt + 15 * (s.kiln.frameLen / 16) ≤ s.clk) :
    exec .commitSlice s = .next (finish s s.commitBegin.startWaiting) := by
  have hcommit : s.inCommit = true := by simp [State.inCommit, hrun, hdue]
  dsimp only [exec, execCommitSlice]
  rw [act_up rfl hp]
  simp [hrun, hne, hcommit]

/-- The safe-state words do not depend on the Kiln. -/
theorem State.onPorts_updKiln (s : State) (g : Kiln → Kiln) (b : Nat) : (s.updKiln g).onPorts b = s.onPorts b := rfl

/-- FRAME_OVERRUN_WDG_BITE when the bite is due (R396). -/
theorem exec_frameOverrunWdgBite_due {s t : State} (hp : s.power.porst = false) (hdue : s.kiln.ovrBiteDue = true)
    (ht : t = (s.updKiln fun k => { k with ovrBiteDue := false }).safeApply 1 (s.onPorts 8) none) :
    exec .frameOverrunWdgBite s = .next (finish s (t.raiseF 0 0x0103 t.kiln.ovrFirstCp t.kiln.ovrConsec)) := by
  dsimp only [exec, execFrameOverrunWdgBite]
  rw [act_up rfl hp, if_neg (by simp [hdue]), State.onPorts_updKiln, ht]

/-- Settles O2: each clause is the effect of its command past the guards that its premises decide. -/
theorem kilnSlices : Obligations.Kiln_slices := by
  refine ⟨?slice, ?firstSlice, ?commit, ?commitOverrun, ?overrunBite⟩
  case slice =>
    intro s hp hrun hne hlt hdue
    rw [exec_sliceStart_due hp hrun hlt hdue, if_neg hne, State.nextSlice]
  case firstSlice =>
    intro s hp hrun h0 hdue
    rw [exec_sliceStart_due hp hrun (by omega) (by simpa [h0] using hdue), if_pos h0, State.nextSlice]
  case commit =>
    intro s hp hrun hne hdue hall
    rw [exec_commitSlice_due hp hrun hne hdue, State.commitBegin_of_no_G hall, State.freezeStage]
  case commitOverrun =>
    intro s n hp hrun hne hdue hn hg hidle harmed
    exact ⟨exec_commitSlice_due hp hrun hne hdue, State.commitBegin_overran hn hg hidle harmed⟩
  case overrunBite =>
    intro s hp hdue
    exact ⟨_, rfl, exec_frameOverrunWdgBite_due hp hdue rfl⟩

/-! ### The port words (R54, R58, R62, R63) -/

/-- A CCW's command has its effect when the CCW passes every check (R54). -/
theorem act_dispatch_reaches {i : Instr} {s : State} {n : Nat} {op : Byte} {c : Ccw} {step2 : State → Ccw → Bool}
    {step3 step4 : State → Ccw → Option Status} {effect : State → Ccw → State} (hi : i.wf = decide (n < 256))
    (hp : s.power.porst = false) (h : s.reaches n op c = true) (h2 : step2 (s.begun n c) c = true)
    (h3 : step3 (s.begun n c) c = none) (h4 : step4 (s.begun n c) c = none) :
    act i s (fun u => u.dispatch n op step2 step3 step4 effect) = .next (finish s (effect (s.begun n c) c)) := by
  rw [act_up (hi.trans (decide_eq_true (State.reaches_lt h))) hp, State.dispatch_reaches h h2 h3 h4]

/-- A STAGE whose operand has its port's size, lies whole in the saggar's local store and is one the port takes acts on an
enabled port of this node (R54, R62). -/
theorem exec_ccwStage_reaches {s u : State} {n : Nat} {c : Ccw} {l : List Byte} (hp : s.power.porst = false)
    (h : s.reaches n 0x0A c = true) (hu : u = s.begun n c) (h2 : u.portStep2 n c = true)
    (hsize : c.count.toNat = stageSize c.port) (hls : isLs c.addr = true) (hresv : lsResv c.addr = false)
    (halign : fld c.addr 0 3 = 0) (hrange : u.checkRange (u.schSag n) c.addr c.count.toNat = none)
    (h4 : u.portStep4 n c = none) (hl : l = u.lsRead (u.schSag n) (lsOff c.addr) c.count.toNat)
    (hclean : u.lsPoisoned (u.schSag n) (lsOff c.addr) ((c.count.toNat + 7) / 8 * 8) = false)
    (hok : stageOk c.port l = true) (hlocal : u.isRemote c = false) (hen : u.portEn c.port = true) :
    exec (.ccwStage n) s = .next (finish s (((u.stageHere n c.port l).noteStage n).instantCcw n c [])) := by
  subst hu hl
  dsimp only [exec, execCcwStage]
  refine Eq.trans (act_dispatch_reaches rfl hp h ?_ ?_ h4) ?_
  · simp [h2, hsize]
  · simp [hls, hresv, halign, hrange]
  · simp [hclean, hok, hlocal, hen]

/-- A STAGE before the instant of the Commit slice, or in a Commit slice already entered, writes the staging image as it
stands (R14). -/
theorem State.stageHere_of_entered {s : State} (n p : Nat) (bs : List Byte)
    (h : s.inCommit = false ∨ s.kiln.slice = 15) : s.stageHere n p bs = s.stagePut n p bs := by
  obtain h | h := h <;> simp [State.stageHere, h]

/-- A STAGE past the instant of a Commit slice not yet entered freezes the staging image first (R14, R18). -/
theorem State.stageHere_enters {s : State} (n p : Nat) (bs : List Byte)
    (hin : s.inCommit = true) (hne : s.kiln.slice ≠ 15) : s.stageHere n p bs = s.commitBegin.stagePut n p bs := by
  simp [State.stageHere, hin, hne]

/-- The operation of a port CCW as it begins, with the instants that its port's table gives at that moment (R58, R214). -/
def State.portOpOf (s : State) (c : Ccw) : PortOp :=
  { seq := s.tick1.serial, respNs := s.respNs c.port, byteNs := s.byteNs c.port, turnNs := s.turnNs c.port
    ovhNs := s.ovhNs c.port, ccw := c, port := c.port, node := c.node, phase := .prep, t0 := s.clk
    pieces := if c.list || !c.usesAddr then [] else [(c.addr, c.bufLen (s.ccwI2c c))]
    listNext := if c.list && c.usesAddr && c.bufLen (s.ccwI2c c) ≠ 0 then some c.addr else none }

/-- The subchannel waits with the operation of its port CCW (R58); under a halt it stays HALTING (R96). -/
def State.withPortOp (s : State) (n : Nat) (c : Ccw) : State :=
  s.tick1.updSch n fun x =>
    { x with state := if x.state == .halting then .halting else .waiting, op := some (s.portOpOf c) }

/-- A CONTROL or a CCW of another node gathers its operand first; every other joins its port's queue (R53, R58). -/
theorem State.startPortCcw_eq (s : State) (n : Nat) (c : Ccw) :
    s.startPortCcw n c =
      if c.op == 0x03 || s.isRemote c then (State.prepTx n prepFuel (s.withPortOp n c)).opReady n
      else (s.withPortOp n c).enqueueOp n (s.portOpOf c) := rfl

/-- A WRITE, READ, SENSE or EXCHANGE on this node joins its port's queue (R58, R214). -/
theorem State.startPortCcw_queued {s : State} {n : Nat} {c : Ccw} (hlocal : s.isRemote c = false) (hop : c.op ≠ 0x03) :
    s.startPortCcw n c = (s.withPortOp n c).enqueueOp n (s.portOpOf c) := by
  rw [State.startPortCcw_eq, hlocal, if_neg (by simpa using hop)]

/-- The operand of a CONTROL or of a CCW of another node is gathered before it is judged or sent (R53, R357). -/
theorem State.startPortCcw_gathers {s : State} {n : Nat} {c : Ccw} (h : s.isRemote c = true ∨ c.op = 0x03) :
    s.startPortCcw n c = (State.prepTx n prepFuel (s.withPortOp n c)).opReady n := by
  obtain h | h := h <;> simp [State.startPortCcw_eq, h]

/-- Settles O23: each word passes its checks into one effect, and the beginning of an operation splits on whether it gathers
its operand. -/
theorem portWords : Obligations.Port_words := by
  refine ⟨?write, ?read, ?control, ?sense, ?exchange, ?stage, ?stageEnters, ?snap, ?queued, ?gathers⟩
  case write | read | control | sense | exchange =>
    intro s n c hp h h2 h3 h4
    dsimp only [exec, execCcwWrite, execCcwRead, execCcwControl, execCcwSense, execCcwExchange, State.portWordCcw]
    exact act_dispatch_reaches rfl hp h h2 h3 h4
  case stage =>
    intro s n c l hp h h2 hsize hls hresv halign hrange h4 hl hclean hok hlocal hen hentered
    rw [exec_ccwStage_reaches hp h rfl h2 hsize hls hresv halign hrange h4 hl hclean hok hlocal hen,
      State.stageHere_of_entered n c.port _ hentered]
  case stageEnters =>
    intro s n c l hp h h2 hsize hls hresv halign hrange h4 hl hclean hok hlocal hen hin hne
    rw [exec_ccwStage_reaches hp h rfl h2 hsize hls hresv halign hrange h4 hl hclean hok hlocal hen,
      State.stageHere_enters n c.port _ hin hne]
  case snap =>
    intro s n c hp h h2 hsize hresv halign hrange h4 hlocal
    dsimp only [exec, execCcwSnap]
    refine Eq.trans (act_dispatch_reaches rfl hp h ?_ ?_ h4) ?_
    · simp [h2, hsize]
    · simp [hresv, halign, hrange]
    · simp [hlocal]
  case queued =>
    intro s n c o hlocal hop ho
    subst ho
    exact State.startPortCcw_queued hlocal hop
  case gathers =>
    intro s n c o hgather ho
    subst ho
    exact State.startPortCcw_gathers hgather

end Machine

end Sys2Proof

/-! ## Proofs of the statements about the Kiln, the resets and the clock -/

namespace Sys2Proof.Machine

/-! ### What an event leaves as it was (R128, R407) -/

/-- The state but for what raising an event writes: the functions' event queues with what leaves on the ordered path and through
MSI-X, the events of the slim host port, and the supervisor's causes. -/
def State.withoutEvents (s : State) : State :=
  { s with
    fns := [], path := [], msix := []
    shp := { s.shp with events := [], evLost := 0 }
    dev := { s.dev with evtPend := 0, causes := [], evtLost := 0 } }

@[simp] theorem State.hostWrite_withoutEvents (s : State) (fn : Nat) (a : DWord) (bs : List Byte) :
    (s.hostWrite fn a bs).withoutEvents = s.withoutEvents := by
  unfold State.hostWrite
  split <;> rfl

@[simp] theorem State.sendMsix_withoutEvents (s : State) (fn vec : Nat) :
    (s.sendMsix fn vec).withoutEvents = s.withoutEvents := by
  dsimp only [State.sendMsix]
  split
  · rfl
  · split <;> rfl

@[simp] theorem State.setFn_withoutEvents (s : State) (fn : Nat) (f : Fn) :
    (s.setFn fn f).withoutEvents = s.withoutEvents := rfl

@[simp] theorem State.evqPut_withoutEvents (s : State) (fn : Nat) (e : Evt) :
    (s.evqPut fn e).withoutEvents = s.withoutEvents := by
  simp [State.evqPut]

@[simp] theorem State.evqWrite_withoutEvents (s : State) (sag : Nat) (e : Evt) :
    (s.evqWrite sag e).withoutEvents = s.withoutEvents := by
  dsimp only [State.evqWrite]
  split
  · split <;> rfl
  · split
    · exact State.evqPut_withoutEvents s sag e
    · rfl

@[simp] theorem State.pend_withoutEvents (s : State) (i : Nat) : (s.pend i).withoutEvents = s.withoutEvents := rfl

@[simp] theorem State.pushCause_withoutEvents (s : State) (code object detail sag : Nat) (info : Word) :
    (s.pushCause code object detail sag info).withoutEvents = s.withoutEvents := by
  rw [← State.pend_withoutEvents s (causeBit code)]
  dsimp only [State.pushCause]
  generalize s.pend (causeBit code) = t
  split <;> rfl

/-- An event writes nothing but event queues and causes (R128, R407). -/
@[simp] theorem State.raise_withoutEvents (s : State) (sag code object detail : Nat) (info : Word) :
    (s.raise sag code object detail info).withoutEvents = s.withoutEvents := by
  rw [State.raise, State.pushCause_withoutEvents]
  split
  · exact State.evqWrite_withoutEvents ..
  · rfl

@[simp] theorem State.raiseF_kiln (s : State) (sag code object detail : Nat) :
    (s.raiseF sag code object detail).kiln = s.kiln :=
  (congrArg State.kiln (s.raise_withoutEvents sag code object detail s.kiln.frame) :)

@[simp] theorem State.raiseF_clk (s : State) (sag code object detail : Nat) :
    (s.raiseF sag code object detail).clk = s.clk :=
  (congrArg State.clk (s.raise_withoutEvents sag code object detail s.kiln.frame) :)

/-! ### The ticks of a frame (R18, R26, R45, R367, R504) -/

/-- FRAME_TICK at or past the end of the frame, its Commit slice begun: the last frame of a run closes, any other gives way to
the frame of the number from the ring's master, or of the next number (R45, R367, R504). -/
theorem exec_frameTick_due {s t : State} (hp : s.power.porst = false) (hrun : s.kiln.frameRuns = true)
    (hslice : s.kiln.slice = 15) (hdue : s.kiln.tickAt + s.kiln.frameLen ≤ s.clk)
    (ht : t = s.endFrame.adcTick.openFrame (s.kiln.frameNext.getD (s.kiln.frame + 1)) false) :
    exec .frameTick s = .next (finish s
      (if s.kiln.stopping then s.endFrame.adcTick.closeLast
       else if s.kiln.frameNext.isSome && s.kiln.frameNext != some (s.kiln.frame + 1) then t.raise 0 0x0302 0 0 t.kiln.frame
       else t)) := by
  dsimp only [exec, execFrameTick]
  rw [act_up rfl hp, if_neg (by simp [hrun, hslice, hdue]), ht]

/-- FRAME_ZERO_OPEN at or past the instant arranged for frame 0 (R26). -/
theorem exec_frameZeroOpen_due {s : State} (hp : s.power.porst = false) (hrun : s.kiln.run = true)
    (hidle : s.kiln.frameRuns = false) (hpending : s.kiln.zeroPending = true) (hdue : s.kiln.zeroAt ≤ s.clk) :
    exec .frameZeroOpen s = .next (finish s (s.openFrame 0 false)) := by
  dsimp only [exec, execFrameZeroOpen]
  rw [act_up rfl hp, if_neg (by simp [hrun, hidle, hpending, hdue])]

/-- Settles O1: what a tick opens or closes follows from the number taken from the master and from RUN being cleared. -/
theorem kilnFramesOpenAndClose : Obligations.Kiln_frames_open_and_close := by
  refine ⟨?next, ?stepped, ?taken, ?last, ?zero⟩
  case next =>
    intro s hp hrun hslice hdue hstop hnext
    simp [exec_frameTick_due hp hrun hslice hdue rfl, hstop, hnext]
  case stepped =>
    intro s f hp hrun hslice hdue hstop hnext hne
    have hstep : (s.kiln.frameNext.isSome && s.kiln.frameNext != some (s.kiln.frame + 1)) = true := by
      rw [hnext]
      simpa using hne
    rw [exec_frameTick_due hp hrun hslice hdue rfl, if_neg (by simp [hstop]), if_pos hstep, hnext, Option.getD_some]
  case taken =>
    intro s hp hrun hslice hdue hstop hnext
    simp [exec_frameTick_due hp hrun hslice hdue rfl, hstop, hnext]
  case last =>
    intro s hp hrun hslice hdue hstop
    rw [exec_frameTick_due hp hrun hslice hdue rfl, if_pos hstop]
  case zero =>
    intro s hp hrun hidle hpending hdue
    exact exec_frameZeroOpen_due hp hrun hidle hpending hdue

/-! ### The tick source (R23, R25, R26, R351) -/

/-- The edge that the Kiln uses is accepted and followed (R23, R25). -/
def State.acceptEdge (s : State) : State :=
  (s.updKiln fun k => { k with lastEdge := s.clk, awaitFirst := false }).follow s.clk

/-- The Kiln after an accepted edge at `clk`: out of holdover, with the phase error of the edge (R25). -/
def Kiln.afterEdge (k : Kiln) (clk : Nat) : Kiln :=
  Kiln.withSlewing { k with lastEdge := clk, awaitFirst := false, holdover := false, phaseErr := k.phaseOf clk }

/-- Out of holdover an accepted edge only corrects the phase. -/
theorem State.acceptEdge_of_tracking {s : State} (h : s.kiln.holdover = false) :
    s.acceptEdge = s.updKiln fun k => k.afterEdge s.clk :=
  if_neg (by simp [h])

/-- In holdover an accepted edge restores the source as well (R23). -/
theorem State.acceptEdge_of_holdover {s : State} (h : s.kiln.holdover = true) :
    s.acceptEdge = (s.updKiln fun k => k.afterEdge s.clk).raiseF 0 0x0301 0 s.kiln.src :=
  if_pos (by simp [h])

/-- Holdover is not due in holdover. -/
theorem State.tickLost_of_holdover {s : State} (h : s.kiln.holdover = true) : s.tickLost = false := by
  simp [State.tickLost, h]

/-- Source TICK_IN is lost once 1.5 periods have passed since its last edge (R23). -/
theorem State.tickLost_of_tickIn {s : State} (hrun : s.kiln.frameRuns = true) (hhold : s.kiln.holdover = false)
    (hsrc : s.kiln.src = 1) (hdue : 3 * (s.kiln.perInForce * 1000) ≤ 2 * (s.clk - s.kiln.lastEdge)) : s.tickLost = true := by
  simpa [State.tickLost, State.sourceAt, State.periodNs, hrun, hhold, hsrc] using hdue

/-- A follower of the ring has lost it once 1.5 periods have passed since the last SYNC (R351). -/
theorem State.tickLost_of_ring {s : State} {t : Nat} (hrun : s.kiln.frameRuns = true) (hhold : s.kiln.holdover = false)
    (hsrc : s.kiln.src = 2) (hmaster : s.lnk.master = false) (hsync : s.lnk.lastSync = some t)
    (hfirst : s.kiln.awaitFirst = false) (hdue : 3 * (s.kiln.perInForce * 1000) ≤ 2 * (s.clk - t)) : s.tickLost = true := by
  simpa [State.tickLost, State.sourceAt, State.periodNs, hrun, hhold, hsrc, hmaster, hsync, hfirst] using hdue

@[simp] theorem State.loseTick_clk (s : State) : s.loseTick.clk = s.clk := State.raiseF_clk ..

@[simp] theorem State.loseTick_kiln (s : State) :
    s.loseTick.kiln = Kiln.withSlewing { s.kiln with holdover := true, phaseErr := 0 } := State.raiseF_kiln ..

/-- The first edge of a run opens frame 0 (R26). -/
theorem exec_tickInEdge_opens {s : State} {e : EdgeKind} (hp : s.power.porst = false) (hused : s.tickInUsed = true)
    (hedge : (e == .falling) = s.kiln.edge) (hidle : s.kiln.frameRuns = false) (hrun : s.kiln.run = true) :
    exec (.tickInEdge e) s = .next (finish s
      ((s.updKiln fun k => { k with lastEdge := s.clk, awaitFirst := false }).openFrame 0 true)) := by
  dsimp only [exec, execTickInEdge]
  rw [act_up rfl hp, if_neg (by simp [hused, hedge]), if_pos (by simp [hidle]), if_neg (by simp [hrun])]

/-- An edge within half a period of the last accepted one is a glitch (R23). -/
theorem exec_tickInEdge_glitch {s : State} {e : EdgeKind} (hp : s.power.porst = false) (hused : s.tickInUsed = true)
    (hedge : (e == .falling) = s.kiln.edge) (hrun : s.kiln.frameRuns = true) (hfirst : s.kiln.awaitFirst = false)
    (hnear : 2 * (s.clk - s.kiln.lastEdge) < s.kiln.perInForce * 1000) :
    exec (.tickInEdge e) s = .next (finish s (s.updKiln fun k => { k with glitch := sat8 k.glitch })) := by
  have hwithin : 2 * (s.clk - s.kiln.lastEdge) < s.periodNs := hnear
  dsimp only [exec, execTickInEdge]
  rw [act_up rfl hp, if_neg (by simp [hused, hedge]), if_neg (by simp [hrun]),
    if_pos (by simp [hfirst, hwithin])]

/-- Every other edge while frames run is accepted, after the holdover that is due at its instant (R23, Table 2.11). -/
theorem exec_tickInEdge_accepted {s : State} {e : EdgeKind} (hp : s.power.porst = false) (hused : s.tickInUsed = true)
    (hedge : (e == .falling) = s.kiln.edge) (hrun : s.kiln.frameRuns = true)
    (hfar : s.kiln.awaitFirst = true ∨ s.kiln.perInForce * 1000 ≤ 2 * (s.clk - s.kiln.lastEdge)) :
    exec (.tickInEdge e) s = .next (finish s (if s.tickLost then s.loseTick else s).acceptEdge) := by
  have hgood : ¬ ((!s.kiln.awaitFirst && decide (2 * (s.clk - s.kiln.lastEdge) < s.periodNs)) = true) := by
    have hpast : s.kiln.awaitFirst = true ∨ s.periodNs ≤ 2 * (s.clk - s.kiln.lastEdge) := hfar
    obtain hfirst | hle := hpast
    · simp [hfirst]
    · simp [Nat.not_lt.mpr hle]
  dsimp only [exec, execTickInEdge]
  rw [act_up rfl hp, if_neg (by simp [hused, hedge]), if_neg (by simp [hrun]), if_neg hgood]
  rfl

/-- TICK_HOLDOVER when holdover is due (R23). -/
theorem exec_tickHoldover_due {s : State} (hp : s.power.porst = false) (hlost : s.tickLost = true) :
    exec .tickHoldover s = .next (finish s s.loseTick) := by
  dsimp only [exec, execTickHoldover]
  rw [act_up rfl hp, if_neg (by simp [hlost])]

/-- Settles O3: an edge opens, is a glitch or is accepted; what an accepted one does depends on holdover alone, and a source
found lost at its instant puts the Kiln into holdover first. -/
theorem kilnTickSource : Obligations.Kiln_tick_source := by
  refine ⟨?opens, ?glitch, ?tracked, ?restored, ?lostThenRestored, ?tickInLost, ?ringLost⟩
  case opens =>
    intro s e hp hused hedge hidle hrun
    exact exec_tickInEdge_opens hp hused hedge hidle hrun
  case glitch =>
    intro s e hp hused hedge hrun hfirst hnear
    exact exec_tickInEdge_glitch hp hused hedge hrun hfirst hnear
  case tracked =>
    intro s e hp hused hedge hrun hhold hfar hlost
    rw [exec_tickInEdge_accepted hp hused hedge hrun hfar, if_neg (by simp [hlost]), State.acceptEdge_of_tracking hhold]
    rfl
  case restored =>
    intro s e hp hused hedge hrun hhold hfar
    rw [exec_tickInEdge_accepted hp hused hedge hrun hfar, if_neg (by simp [State.tickLost_of_holdover hhold]),
      State.acceptEdge_of_holdover hhold]
    rfl
  case lostThenRestored =>
    intro s u e hp hused hedge hrun hfar hlost hu
    have hheld : s.loseTick.kiln.holdover = true := by rw [State.loseTick_kiln]; rfl
    have hsrc : s.loseTick.kiln.src = s.kiln.src := by rw [State.loseTick_kiln]; rfl
    rw [exec_tickInEdge_accepted hp hused hedge hrun hfar, if_pos hlost, State.acceptEdge_of_holdover hheld, hsrc,
      State.loseTick_clk, hu]
    rfl
  case tickInLost =>
    intro s hp hrun hhold hsrc hdue
    exact exec_tickHoldover_due hp (State.tickLost_of_tickIn hrun hhold hsrc hdue)
  case ringLost =>
    intro s t hp hrun hhold hsrc hmaster hsync hfirst hdue
    exact exec_tickHoldover_due hp (State.tickLost_of_ring hrun hhold hsrc hmaster hsync hfirst hdue)

/-! ### The registers of the Kiln (R21, R22, R25, R26, R30, R504) -/

/-- A write of a register above 0x007 once READY is set (R417). -/
theorem act_served {i : Instr} {s : State} {f : State → State} (hw : i.wf = true) (hp : s.power.porst = false)
    (hready : s.dev.ready = true) : act i s (fun u => u.served f) = .next (finish s (f s)) := by
  rw [act_up hw hp, State.served_ready hready]

/-- KILN_CTL but for RUN: TICK_OUT_EN, TRIM and OVR_LIMIT, which waits for the tick while frames run (Table 2.8, R45). -/
def State.takeCtl (s : State) (w : Word) : State :=
  s.updKiln fun k => { k with
    tickOutEn := bit w 3, trim := w.extractLsb' 16 16, ovrLimitNext := fld w 8 8
    ovrLimit := if k.frameRuns then k.ovrLimit else fld w 8 8 }

/-- The fields of KILN_CTL above RUN do not depend on RUN. -/
theorem State.takeCtl_setRun (s : State) (w : Word) (b : Bool) : s.takeCtl (setBit w 0 b) = s.takeCtl w := by
  have h3 : bit (setBit w 0 b) 3 = bit w 3 := by rw [bit_setBit, if_neg (by decide)]
  have htrim : (setBit w 0 b).extractLsb' 16 16 = w.extractLsb' 16 16 := extract_setBit w 0 16 16 b (by decide)
  have hlimit : fld (setBit w 0 b) 8 8 = fld w 8 8 := fld_setBit w 0 8 8 b (by decide)
  simp only [State.takeCtl, h3, htrim, hlimit]

/-- A write of KILN_CTL with a valid TRIM to the unlocked block takes its fields, then RUN (Table 2.8, R29). -/
theorem State.kilnCtlWrite_unlocked {s : State} {w : Word} (hlock : s.dev.lock = false)
    (htrim : w.extractLsb' 16 16 ≠ 0x8000) :
    s.kilnCtlWrite w = if bit w 0 then (s.takeCtl w).runSet else (s.takeCtl w).runClear := by
  simp only [State.kilnCtlWrite, hlock, Bool.false_and, Bool.false_eq_true, if_false]
  rw [if_neg htrim, if_neg (by simp [hlock])]
  rfl

/-- RUN_START and RUN_STOP write RUN; the other fields are those of the word. -/
theorem State.kilnCtlWrite_setRun {s : State} {w : Word} (b : Bool) (hlock : s.dev.lock = false)
    (htrim : w.extractLsb' 16 16 ≠ 0x8000) :
    s.kilnCtlWrite (setBit w 0 b) = if b then (s.takeCtl w).runSet else (s.takeCtl w).runClear := by
  have hbit : bit (setBit w 0 b) 0 = b := by simp [bit_setBit]
  rw [State.kilnCtlWrite_unlocked hlock (by rwa [extract_setBit w 0 16 16 b (by decide)]), hbit, State.takeCtl_setRun]

/-- While no frame runs OVR_LIMIT is in force at once (R45). -/
theorem State.takeCtl_stopped {s : State} (w : Word) (hidle : s.kiln.frameRuns = false) :
    s.takeCtl w = s.updKiln fun k => { k with
      tickOutEn := bit w 3, trim := w.extractLsb' 16 16, ovrLimitNext := fld w 8 8, ovrLimit := fld w 8 8 } := by
  simp [State.takeCtl, State.updKiln, hidle]

/-- While frames run the limit in force stays (R45). -/
theorem State.takeCtl_running {s : State} (w : Word) (hrun : s.kiln.frameRuns = true) :
    s.takeCtl w = s.updKiln fun k => { k with
      tickOutEn := bit w 3, trim := w.extractLsb' 16 16, ovrLimitNext := fld w 8 8 } := by
  simp [State.takeCtl, State.updKiln, hrun]

/-- RUN set with no run in progress or ending arranges frame 0 (R26). -/
theorem State.runSet_arranges {s : State} (hrun : s.kiln.run = false) (hstop : s.kiln.stopping = false) :
    s.runSet = (s.updKiln fun k => { k with
      run := true, awaitFirst := true, lastEdge := s.clk, zeroPending := k.src == 0, zeroAt := s.clk + 1000 }).updLnk
        fun l => { l with runSince := s.clk, lastSync := none } :=
  (if_neg (by simp [hrun])).trans (if_neg (by simp [hstop]))

/-- RUN cleared with no G queue makes the frame in progress the last (R504). -/
theorem State.runClear_ends {s : State} (hrun : s.kiln.run = true) (hg : s.gQueueExists = false)
    (hframes : s.kiln.frameRuns = true) :
    s.runClear = s.updKiln fun k => { k with run := false, stopping := true } :=
  (if_neg (by simp [hrun])).trans ((if_neg (by simp [hg])).trans (if_pos hframes))

/-- RUN_START with a valid TRIM on the unlocked block (R26). -/
theorem exec_runStart_unlocked {s : State} {w : Word} (hp : s.power.porst = false) (hready : s.dev.ready = true)
    (hlock : s.dev.lock = false) (htrim : w.extractLsb' 16 16 ≠ 0x8000#16) :
    exec (.runStart w) s = .next (finish s (s.takeCtl w).runSet) := by
  dsimp only [exec, execRunStart]
  rw [act_served rfl hp hready, State.kilnCtlWrite_setRun true hlock htrim, if_pos rfl]

/-- RUN_STOP with a valid TRIM on the unlocked block (R504). -/
theorem exec_runStop_unlocked {s : State} {w : Word} (hp : s.power.porst = false) (hready : s.dev.ready = true)
    (hlock : s.dev.lock = false) (htrim : w.extractLsb' 16 16 ≠ 0x8000#16) :
    exec (.runStop w) s = .next (finish s (s.takeCtl w).runClear) := by
  dsimp only [exec, execRunStop]
  rw [act_served rfl hp hready, State.kilnCtlWrite_setRun false hlock htrim, if_neg Bool.false_ne_true]

/-- A KILN_PER in range is taken with no G queue, and RUN clear or source INTERNAL: at once while no frame runs, else at a
coming tick (R21). -/
theorem State.kilnPerWrite_taken {s : State} {w : Word} (hlock : s.dev.lock = false) (hmin : 50 ≤ fld w 0 17)
    (hmax : fld w 0 17 ≤ 100000) (hg : s.gQueueExists = false) (hfree : s.kiln.run = false ∨ s.kiln.src = 0) :
    s.kilnPerWrite w =
      if s.kiln.frameRuns then s.updKiln fun k => { k with
        per := fld w 0 17
        perPend := (k.perPend.filter fun e => decide (e.1 < if s.inCommit then 2 else 1)) ++
          [(if s.inCommit then 2 else 1, fld w 0 17)] }
      else s.updKiln fun k => { k with per := fld w 0 17, perInForce := fld w 0 17, perPend := [] } := by
  have hsrc : s.kiln.run = true → s.kiln.src = 0 := fun hrun => hfree.resolve_left (by simp [hrun])
  dsimp only [State.kilnPerWrite]
  rw [if_neg (by simp [hlock]), if_neg (by simpa [hmin, hmax, hg] using hsrc)]
  cases s.kiln.frameRuns <;> rfl

/-- A KILN_SRC that names another source is taken off the ring (Table 2.9, R22). -/
theorem State.kilnSrcWrite_changes {s : State} {w : Word} (hlock : s.dev.lock = false) (hvalid : fld w 0 2 ≠ 3)
    (hring : s.lnk.en = false) (hne : fld w 0 2 ≠ s.kiln.src) :
    s.kilnSrcWrite w = (s.updKiln fun k => { k with edge := bit w 2 }).setSource (fld w 0 2) := by
  dsimp only [State.kilnSrcWrite]
  rw [if_neg (by simp [hlock]), if_neg (by simp [hvalid, hring]), if_neg hne]

/-- KILN_SRC_WRITE of another source on the unlocked block, off the ring. -/
theorem exec_kilnSrcWrite_changes {s : State} {w : Word} (hp : s.power.porst = false) (hready : s.dev.ready = true)
    (hlock : s.dev.lock = false) (hvalid : fld w 0 2 ≠ 3) (hne : fld w 0 2 ≠ s.kiln.src) (hring : s.lnk.en = false) :
    exec (.kilnSrcWrite w) s =
      .next (finish s ((s.updKiln fun k => { k with edge := bit w 2 }).setSource (fld w 0 2))) := by
  dsimp only [exec, execKilnSrcWrite]
  rw [act_served rfl hp hready, State.kilnSrcWrite_changes hlock hvalid hring hne]

/-- Another source while no frame runs: frame 0 is arranged anew (R26). -/
theorem State.setSource_stopped {s : State} (src : Nat) (hidle : s.kiln.frameRuns = false) :
    s.setSource src = (s.updKiln fun k => { k with
      src, awaitFirst := true, lastEdge := s.clk, zeroPending := k.run && src == 0, zeroAt := s.clk + 1000
      zeroByEdge := false }).updLnk fun l => { l with runSince := s.clk } :=
  if_neg (by simp [hidle])

/-- An outside source while frames run: its first edge is awaited (R25). -/
theorem State.setSource_outside {s : State} {src : Nat} (hrun : s.kiln.frameRuns = true) (hsrc : src ≠ 0) :
    s.setSource src = s.updKiln fun k => Kiln.withSlewing
      { k with src, awaitFirst := true, lastEdge := s.clk, phaseErr := 0 } :=
  (if_pos hrun).trans (if_neg hsrc)

/-- INTERNAL out of holdover while frames run: the slew in progress ends (R25, log entry 84). -/
theorem State.setSource_internal {s : State} (hrun : s.kiln.frameRuns = true) (hhold : s.kiln.holdover = false) :
    s.setSource 0 = s.updKiln fun k => Kiln.withSlewing
      { k with src := 0, holdover := false, phaseErr := 0, tickSlew := false } :=
  (if_pos hrun).trans ((if_pos rfl).trans (if_neg (by simp [hhold])))

/-- STIME_ADJ once READY is set (R30). -/
theorem exec_stimeAdj_ready {s : State} (w : Word) (hp : s.power.porst = false) (hready : s.dev.ready = true) :
    exec (.stimeAdj w) s = .next (finish s (s.stimeAdjust w.toInt)) := by
  dsimp only [exec, execStimeAdj]
  rw [act_served rfl hp hready]

/-- Settles O4: a write that its register takes, then what RUN, the period, the source or the offset does in each state of the
Kiln. -/
theorem kilnRegisterWrites : Obligations.Kiln_register_writes := by
  refine ⟨?runStart, ?runStop, ?perStopped, ?perRunning, ?srcStopped, ?srcOutside, ?srcInternal, ?adjUp, ?adjDown, ?adjSlewed⟩
  case runStart =>
    intro s w hp hready hlock htrim hrun hstop hidle
    rw [exec_runStart_unlocked hp hready hlock htrim, State.takeCtl_stopped w hidle, State.runSet_arranges]
    · rfl
    · exact hrun
    · exact hstop
  case runStop =>
    intro s w hp hready hlock htrim hrun hframes hg
    rw [exec_runStop_unlocked hp hready hlock htrim, State.takeCtl_running w hframes, State.runClear_ends]
    · rfl
    · exact hrun
    · exact hg
    · exact hframes
  case perStopped =>
    intro s w hp hready hlock hmin hmax hg hidle hfree
    dsimp only [exec, execKilnPerWrite]
    rw [act_served rfl hp hready, State.kilnPerWrite_taken hlock hmin hmax hg hfree, if_neg (by simp [hidle])]
  case perRunning =>
    intro s w hp hready hlock hmin hmax hg hrun hfree hcommit hpend
    dsimp only [exec, execKilnPerWrite]
    rw [act_served rfl hp hready, State.kilnPerWrite_taken hlock hmin hmax hg hfree, if_pos hrun]
    simp [State.updKiln, hcommit, hpend]
  case srcStopped =>
    intro s w hp hready hlock hvalid hne hring hidle
    rw [exec_kilnSrcWrite_changes hp hready hlock hvalid hne hring, State.setSource_stopped]
    · rfl
    · exact hidle
  case srcOutside =>
    intro s w hp hready hlock hvalid hne hring hrun hsrc
    rw [exec_kilnSrcWrite_changes hp hready hlock hvalid hne hring, State.setSource_outside]
    · rfl
    · exact hrun
    · exact hsrc
  case srcInternal =>
    intro s w hp hready hlock hsrc hring hrun hw hhold
    rw [exec_kilnSrcWrite_changes hp hready hlock (by omega) (by omega) hring, hw, State.setSource_internal]
    · rfl
    · exact hrun
    · exact hhold
  case adjUp =>
    intro s w hp hready hidle hpos
    rw [exec_stimeAdj_ready w hp hready, State.stimeAdjust, if_neg (by simp [hidle]), if_pos hpos]
  case adjDown =>
    intro s w hp hready hidle hneg
    rw [exec_stimeAdj_ready w hp hready, State.stimeAdjust, if_neg (by simp [hidle]), if_neg (by omega)]
  case adjSlewed =>
    intro s w hp hready hrun
    rw [exec_stimeAdj_ready w hp hready, State.stimeAdjust, if_pos hrun]

/-! ### Station time and TICK_OUT (R27, R28) -/

/-- Settles O5: READY decides what STIME_LO_READ reads, and the pulse's instant whether TICK_OUT falls. -/
theorem kilnStationTime : Obligations.Kiln_station_time := by
  refine ⟨?stimeLo, ?pulseEnd⟩
  case stimeLo =>
    intro s hp hready
    dsimp only [exec, execStimeLoRead]
    rw [act_up rfl hp, if_pos hready]
    rfl
  case pulseEnd =>
    intro s hp hhigh hdue
    dsimp only [exec, execTickOutPulseEnd]
    rw [act_up rfl hp, if_pos (by simp [hhigh, hdue])]

/-! ### Resets, bisque and the JTAG instruction (R28, R454 to R461, R469, R488) -/

/-- BISQUE_END of a bisque (R458, R460). -/
theorem exec_bisqueEnd_runs {s u v w : State} (hp : s.power.porst = false) (hbisque : s.power.bisque = true)
    (hu : u = s.bisqueWork) (hv : v = if u.dev.autoload then u.autoloadStep else u)
    (hw : w = { v with
      power := { v.power with bisque := false, bisqueWarm := false }
      dev := { v.dev with step := 0xFF, ready := true, bisqueFail := v.health.failMap != 0 } }) :
    exec .bisqueEnd s = .next (finish s
      ((w.fns.filter fun e => e.2.enHeld).foldl (fun s e => s.admTryEnable e.1) w).shpRefresh.jrnWork.work) := by
  rw [hw, hv, hu]
  dsimp -zeta only [exec, execBisqueEnd]
  rw [act_up rfl hp, if_neg (by simp [hbisque])]

/-- JTAG_INSTRUCTION: the codes 0 to 3 are taken, and 0 and 1 alone reach the boundary register (R488). -/
theorem exec_jtagInstruction (s : State) (l : JtagLoad) :
    exec (.jtagInstruction l) s = .next (finish s { s with power := { s.power with
      jtagIr := if l.ir.toNat < 4 then l.ir else 0b111111
      boundary := if l.ir.toNat < 2 then l.scan.getD s.power.boundary else s.power.boundary } }) := rfl

/-- Settles O46: each command past the guard that its premise decides. -/
theorem resetsAndBisque : Obligations.Resets_and_bisque := by
  refine ⟨?assert, ?brownOut, ?release, ?testHigh, ?testLow, ?warmAssert, ?warmRelease, ?bisqueEnd, ?boundary, ?taken,
    ?bypass⟩
  case assert =>
    intro s hp
    dsimp only [exec, execPorstNAssert, always]
    rw [if_neg (by simp [hp])]
  case brownOut =>
    intro s hp
    dsimp only [exec, execBrownOut, always]
    rw [if_neg (by simp [hp])]
  case release =>
    intro s hp
    dsimp only [exec, execPorstNRelease, always]
    rw [if_neg (by simp [hp])]
  case testHigh =>
    rintro s b rfl
    rfl
  case testLow =>
    rintro s b rfl
    rfl
  case warmAssert =>
    intro s hp hpin
    dsimp only [exec, execWarmNAssert]
    rw [act_up rfl hp, if_neg (by simp [hpin])]
  case warmRelease =>
    intro s hp hpin
    dsimp only [exec, execWarmNRelease]
    rw [act_up rfl hp, if_pos hpin]
  case bisqueEnd =>
    intro s u v w hp hbisque hu hv hw
    exact exec_bisqueEnd_runs hp hbisque hu hv hw
  case boundary =>
    intro s l hcode
    rw [exec_jtagInstruction, if_pos (by omega), if_pos hcode]
  case taken =>
    intro s l hmin hmax
    rw [exec_jtagInstruction, if_pos hmax, if_neg (by omega)]
  case bypass =>
    intro s l hcode
    rw [exec_jtagInstruction, if_neg (by omega), if_neg (by omega)]

/-! ### The clock (R28, R29, R30, log entry 1) -/

/-- The account of TRIM after one nanosecond of the reference (R29). -/
def Kiln.trimNext (k : Kiln) : Int := k.trimAcc + if k.src = 0 ∨ k.holdover = true then k.trim.toInt else 0

theorem Kiln.trimmed_iff (k : Kiln) : k.trimmed = true ↔ k.src = 0 ∨ k.holdover = true := by
  simp [Kiln.trimmed]

/-- The steps of a bisque go on without the clock, STIME and the Kiln. -/
@[simp] theorem State.bisqueTick_keeps (s : State) :
    s.bisqueTick.clk = s.clk ∧ s.bisqueTick.stime = s.stime ∧ s.bisqueTick.kiln = s.kiln := by
  dsimp only [State.bisqueTick]
  split
  · exact ⟨rfl, rfl, rfl⟩
  · split <;> exact ⟨rfl, rfl, rfl⟩

/-- Slewing moves neither the clock nor the account of TRIM. -/
@[simp] theorem State.clockTick_keeps (s : State) :
    s.clockTick.clk = s.clk + 1 ∧ s.clockTick.kiln.trimAcc = s.kiln.trimAcc := by
  dsimp only [State.clockTick, State.stimeTick]
  split
  · exact ⟨rfl, rfl⟩
  · split <;> exact ⟨rfl, rfl⟩

/-- For one nanosecond STIME advances by one, or by two or none while an offset is slewed in (R28, R30). -/
theorem State.clockTick_stime (s : State) :
    (s.clockTick.stime = s.stime + 1 ∧ s.clockTick.kiln = s.kiln) ∨
    (s.kiln.frameRuns = true ∧ s.kiln.stimeUsed < 1000 ∧ s.clockTick.kiln.stimeUsed = s.kiln.stimeUsed + 1 ∧
      ((0 < s.kiln.stimeSlew ∧ s.clockTick.stime = s.stime + 2 ∧ s.clockTick.kiln.stimeSlew = s.kiln.stimeSlew - 1) ∨
       (s.kiln.stimeSlew < 0 ∧ s.clockTick.stime = s.stime ∧ s.clockTick.kiln.stimeSlew = s.kiln.stimeSlew + 1))) := by
  dsimp only [State.clockTick, State.stimeTick]
  split
  next => exact .inl ⟨rfl, rfl⟩
  next hslews =>
    obtain ⟨⟨hrun, hslew⟩, hused⟩ :
        (s.kiln.frameRuns = true ∧ ¬ s.kiln.stimeSlew = 0) ∧ s.kiln.stimeUsed < 1000 := by
      simpa only [Bool.or_eq_true, Bool.not_eq_true', decide_eq_true_eq, not_or, Bool.not_eq_false, Nat.not_le]
        using hslews
    refine .inr ⟨hrun, ?_⟩
    split
    next hup => exact ⟨hused, rfl, .inl ⟨hup, rfl, rfl⟩⟩
    next hdown => exact ⟨hused, rfl, .inr ⟨by omega, rfl, rfl⟩⟩

/-- Out of reset a nanosecond of the reference is one of the station clock, or by TRIM two or none (R29). -/
theorem idle_up {s : State} (hp : s.power.porst = false) :
    idle s =
      (if 1000000000 ≤ s.kiln.trimNext then
        (s.updKiln fun k => { k with trimAcc := s.kiln.trimNext - 1000000000 }).clockTick.clockTick
       else if s.kiln.trimNext ≤ -1000000000 then s.updKiln fun k => { k with trimAcc := s.kiln.trimNext + 1000000000 }
       else (s.updKiln fun k => { k with trimAcc := s.kiln.trimNext }).clockTick).bisqueTick := by
  dsimp only [idle]
  rw [if_neg (by simp [hp])]
  simp only [Kiln.trimmed_iff]
  rfl

/-- Settles O60: the account decides how many nanoseconds pass, and STIME follows each of them. -/
theorem clockAdvances : Obligations.Clock_advances := by
  intro s acc hempty hp hacc
  change acc = s.kiln.trimNext at hacc
  subst hacc
  have hstep : step s = .next (idle s) := by rw [step, hempty]
  refine ⟨idle s, hstep, ?one, ?two, ?none⟩
  case one =>
    intro hlow hhigh
    rw [idle_up hp, if_neg (by omega), if_neg (by omega)]
    refine ⟨by simp, by simp, ?_⟩
    simpa using State.clockTick_stime (s.updKiln fun k => { k with trimAcc := s.kiln.trimNext })
  case two =>
    intro hhigh
    rw [idle_up hp, if_pos hhigh]
    simp
  case none =>
    intro hlow
    rw [idle_up hp, if_neg (by omega), if_pos hlow]
    simp

end Sys2Proof.Machine

/-! ## Proofs of the statements about the words of a program -/

namespace Sys2Proof.Machine

/-- A command whose operands are bounded in one number alone has its effect when that number is in range (R11). -/
theorem act_numbered {i : Instr} {s : State} {f : State → State} {k limit : Nat} (hi : i.wf = decide (k < limit))
    (hk : k < limit) (hp : s.power.porst = false) : act i s f = .next (finish s (f s)) :=
  act_up (hi.trans (decide_eq_true hk)) hp

/-! ### The flags of a CCW (R48, Table 3.3) -/

/-- The command of each opcode for subchannel `n`, with the flags that Table 3.3 marks for the opcode. -/
def ccwTable (n : Nat) : List (Instr × Byte × Byte) :=
  [(.ccwWrite n, 0x01, 0b11110111), (.ccwRead n, 0x02, 0b11111111), (.ccwControl n, 0x03, 0b11110101),
   (.ccwSense n, 0x04, 0b11111101), (.ccwExchange n, 0x05, 0b11111101), (.ccwStage n, 0x0A, 0b01100001),
   (.ccwSnap n, 0x0B, 0b01100001), (.ccwMove n, 0x08, 0b01100001), (.ccwFence n, 0x09, 0b01100001),
   (.ccwNop n, 0x0F, 0b01100001), (.ccwTest n, 0x11, 0b01100001), (.ccwWaitt n, 0x12, 0b01100001),
   (.ccwWaitc n, 0x13, 0b01100001), (.ccwWaitf n, 0x14, 0b01100001), (.ccwLoop n, 0x15, 0b01100001),
   (.ccwSetc n, 0x16, 0b01100001), (.ccwPost n, 0x18, 0b01100001), (.ccwSignal n, 0x19, 0b01100001),
   (.ccwClaim n, 0x1C, 0b01100001), (.ccwRelease n, 0x1D, 0b01100001), (.ccwJappend n, 0x20, 0b01100001),
   (.ccwJump n, 0x10, 0), (.ccwColophon n, 0x7F, 0b01000000)]

/-- A row of the table names a defined opcode with the flags it permits, and its command dispatches that opcode, whatever checks and
effect the opcode brings. -/
structure DispatchesOpcode (n : Nat) (row : Instr × Byte × Byte) : Prop where
  defined : definedOp row.2.1 = true
  permits : flagsOf row.2.1 = row.2.2
  wf : row.1.wf = decide (n < 256)
  dispatches : ∀ s, ∃ step2 step3 step4 effect,
    exec row.1 s = act row.1 s fun u => u.dispatch n row.2.1 step2 step3 step4 effect

theorem ccwTable_dispatches (n : Nat) : ∀ row ∈ ccwTable n, DispatchesOpcode n row := by
  simp only [ccwTable, List.forall_mem_cons, List.not_mem_nil, false_implies, implies_true, and_true]
  and_intros
  all_goals exact ⟨rfl, rfl, rfl, fun _ => ⟨_, _, _, _, rfl⟩⟩

/-- A flag that the opcode does not permit fails step 1 (R48, R54). -/
theorem Ccw.step1_of_flag_unmarked {c : Ccw} (h : c.flags &&& ~~~ flagsOf c.op ≠ 0) : c.step1 = false := by
  rw [Ccw.step1, beq_eq_false_iff_ne.mpr h]
  simp

/-- A CCW that fails step 1 ends its program before any other check of R54 is made. -/
theorem State.dispatch_step1_fails {s : State} {n : Nat} {c : Ccw} {op : Byte} {step2 : State → Ccw → Bool}
    {step3 step4 : State → Ccw → Option Status} {effect : State → Ccw → State} (hchosen : s.chosen n = true)
    (hat : s.ccwAt n = .ok c) (hdef : definedOp c.op = true) (hop : c.op = op) (h1 : c.step1 = false) :
    s.dispatch n op step2 step3 step4 effect = (s.begun n c).ccwFail n c .programCheck := by
  subst hop
  simp [State.dispatch, hchosen, hat, hdef, h1, State.begun]

/-- Settles O52: each of the opcodes dispatches by R54, whose step 1 refuses the flag. -/
theorem flagsPermitted : Obligations.Flags_permitted := by
  intro s n c cmd op m hp hn hchosen hat hrow hop hflags
  obtain ⟨hdef, hpermits, hwf, hdispatch⟩ := ccwTable_dispatches n (cmd, op, m) hrow
  obtain ⟨_, _, _, _, hexec⟩ := hdispatch s
  subst hop
  have h1 : c.step1 = false := Ccw.step1_of_flag_unmarked (by rwa [hpermits])
  rw [hexec, act_numbered hwf hn hp, State.dispatch_step1_fails hchosen hat hdef rfl h1]

/-! ### The wait words (R67, R68, R69) -/

/-- Settles O21: a wait word past R54 waits where its own guards say so, and the end of a wait acts where its instant, condition
or tick has come. -/
theorem waitWords : Obligations.Wait_words := by
  refine ⟨?waitt, ?waitc, ?waitfTicks, ?waitfFrame, ?expiry, ?condTrue, ?timeout, ?ticksDone, ?frameDone⟩
  case waitt =>
    intro s n c hp h hcount
    exact act_dispatch_reaches rfl hp h (by simpa using hcount) rfl rfl
  case waitc =>
    intro s n c hp h hvalid hright hcond hlimit
    refine (act_dispatch_reaches rfl hp h hvalid rfl hright).trans ?_
    simp [hcond, hlimit]
  case waitfTicks =>
    intro s n c hp h hticks hcount
    refine (act_dispatch_reaches rfl hp h (by simpa [hticks] using hcount) rfl rfl).trans ?_
    simp [hticks]
  case waitfFrame =>
    intro s n c hp h hframe hnow hpast
    refine (act_dispatch_reaches rfl hp h (by simp [hframe]) rfl rfl).trans ?_
    simp [hframe, hnow, hpast]
  case expiry =>
    intro s n d hp hn hwait hdue
    dsimp only [exec, execWaittExpiry]
    rw [act_numbered rfl hn hp]
    simp [hwait, hdue]
  case condTrue =>
    intro s n k i d hp hn hwait hcond htime
    dsimp only [exec, execWaitcTrue]
    rw [act_numbered rfl hn hp]
    simp [hwait, hcond, htime]
  case timeout =>
    intro s n k i d hp hn hwait hdue
    dsimp only [exec, execWaitcTimeout]
    rw [act_numbered rfl hn hp]
    simp [hwait, timedOut, hdue]
  case ticksDone =>
    intro s n hp hn hwait
    dsimp only [exec, execWaitfDone]
    rw [act_numbered rfl hn hp]
    simp [hwait]
  case frameDone =>
    intro s n f hp hn hwait hopen
    dsimp only [exec, execWaitfDone]
    rw [act_numbered rfl hn hp]
    simp [hwait, hopen]

/-! ### The instants of a transfer (R58, R59, R213, R215, R223, R224, R247) -/

/-- The transmission of a subchannel without an operation ends at its last bit (R223, R247). -/
theorem State.transmitEnds_due {s u : State} {p n : Nat} (hop : (s.sch n).op = none) (howner : (s.port p).txOwner = some n)
    (hend : (s.port p).txEnd ≤ s.clk) (hspan : (s.sch n).spanOn p = false)
    (hu : u = ((s.sampleReqsAt p n ((s.port p).txEnd - s.charNs p)).drained p).freeLine p) :
    s.transmitEnds p n = ((if (s.port p).brkPt then (u.breakPoint p n).2 else u).liveCheck p).work := by
  subst hu
  simp [State.transmitEnds, hop, howner, hspan, Nat.not_lt.mpr hend]

/-- A write of a port leaves every subchannel as it was. -/
theorem State.sch_setPort (s : State) (p n : Nat) (x : Port) : (s.setPort p x).sch n = s.sch n := rfl

/-- Settles O24: each command past the guards that its premises decide. -/
theorem transferEnds : Obligations.Transfer_ends := by
  refine ⟨?ended, ?lineEnds, ?entered, ?transmitted, ?released, ?exchange, ?read, ?timeout, ?idle, ?discarded, ?frameEnds⟩
  case ended =>
    intro s n o e hp hn hop hphase hdue hplaced
    dsimp only [exec, execPortTransferEnd]
    rw [act_numbered rfl hn hp]
    simp [hop, hphase, hdue, hplaced]
  case lineEnds =>
    intro s n o e hp hn hop hphase hkind hcontrol hchar
    dsimp only [exec, execPortTransferEnd]
    rw [act_numbered rfl hn hp]
    simp [hop, hphase, hkind, hchar, show ¬ o.ccw.op = 3#8 from hcontrol]
  case entered =>
    intro s n o e hp hn hop hphase hkind hwrite hchar hroom
    dsimp only [exec, execPortTransferEnd]
    rw [act_numbered rfl hn hp]
    simp [hop, hphase, hkind, hwrite, hchar, hroom]
  case transmitted =>
    intro s u n p e hp hn hop hline howner hend hspan hu
    dsimp only [exec, execPortTransferEnd]
    rw [act_numbered rfl hn hp]
    simp only [hop, hline]
    rw [State.transmitEnds_due hop howner hend hspan hu]
  case released =>
    intro s p hp hlt hkind hchar hbusy hdue
    dsimp only [exec, execLineTurnaround]
    rw [act_numbered rfl hlt hp]
    simp [hkind, hchar, hbusy, State.releaseDe, hdue]
  case exchange =>
    intro s u p n o hp hlt hkind hchar hbusy hu hheld hop hport hphase hexchange hdue hrx
    subst hu
    dsimp only [exec, execLineTurnaround]
    rw [act_numbered rfl hlt hp]
    simp [hkind, hchar, hbusy, hheld, hop, hport, hphase, hexchange, hdue, hrx, State.openReceiver]
  case read =>
    intro s u p n o hp hlt hkind hchar hbusy hu hheld hop hport hphase hread hdue
    subst hu
    dsimp only [exec, execLineTurnaround]
    rw [act_numbered rfl hlt hp]
    simp [hkind, hchar, hbusy, hheld, hop, hport, hphase, hread, hdue, State.openReceiver]
  case timeout =>
    intro s n o hp hn hop hphase hdue
    dsimp only [exec, execPortTimeout]
    rw [act_numbered rfl hn hp]
    simp [hop, hphase, hdue]
  case idle =>
    intro s n o hp hn hop hphase hread hdue
    dsimp only [exec, execReadIdleEnd]
    rw [act_numbered rfl hn hp]
    simp [hop, hphase, hread, hdue]
  case discarded =>
    intro s p g hp hlt hkind hchar hgap hdue hbusy
    dsimp only [exec, execEndOfFrame]
    rw [act_numbered rfl hlt hp]
    simp [hkind, hchar, hgap, Nat.not_lt.mpr hdue, hbusy]
  case frameEnds =>
    intro s p g n o hp hlt hkind hchar hgap hdue hbusy hop hport hphase hframe
    dsimp only [exec, execEndOfFrame]
    rw [act_numbered rfl hlt hp]
    simp [hkind, hchar, hgap, Nat.not_lt.mpr hdue, hbusy, State.sch_setPort, hop, hport, hphase, hframe]

/-! ### The words that hand over (R54, R70, R75, R206) -/

/-- Settles O30: a valid descriptor passes each check of its word, and an unfailed channel or an engine left takes it. -/
theorem wordsThatHandOver : Obligations.Words_that_hand_over := by
  refine ⟨?move, ?jappend⟩
  case move =>
    intro s n c g hp h hresv hdesc hclean hg hok hen hsag hgres hrights hfailed
    subst hg
    refine (act_dispatch_reaches rfl hp h ?_ ?_ ?_).trans ?_
    · simp [hresv, hok, hen]
    · simp [hdesc]
    · simp [hclean, hsag, hrights, hgres]
    · simp [hfailed]
  case jappend =>
    intro s n c d u j hp h hcount hresv hdesc hclean hd hok halign hrange hns hwrite hengine hu hj
    subst hd hu hj
    refine (act_dispatch_reaches rfl hp h ?_ ?_ ?_).trans ?_
    · simp [hcount, hresv, hok]
    · simp [hdesc, hclean, halign, hrange]
    · simp [hclean, hns, hwrite]
    · refine congrArg (fun t => Host.Outcome.next (finish s t)) (if_neg ?_)
      simp [hengine]

end Sys2Proof.Machine

/-! ## Proofs of the statements about doorbells, fetch, channel entries, watchdogs and edges -/

namespace Sys2Proof.Machine

/-! ### The heartbeat (R173, R174, R175) -/

/-- The report of a lost heartbeat: the timer stops, the heartbeat is down, the loss is counted and raised with HALT's bit
(R174). -/
def State.reportLoss (s : State) (g : Nat) : State :=
  (s.updSag g fun x => { x with hbSince := none, hbDown := true, hbLost := sat16 x.hbLost }).raiseF 0 0x0100 g
    (b2n (s.sag g).hbHalt)

/-- The autonomous queues of a saggar end as they drain (R174). -/
def State.endAutos (s : State) (g : Nat) : State :=
  { s with autos := s.autos.map fun e => (e.1, e.2.map fun a => if a.sag == g then { a with ending := true } else a) }

/-- The programs of a saggar halt in the order of their queues (R174). -/
def State.haltPrograms (s : State) (g : Nat) : State :=
  (sortBy (fun n => ((s.sch n).owner.map QRef.order).getD 0) (s.schsOfSag g)).foldl (fun x n => x.haltSch n .heartbeat) s

/-- Every autonomous queue that ends and has drained is gone (R174). -/
def State.endDrained (s : State) : State := s.autos.foldl (fun x e => x.autoCheck (.auto e.1)) s

/-- The autonomous queues that have drained end, and the saggar's ACTUATE ports take cause 0, SAG (R174, Table 16.3). -/
def State.makeSafe (s : State) (g : Nat) : State := s.endDrained.safeApply 0 (s.endDrained.actPorts g) none

/-- What a heartbeat whose timer was armed at `t` comes to: nothing before its period is over, else its report, and with HALT what
follows it (R174). -/
def State.hbJudge (s : State) (g t : Nat) : State :=
  if (s.sag g).hbPer = 0 || s.clk < t + 1000000 * (s.sag g).hbPer then s
  else if !(s.sag g).hbHalt then s.reportLoss g
  else (((s.reportLoss g).endAutos g).haltPrograms g).makeSafe g

theorem State.hbLose_eq (s : State) (g : Nat) : s.hbLose g = (s.sag g).hbSince.elim s (s.hbJudge g) := by
  dsimp only [State.hbLose]
  cases (s.sag g).hbSince <;> rfl

/-- The loss of a heartbeat whose period is over: its report, and with HALT what follows it (R174). -/
theorem State.hbLose_due {s : State} {g t : Nat} (hsince : (s.sag g).hbSince = some t) (hper : (s.sag g).hbPer ≠ 0)
    (hdue : t + 1000000 * (s.sag g).hbPer ≤ s.clk) :
    s.hbLose g =
      if (s.sag g).hbHalt then (((s.reportLoss g).endAutos g).haltPrograms g).makeSafe g else s.reportLoss g := by
  rw [State.hbLose_eq, hsince, Option.elim_some, State.hbJudge, if_neg (by simp [hper, hdue])]
  cases (s.sag g).hbHalt <;> rfl

/-- A heartbeat whose timer does not run is not lost. -/
theorem State.hbLose_disarmed {s : State} {g : Nat} (hsince : (s.sag g).hbSince = none) : s.hbLose g = s := by
  rw [State.hbLose_eq, hsince, Option.elim_none]

/-- A heartbeat is not lost before its period is over. -/
theorem State.hbLose_early {s : State} {g t : Nat} (hsince : (s.sag g).hbSince = some t)
    (hearly : s.clk < t + 1000000 * (s.sag g).hbPer) : s.hbLose g = s := by
  rw [State.hbLose_eq, hsince, Option.elim_some, State.hbJudge, if_pos (by simp [hearly])]

/-- A heartbeat write of a saggar with a period starts its timer anew, and ends a loss (R173, R175). -/
theorem State.heartbeat_period {s : State} {g : Nat} (hper : (s.sag g).hbPer ≠ 0) :
    s.heartbeat g =
      if (s.sag g).hbDown then (s.updSag g fun x => { x with hbSince := some s.clk, hbDown := false }).raiseF 0 0x0101 g 0
      else s.updSag g fun x => { x with hbSince := some s.clk, hbDown := false } := by
  rw [State.heartbeat, if_neg hper, State.updSag]

/-- A heartbeat write of a ready function by a saggar that may act: a loss that is due, then the write (R173, Table 7.5). -/
theorem exec_heartbeatDoorbell_ready {s : State} {fn : Nat} (hp : s.power.porst = false) (hfn : fn < 64)
    (hbar : s.barOn fn = true) (hen : (s.sag fn).en = true) (hrdy : (s.fn fn).rdy = true) :
    exec (.heartbeatDoorbell fn) s = .next (finish s ((s.hbLose fn).heartbeat fn)) := by
  dsimp only [exec, execHeartbeatDoorbell]
  rw [act_numbered rfl hfn hp]
  simp [State.hbWrite, hbar, hen, hrdy, State.hbBeat]

theorem exec_heartbeatLost {s : State} {g : Nat} (hp : s.power.porst = false) (hg : g < 64) :
    exec (.heartbeatLost g) s = .next (finish s (s.hbLose g)) := by
  dsimp only [exec, execHeartbeatLost]
  exact act_numbered rfl hg hp

/-! ### Nudges, vectors and the coalescing time (R104, R135, R136) -/

/-- A nudge doorbell of a subchannel that an SQ of the function reserves nudges it (R104). -/
theorem exec_nudge_reserved {s : State} {fn k n : Nat} (hp : s.power.porst = false) (hfn : fn < 64) (hbar : s.barOn fn = true)
    (hen : (s.sag fn).en = true) (hk : k < 256) (howner : (s.sch k).owner = some (.sq n)) (hsq : (s.sq n).fn = fn) :
    exec (.nudge fn k) s = .next (finish s (s.nudgeSch k)) := by
  dsimp only [exec, execNudge]
  rw [act_up (by simp [Instr.wf, hfn, hk]) hp]
  simp [State.nudgeWrite, hbar, hen, howner, hsq]

/-- A PARKED subchannel that is not being read again reads its CCW again (R104). -/
theorem State.nudgeSch_parked {s : State} {k : Nat} (hstate : (s.sch k).state = .parked) (hread : (s.sch k).reread = false) :
    s.nudgeSch k = (s.updSch k fun c => { c with reread := true }).goto k (s.sch k).pc := by
  simp [State.nudgeSch, hstate, hread, State.updSch]

/-- A subchannel that runs, or that is being read again already, keeps the nudge latched (R104). -/
theorem State.nudgeSch_latches {s : State} {k : Nat} (hidle : (s.sch k).state ≠ .idle) (harmed : (s.sch k).state ≠ .armed)
    (hbusy : (s.sch k).state ≠ .parked ∨ (s.sch k).reread = true) :
    s.nudgeSch k = s.updSch k fun c => { c with nudgeL := true } := by
  cases hstate : (s.sch k).state with
  | idle => exact absurd hstate hidle
  | armed => exact absurd hstate harmed
  | parked =>
    have hread : (s.sch k).reread = true := hbusy.resolve_left (absurd hstate)
    simp [State.nudgeSch, hstate, hread, State.updSch]
  | active | waiting | suspended | halting => simp [State.nudgeSch, hstate, State.updSch]

/-- A nudge of an IDLE or ARMED subchannel changes nothing (R104). -/
theorem State.nudgeSch_unstarted {s : State} {k : Nat} (hstate : (s.sch k).state = .idle ∨ (s.sch k).state = .armed) :
    s.nudgeSch k = s := by
  obtain h | h := hstate <;> simp only [State.nudgeSch, h]

theorem exec_msixUnmask_on {s : State} {fn vec : Nat} (hp : s.power.porst = false) (hfn : fn < 64) (hvec : vec < 33)
    (hbar : s.barOn fn = true) : exec (.msixUnmask fn vec) s = .next (finish s (s.maskWrite fn vec false)) := by
  dsimp only [exec, execMsixUnmask]
  rw [act_up (by simp [Instr.wf, hfn, hvec]) hp, if_pos hbar]

/-- The message that waited on a vector leaves when nothing masks it any more (R135). -/
theorem State.flushMsix_pending {s : State} {fn vec : Nat} {m : Msix} (hm : s.msix.get {} (msixKey fn vec) = m)
    (hpend : m.pending = true) (hmask : m.masked = false) (hfn : (s.fn fn).fnMask = false)
    (hen : (s.fn fn).msixEn = true) :
    s.flushMsix fn vec =
      State.sendMsix { s with msix := s.msix.set {} (msixKey fn vec) { m with pending := false } } fn vec := by
  dsimp only [State.flushMsix]
  rw [hm, if_pos (by rw [hpend, hmask, hfn, hen]; rfl)]

/-- The unmasking of a vector sends the message that was pending (R135, R440). -/
theorem State.maskWrite_pending {s : State} {fn vec : Nat} {m : Msix}
    (hm : m = { s.msix.get {} (msixKey fn vec) with masked := false })
    (hpend : (s.msix.get {} (msixKey fn vec)).pending = true) (hfn : (s.fn fn).fnMask = false) (hen : (s.fn fn).msixEn = true) :
    s.maskWrite fn vec false = State.sendMsix
      { s with
        msix := (s.msix.set {} (msixKey fn vec) m).set {} (msixKey fn vec) { m with pending := false } } fn vec := by
  subst hm
  exact State.flushMsix_pending (Store.get_set_self ..) hpend rfl hfn hen

/-- Settles O13: a doorbell past its guards beats, nudges or unmasks by the lemma of its case, and the two expiries act at their
instants. -/
theorem heartbeatAndNudge : Obligations.Heartbeat_and_nudge := by
  refine ⟨?starts, ?restarts, ?lossFirst, ?restored, ?lost, ?halts, ?rereads, ?latched, ?unstarted, ?unmasked, ?sent, ?coalesced⟩
  case starts =>
    intro s fn hp hfn hbar hen hrdy hper hdown hsince
    rw [exec_heartbeatDoorbell_ready hp hfn hbar hen hrdy, State.hbLose_disarmed hsince, State.heartbeat_period hper,
      if_neg (by simp [hdown])]
  case restarts =>
    intro s fn t hp hfn hbar hen hrdy hper hdown hsince hearly
    rw [exec_heartbeatDoorbell_ready hp hfn hbar hen hrdy, State.hbLose_early hsince hearly, State.heartbeat_period hper,
      if_neg (by simp [hdown])]
  case lossFirst =>
    intro s fn t hp hfn hbar hen hrdy _ _
    exact exec_heartbeatDoorbell_ready hp hfn hbar hen hrdy
  case restored =>
    intro s fn hp hfn hbar hen hrdy hper hdown hsince
    rw [exec_heartbeatDoorbell_ready hp hfn hbar hen hrdy, State.hbLose_disarmed hsince, State.heartbeat_period hper,
      if_pos hdown]
  case lost =>
    intro s g t hp hg hsince hper hdue hhalt
    rw [exec_heartbeatLost hp hg, State.hbLose_due hsince hper hdue, if_neg (by simp [hhalt]), State.reportLoss, hhalt]
    rfl
  case halts =>
    intro s g t hp hg hsince hper hdue hhalt
    refine ⟨_, (s.reportLoss g).endAutos g, _, rfl, ?_, rfl, ?_⟩
    · rw [State.reportLoss, hhalt]
      rfl
    · rw [exec_heartbeatLost hp hg, State.hbLose_due hsince hper hdue, if_pos hhalt]
      rfl
  case rereads =>
    intro s fn k n hp hfn hbar hen hk howner hsq hstate hread
    rw [exec_nudge_reserved hp hfn hbar hen hk howner hsq, State.nudgeSch_parked hstate hread]
  case latched =>
    intro s fn k n hp hfn hbar hen hk howner hsq hidle harmed hbusy
    rw [exec_nudge_reserved hp hfn hbar hen hk howner hsq, State.nudgeSch_latches hidle harmed hbusy]
  case unstarted =>
    intro s fn k n hp hfn hbar hen hk howner hsq hstate
    rw [exec_nudge_reserved hp hfn hbar hen hk howner hsq, State.nudgeSch_unstarted hstate]
  case unmasked =>
    intro s fn vec hp hfn hvec hbar
    exact exec_msixUnmask_on hp hfn hvec hbar
  case sent =>
    intro s fn vec hp hfn hvec hbar hpend hmask hen
    refine ⟨_, rfl, ?_⟩
    rw [exec_msixUnmask_on hp hfn hvec hbar, State.maskWrite_pending rfl hpend hmask hen]
  case coalesced =>
    intro s n hp hn hexists hvector hcount htime hdue
    dsimp only [exec, execAggTimeExpiry]
    rw [act_numbered rfl hn hp]
    simp [hexists, hvector, hcount, htime, hdue, State.cqMessage, State.updCq]

/-! ### Fetch and host reads (R109, R129, R139, R150, R441, R447, R496, R498, R500) -/

/-- The entry at the head of an admin queue is fetched when it is due (R139). -/
theorem exec_entryFetch_admin {s : State} {fn : Nat} {d : HostData} (hp : s.power.porst = false) (hfn : fn < 64)
    (hdue : s.adminDue fn = true) :
    exec (.entryFetch (.admin fn) d) s = .next (finish s ((s.hostFault fn d).takeAdmin fn (entryBytes d))) := by
  dsimp only [exec, execEntryFetch]
  rw [act_numbered rfl hfn hp, if_pos hdue]

/-- A queue under reset or deletion has the CIDs of its entries before T_r read (R150). -/
theorem exec_entryFetch_ending {s : State} {n : Nat} {d : HostData} (hp : s.power.porst = false) (hn : n < 256)
    (hending : (s.sq n).ending = true) (hleft : (s.sq n).head ≠ (s.sq n).tr) :
    exec (.entryFetch (.sq n) d) s = .next (finish s ((s.hostFault (s.sq n).fn d).takeSq n (entryBytes d))) := by
  dsimp only [exec, execEntryFetch]
  rw [act_numbered rfl hn hp, if_pos hending, if_neg (by simpa using hleft)]

section Live

variable {s : State} {n : Nat} {d : HostData} (hp : s.power.porst = false) (hn : n < 256)
  (hlive : (s.sq n).ending = false) (hfetch : s.canFetchSq n = true)

include hp hn hlive hfetch

/-- A G queue that may be fetched from has its head fetched, and so has a B queue that W lets in (R302, R496, R500). -/
theorem exec_entryFetch_open (hcls : (s.sq n).cls = .g ∨ ((s.sq n).cls = .b ∧ s.bOpen n = true)) :
    exec (.entryFetch (.sq n) d) s = .next (finish s ((s.hostFault (s.sq n).fn d).takeSq n (entryBytes d))) := by
  dsimp only [exec, execEntryFetch]
  rw [act_numbered rfl hn hp]
  obtain hg | ⟨hb, hopen⟩ := hcls
  · simp [hlive, hfetch, hg]
  · simp [hlive, hfetch, hb, hopen]

/-- A W queue whose turn it is has its head fetched and uses one entry of the turn (R498). -/
theorem exec_entryFetch_w (hcls : (s.sq n).cls = .w) (hturn : s.fetchTurn.1 = some n) :
    exec (.entryFetch (.sq n) d) s = .next (finish s (
      (s.fetchTurn.2.useTurn.hostFault (s.sq n).fn d).takeSq n (entryBytes d))) := by
  have hpair : s.fetchTurn = (some n, s.fetchTurn.2) := Prod.ext hturn rfl
  dsimp only [exec, execEntryFetch]
  rw [act_numbered rfl hn hp, hpair]
  simp [hlive, hfetch, hcls]

end Live

/-- The slim host port has its entry fetched in its turn (R447). -/
theorem exec_entryFetch_shp {s : State} {d : HostData} (hp : s.power.porst = false) (hturn : s.fetchTurn.1 = some 256) :
    exec (.entryFetch .shp d) s = .next (finish s (s.fetchTurn.2.useTurn.takeShp)) := by
  have hpair : s.fetchTurn = (some 256, s.fetchTurn.2) := Prod.ext hturn rfl
  dsimp only [exec, execEntryFetch]
  rw [act_up rfl hp, hpair]
  rfl

/-- Settles O14: each class of queue by the lemma of its fetch, and a host read by its number. -/
theorem fetchAndReads : Obligations.Fetch_and_reads := by
  refine ⟨?admin, ?ending, ?classGB, ?classW, ?shp, ?returned, ?timeout⟩
  case admin =>
    intro s fn d hp hfn hdue
    exact exec_entryFetch_admin hp hfn hdue
  case ending =>
    intro s n d hp hn hending hleft
    exact exec_entryFetch_ending hp hn hending hleft
  case classGB =>
    intro s n d hp hn hlive hfetch hcls
    exact exec_entryFetch_open hp hn hlive hfetch hcls
  case classW =>
    intro s n d hp hn hlive hfetch hcls hturn
    exact exec_entryFetch_w hp hn hlive hfetch hcls hturn
  case shp =>
    intro s d hp hturn
    exact exec_entryFetch_shp hp hturn
  case returned =>
    intro s r id d hp hread
    dsimp only [exec, execHostReadReturn]
    rw [act_up rfl hp, hread]
  case timeout =>
    intro s r id hp hread
    dsimp only [exec, execCompletionTimeout]
    rw [act_up rfl hp, hread]

/-! ### Channel entries (R81, R91, R92, R95, R98, R499) -/

section Oldest

variable {s : State} {n : Nat} {e : Entry} (hp : s.power.porst = false) (hn : n < 256)

include hp hn

/-- START takes the oldest START that waits in an SQ (R499). -/
theorem exec_start_oldest (he : s.oldest (.sq n) .start = some e) :
    exec (.start (.sq n)) s = .next (finish s (s.tryStart (.sq n) e.eid)) := by
  dsimp only [exec, execStart]
  rw [act_numbered rfl hn hp]
  simp [chanQueue, he]

/-- TRG takes the oldest TRG that waits in an SQ of class W or B that may start (R98). -/
theorem exec_trg_oldest (he : s.oldest (.sq n) .trg = some e) (hcls : s.qCls (.sq n) ≠ .g)
    (hmay : s.mayStart (.sq n) = true) :
    exec (.trg (.sq n)) s = .next (finish s (s.takeTrg (.sq n) e)) := by
  dsimp only [exec, execTrg]
  rw [act_numbered rfl hn hp]
  simp [chanQueue, he, hcls, hmay]

/-- RESUME acts on a subchannel that its queue reserves, and is refused any other (R91, R92). -/
theorem exec_resume_oldest (he : s.oldest (.sq n) .resume = some e) :
    exec (.resume (.sq n)) s = .next (finish s (
      if (s.sch e.sch).owner = some (.sq n) then (s.resumeSch e.sch).endEntry (.sq n) e.eid .ok
      else s.endEntry (.sq n) e.eid .protectionCheck)) := by
  dsimp only [exec, execResume]
  rw [act_numbered rfl hn hp]
  simp [chanQueue, he]

/-- The subchannel of a HALT entry is halted, with the entry begun (R95). -/
def State.haltBy (s : State) (q : QRef) (e : Entry) : State :=
  (s.updEntry q e.eid fun x => { x with phase := .begun }).haltSch e.sch .halt

/-- HALT acts on a subchannel that its queue reserves, and is refused any other (R91, R95). -/
theorem exec_halt_oldest (he : s.oldest (.sq n) .halt = some e) :
    exec (.halt (.sq n)) s = .next (finish s (
      if (s.sch e.sch).owner = some (.sq n) then
        if ((s.haltBy (.sq n) e).sch e.sch).state = .idle then (s.haltBy (.sq n) e).endHalts (.sq n) e.sch
        else s.haltBy (.sq n) e
      else s.endEntry (.sq n) e.eid .protectionCheck)) := by
  dsimp only [exec, execHalt]
  rw [act_numbered rfl hn hp]
  simp only [chanQueue, he, Option.bind_some, Option.map_some]
  by_cases howner : (s.sch e.sch).owner = some (.sq n)
  · rw [if_neg (by simp [howner]), if_pos howner]
    by_cases hidle : ((s.haltBy (.sq n) e).sch e.sch).state = .idle
    · rw [if_pos hidle]
      exact congrArg (fun t => Host.Outcome.next (finish s t)) (if_pos (beq_iff_eq.mpr hidle))
    · rw [if_neg hidle]
      exact congrArg (fun t => Host.Outcome.next (finish s t)) (if_neg (mt beq_iff_eq.mp hidle))
  · rw [if_pos (by simpa using howner), if_neg howner]

end Oldest

/-- A waiting START of class W or B begins on the first IDLE subchannel when its processor has room (R499, R500). -/
theorem State.tryStart_starts {s : State} {q : QRef} {e : Entry} {k : Nat} (hentry : s.entry? q e.eid = some e)
    (hkind : e.kind = .start) (hphase : e.phase = .waiting) (hcls : s.qCls q ≠ .g) (hmay : s.mayStart q = true)
    (hopen : s.wbOpen (s.qCp q) = true) (hidle : s.idleSch q = some k) : s.tryStart q e.eid = s.startOn q e k := by
  simp [State.tryStart, hentry, hkind, hphase, hcls, hmay, hopen, hidle]

/-- A TRG whose saggar may observe its port arms the first IDLE subchannel (R98, R99). -/
theorem State.takeTrg_arms {s : State} {q : QRef} {e : Entry} {k : Nat}
    (hobserve : ((trgPort e.trigger).all fun p => s.mayObserve (s.qSag q) p) = true) (hidle : s.idleSch q = some k) :
    s.takeTrg q e = s.armOn q e k := by
  have hallowed : ((trgPort e.trigger).any fun p => !s.mayObserve (s.qSag q) p) = false := by
    cases hport : trgPort e.trigger with
    | none => rfl
    | some p => simpa [hport] using hobserve
  simp [State.takeTrg, hallowed, hidle]

/-- Settles O15: each entry by the lemma of its kind, on the side that the reserving queue decides. -/
theorem channelEntries : Obligations.Channel_entries := by
  refine ⟨?start, ?starts, ?trg, ?arms, ?resumes, ?halts, ?resumeRefused, ?haltRefused⟩
  case start =>
    intro s n e hp hn he
    exact exec_start_oldest hp hn he
  case starts =>
    intro s n e k hp hn he hentry hkind hphase hcls hmay hopen hidle
    rw [exec_start_oldest hp hn he, State.tryStart_starts hentry hkind hphase hcls hmay hopen hidle]
  case trg =>
    intro s n e hp hn he hcls hmay
    exact exec_trg_oldest hp hn he hcls hmay
  case arms =>
    intro s n e k hp hn he hcls hmay hobserve hidle
    rw [exec_trg_oldest hp hn he hcls hmay, State.takeTrg_arms hobserve hidle]
  case resumes =>
    intro s n e hp hn he howner
    rw [exec_resume_oldest hp hn he, if_pos howner]
  case halts =>
    intro s n e hp hn he howner
    refine ⟨s.haltBy (.sq n) e, rfl, ?_⟩
    rw [exec_halt_oldest hp hn he, if_pos howner]
  case resumeRefused =>
    intro s n e hp hn he howner
    rw [exec_resume_oldest hp hn he, if_neg howner]
  case haltRefused =>
    intro s n e hp hn he howner
    rw [exec_halt_oldest hp hn he, if_neg howner]

/-! ### The watchdogs of programs and ports (R107, R108, R252, R359) -/

/-- The CCW watchdog bites a timed CCW whose period is over (R107, R108). -/
theorem exec_ccwWatchdog_dispatched {s : State} {n : Nat} (hp : s.power.porst = false) (hn : n < 256)
    (htimed : (s.sch n).timed = true) (hfresh : s.bitten n = false)
    (hdue : (s.sch n).dispatchedAt + 1000 * (s.sch n).wdgInForce ≤ s.clk) :
    exec (.ccwWatchdog n) s = .next (finish s (
      (s.pushCause 0x0108 n (s.schSag n) (s.schSag n) s.kiln.frame).stopProgram n .ccwWatchdog)) := by
  dsimp only [exec, execCcwWatchdog]
  rw [act_numbered rfl hn hp, if_pos (by simp [htimed, hfresh, hdue])]

/-- The CCW watchdog bites the reading of a CCW whose period is over (R107, log entry 45). -/
theorem exec_ccwWatchdog_reading {s : State} {n : Nat} (hp : s.power.porst = false) (hn : n < 256)
    (htimed : (s.sch n).timed = false) (hreading : s.readingCcw n = true)
    (hdue : (s.sch n).readySince + 1000 * (s.sch n).ccwWdg ≤ s.clk) :
    exec (.ccwWatchdog n) s = .next (finish s (
      ((s.pushCause 0x0108 n (s.schSag n) (s.schSag n) s.kiln.frame).stopSpan n).progEnd n .ccwWatchdog)) := by
  dsimp only [exec, execCcwWatchdog]
  rw [act_numbered rfl hn hp, if_neg (by simp [htimed]), if_pos (by simp [hreading, hdue])]

/-- The state in which the holder of a grant is stopped: the bite is counted and reported, and the holder's grants are dropped
(R252). -/
def State.heldTooLong (s : State) (g k : Nat) : State :=
  (s.claimEvent g k ((s.claim g).slot k).sch 0).dropGrants ((s.claim g).slot k).sch

/-- The subchannel has the port's line with no operation of its own under way on it. -/
def State.sendsAlone (s : State) (n p : Nat) : Bool :=
  (s.port p).lineBusy == some n && !(match (s.sch n).op with | some o => o.port == p && o.phase != .queued | none => false)

/-- The line stops and is free where the subchannel has it with no operation under way (R252). -/
def State.stopAlone (s : State) (n p : Nat) : State := if s.sendsAlone n p then (s.stopLine p).freeLine p else s

/-- The port's grant passes to the next waiter (R252, Table 10.6). -/
def State.passGrant (s : State) (p : Nat) : State :=
  match s.grantFree 1 with
  | some (q, m, w) => if q == p then w.granted p m else s
  | none => s

/-- The claim watchdog bites a grant that is held for CWDG (R252). -/
theorem exec_claimWatchdogHold_due {s : State} {g k : Nat} (hp : s.power.porst = false) (hg : g < 16)
    (hholder : (s.claim g).holder = some k) (hen : (s.claim g).en = true)
    (hdue : (s.claim g).holdSince + (s.claim g).cwdgNs ≤ s.clk) :
    exec (.claimWatchdogHold g) s = .next (finish s (State.stopProgram
      (((s.heldTooLong g k).stopAlone ((s.claim g).slot k).sch (s.claim g).port).passGrant (s.claim g).port)
      ((s.claim g).slot k).sch .claimWatchdog)) := by
  dsimp only [exec, execClaimWatchdogHold]
  rw [act_numbered rfl hg hp, hholder]
  exact congrArg (fun t => Host.Outcome.next (finish s t)) (if_neg (by simp [hen, hdue]))

/-- The claim watchdog bites a request that has waited CWDG (R252). -/
theorem exec_claimWatchdogWait_due {s u : State} {g k t : Nat} (hp : s.power.porst = false) (hg : g < 16) (hk : k < 16)
    (hsince : ((s.claim g).slot k).reqSince = some t) (hen : (s.claim g).en = true)
    (hdue : t + (s.claim g).cwdgNs ≤ s.clk) (hu : u = s.claimEvent g k ((s.claim g).slot k).sch 1) :
    exec (.claimWatchdogWait g k) s = .next (finish s
      ((u.setClaim g ((u.claim g).endReq k u.clk false)).stopProgram ((s.claim g).slot k).sch .claimWatchdog)) := by
  dsimp only [exec, execClaimWatchdogWait]
  rw [act_up (by simp [Instr.wf, hg, hk]) hp, hsince, hu]
  exact congrArg (fun t => Host.Outcome.next (finish s t)) (if_neg (by simp [hen, hdue]))

/-- Settles O25: each watchdog past the guards that its premises decide. -/
theorem watchdogsOfProgramsAndPorts : Obligations.Watchdogs_of_programs_and_ports := by
  refine ⟨?dispatched, ?reading, ?held, ?waited, ?remote⟩
  case dispatched =>
    intro s n hp hn htimed hfresh hdue
    exact exec_ccwWatchdog_dispatched hp hn htimed hfresh hdue
  case reading =>
    intro s n hp hn htimed hreading hdue
    exact exec_ccwWatchdog_reading hp hn htimed hreading hdue
  case held =>
    rintro s u v g k n p hp hg hholder hen hdue rfl rfl rfl rfl
    exact exec_claimWatchdogHold_due hp hg hholder hen hdue
  case waited =>
    intro s g k t hp hg hk hsince hen hdue
    exact ⟨_, rfl, exec_claimWatchdogWait_due hp hg hk hsince hen hdue rfl⟩
  case remote =>
    intro s n o hp hn hop hphase hnone hdue
    dsimp only [exec, execRemoteTimeout]
    rw [act_numbered rfl hn hp]
    simp [hop, hphase, hnone, hdue]

/-! ### Edges and snapshots of the GPIO bank (R98, R237) -/

/-- An edge of the configured kind on a pin that is no chip select is flagged, pushed and fires the triggers on it (R98, R237). -/
theorem exec_edgeCapture_configured {s : State} {pin : Nat} {k : EdgeKind} {g : Gpio} (hp : s.power.porst = false)
    (hpin : pin < 64) (hen : bit (s.liveWord 0x60 0) 0 = true) (hcs : s.isCs pin = false)
    (hkind : s.gpio.edgeInForce.get 0 pin = edgeNum k ∨ s.gpio.edgeInForce.get 0 pin = 3)
    (hg : g = { s.gpio with level := setBit s.gpio.level pin (k == .rising), edgeFlags := setBit s.gpio.edgeFlags pin true }) :
    exec (.edgeCapture pin k) s = .next (finish s (State.fireSource (State.pushEdge { s with gpio := g }
      (edgeRecord s.stime pin (edgeNum k))) 3 pin)) := by
  have hconfigured : (s.gpio.edgeInForce.get 0 pin == edgeNum k || s.gpio.edgeInForce.get 0 pin == 3) = true := by
    simpa using hkind
  subst hg
  dsimp only [exec, execEdgeCapture]
  rw [act_numbered rfl hpin hp]
  refine congrArg (fun t => Host.Outcome.next (finish s t)) (if_neg ?_)
  show ¬ ((!bit (s.liveWord 0x60 0) 0 || s.isCs pin ||
    !(s.gpio.edgeInForce.get 0 pin == edgeNum k || s.gpio.edgeInForce.get 0 pin == 3)) = true)
  simp [hen, hcs, hconfigured]

/-- With no record of a higher pin at its stamp, and room for one more, a record goes to the end of the FIFO (R237). -/
theorem State.pushEdge_appends {s : State} {r : List Byte} (hroom : s.gpio.capture.length < 256)
    (hlast : (s.gpio.capture.all fun x => !(leAt x 0 8 == leAt r 0 8 && decide (leAt r 8 1 < leAt x 8 1))) = true) :
    s.pushEdge r = { s with gpio := { s.gpio with capture := s.gpio.capture ++ [r] } } := by
  have hnone : (s.gpio.capture.reverse.takeWhile
      fun x => leAt x 0 8 == leAt r 0 8 && decide (leAt r 8 1 < leAt x 8 1)) = [] := by
    cases hlist : s.gpio.capture.reverse with
    | nil => rfl
    | cons x rest =>
      have hmem : x ∈ s.gpio.capture := List.mem_reverse.mp (hlist ▸ List.mem_cons_self)
      have hlower := List.all_eq_true.mp hlast x hmem
      exact List.takeWhile_cons_of_neg (Bool.eq_false_iff.mp ((Bool.not_eq_true' _).mp hlower))
  have hfits : (s.gpio.capture ++ [r]).length ≤ 256 := by simp; omega
  simp only [State.pushEdge, hnone, List.reverse_nil, List.length_nil, Nat.sub_zero, List.take_length, List.append_nil,
    List.take_of_length_le hfits, Nat.not_lt.mpr hfits, if_false]

/-- A snapshot at its place in the frame takes the levels seen and names the next place (R237). -/
theorem exec_gpioSnapshot_due {s : State} {lv : DWord} (hp : s.power.porst = false) (hen : bit (s.liveWord 0x60 0) 0 = true)
    (hsnap : s.gpio.snapInForce ≠ 0) (hrun : s.kiln.frameRuns = true) (hdue : s.gpio.snapNext ≤ s.clk)
    (hframe : s.gpio.snapNext < s.kiln.tickAt + s.kiln.frameLen) :
    exec (.gpioSnapshot lv) s = .next (finish s (State.pushSnap
      { s with gpio := { s.gpio with level := s.seenLevels lv, snapNext := s.gpio.snapNext + s.gpio.snapInForce } }
      (s.seenLevels lv))) := by
  dsimp only [exec, execGpioSnapshot]
  rw [act_up rfl hp, if_neg (by simp [hen, hsnap, hrun, hdue, hframe])]

/-! ### Encoders (R239) -/

/-- A flag of ESTAT takes no time. -/
@[simp] theorem State.addEstat_clk (s : State) (p : Nat) (d : BitVec 16) : (s.addEstat p d).clk = s.clk := by
  dsimp only [State.addEstat]
  split
  · rfl
  · split
    · rfl
    · split <;> rfl

@[simp] theorem State.encSettle_clk (s : State) (n : Nat) : (s.encSettle n).clk = s.clk := by
  dsimp only [State.encSettle]
  split
  · exact State.addEstat_clk ..
  · rfl

/-- New levels of A and B: those that have stood for FILTER are taken before and after (R239). -/
theorem exec_encoderEdge {s : State} {n : Nat} {a b : Bool} (hp : s.power.porst = false) (hn : n < 8) :
    exec (.encoderEdge n a b) s = .next (finish s (((s.encSettle n).setEnc n
      { (s.encSettle n).enc n with rawA := a, rawB := b, rawAt := s.clk }).encSettle n)) := by
  dsimp only [exec, execEncoderEdge]
  rw [act_numbered rfl hn hp, State.encSettle_clk]

/-- Levels that are no change, or that have not stood for FILTER, leave the input as it is (R239). -/
theorem State.encNow_unsettled {s : State} {n : Nat}
    (h : ((s.enc n).rawA = (s.enc n).a ∧ (s.enc n).rawB = (s.enc n).b) ∨ s.clk < (s.enc n).rawAt + s.encFilter n) :
    s.encNow n = s.enc n := by
  dsimp only [State.encNow]
  exact if_pos (by simpa using h)

/-- A transition that has stood for FILTER adds its step to the count of an enabled input, unless quadrature finds it impossible
(R239). -/
theorem State.encNow_counts {s : State} {n : Nat} (hnew : (s.enc n).rawA ≠ (s.enc n).a ∨ (s.enc n).rawB ≠ (s.enc n).b)
    (hstood : (s.enc n).rawAt + s.encFilter n ≤ s.clk) (hen : bit (s.liveWord (0x80 + n) 0) 0 = true)
    (hpossible : ¬ (fld (s.liveWord (0x80 + n) 0) 4 4 = 1 ∧ (s.enc n).a ≠ (s.enc n).rawA ∧ (s.enc n).b ≠ (s.enc n).rawB)) :
    s.encNow n = { s.enc n with
      a := (s.enc n).rawA, b := (s.enc n).rawB
      count := (s.enc n).count +
        encDelta (fld (s.liveWord (0x80 + n) 0) 4 4) (s.enc n).a (s.enc n).b (s.enc n).rawA (s.enc n).rawB } := by
  have hchanged : ((s.enc n).rawA == (s.enc n).a && (s.enc n).rawB == (s.enc n).b) = false := by
    obtain ha | hb := hnew
    · rw [beq_eq_false_iff_ne.mpr ha, Bool.false_and]
    · rw [beq_eq_false_iff_ne.mpr hb, Bool.and_false]
  have himpossible : (decide (fld (s.liveWord (0x80 + n) 0) 4 4 = 1) && (s.enc n).a != (s.enc n).rawA &&
      (s.enc n).b != (s.enc n).rawB) = false := by
    refine Bool.eq_false_iff.mpr fun h => hpossible ?_
    simpa only [Bool.and_eq_true, decide_eq_true_eq, bne_iff_ne, and_assoc] using h
  dsimp only [State.encNow]
  rw [if_neg (by simp [hchanged, Nat.not_lt.mpr hstood]), if_neg (by simp [hen]), if_neg (by simp [himpossible])]

/-- A transition of both inputs at once is impossible in quadrature (R239). -/
theorem State.encNow_impossible {s : State} {n : Nat} (hstood : (s.enc n).rawAt + s.encFilter n ≤ s.clk)
    (hen : bit (s.liveWord (0x80 + n) 0) 0 = true) (hquad : fld (s.liveWord (0x80 + n) 0) 4 4 = 1)
    (ha : (s.enc n).a ≠ (s.enc n).rawA) (hb : (s.enc n).b ≠ (s.enc n).rawB) :
    s.encNow n = { s.enc n with a := (s.enc n).rawA, b := (s.enc n).rawB, qerr := true } := by
  dsimp only [State.encNow]
  rw [if_neg (by simp [Nat.not_lt.mpr hstood, ha.symm]), if_neg (by simp [hen]), if_pos (by simp [hquad, ha, hb])]

/-- An input whose error does not rise settles without a flag (R239). -/
theorem State.encSettle_quiet {s : State} {n : Nat} {e : Enc} (he : s.encNow n = e) (hq : e.qerr = (s.enc n).qerr) :
    s.encSettle n = s.setEnc n e := by
  dsimp only [State.encSettle]
  rw [he, if_neg (by simp [hq])]

/-- An input whose error rises flags QERR in ESTAT (R239). -/
theorem State.encSettle_error {s : State} {n : Nat} {e : Enc} (he : s.encNow n = e) (hbefore : (s.enc n).qerr = false)
    (hafter : e.qerr = true) : s.encSettle n = (s.setEnc n e).addEstat (0x80 + n) 1 := by
  dsimp only [State.encSettle]
  rw [he, if_pos (by simp [hbefore, hafter])]
  rfl

/-- An encoder after an index pulse: the pulse counted and stamped, the count zeroed with ZRST (R239). -/
def Enc.indexed (e : Enc) (w : Word) (stime : DWord) : Enc :=
  { e with indexCount := e.indexCount + 1, indexStime := stime, count := if bit w 8 then 0 else e.count }

/-- The record of an index pulse (R239). -/
def Enc.indexRecord (e : Enc) (stime : DWord) : List Byte := leBytes 8 stime.toNat ++ leBytes 4 e.count.toNat ++ zeros 4

/-- An index pulse of an enabled encoder, with room for its record or with the FIFO full (R218, R239). -/
theorem exec_index_enabled {s u : State} {n : Nat} {w : Word} (hp : s.power.porst = false) (hn : n < 8)
    (hu : u = s.encSettle n) (hw : w = u.liveWord (0x80 + n) 0) (hen : bit w 0 = true) (hmode : fld w 4 4 ≠ 0) :
    exec (.index n) s = .next (finish s (
      if 64 ≤ (u.enc n).capture.length then
        (u.setEnc n ((u.enc n).indexed w u.stime)).dropFull (0x80 + n) 3 none ((u.enc n).indexRecord u.stime)
      else u.setEnc n
        { (u.enc n).indexed w u.stime with capture := (u.enc n).capture ++ [(u.enc n).indexRecord u.stime] })) := by
  subst hw hu
  dsimp only [exec, execIndex]
  rw [act_numbered rfl hn hp, if_neg (by simp [hen, hmode])]
  by_cases hfull : 64 ≤ ((s.encSettle n).enc n).capture.length
  · simp only [hfull, decide_true, if_true]
    rfl
  · simp only [hfull, decide_false, Bool.false_eq_true, if_false]
    rfl

/-- Settles O34: edges and snapshots past their guards, and an encoder input by whether its levels have settled. -/
theorem edgesSnapshotsEncoders : Obligations.Edges_snapshots_encoders := by
  refine ⟨?edge, ?appended, ?snapshot, ?newLevels, ?unsettled, ?counted, ?impossible, ?index, ?indexFull⟩
  case edge =>
    intro s pin k g hp hpin hen hcs hkind hg
    exact exec_edgeCapture_configured hp hpin hen hcs hkind hg
  case appended =>
    intro s r hroom hlast
    exact State.pushEdge_appends hroom hlast
  case snapshot =>
    rintro s lv v u hp hen hsnap hrun hdue hframe rfl rfl
    exact exec_gpioSnapshot_due hp hen hsnap hrun hdue hframe
  case newLevels =>
    intro s n a b hp hn
    exact exec_encoderEdge hp hn
  case unsettled =>
    intro s n h
    exact State.encSettle_quiet (State.encNow_unsettled h) rfl
  case counted =>
    rintro s n e rfl hnew hstood hen hpossible
    exact State.encSettle_quiet (State.encNow_counts hnew hstood hen hpossible) rfl
  case impossible =>
    rintro s n e rfl hbefore hstood hen hquad ha hb
    exact State.encSettle_error (State.encNow_impossible hstood hen hquad ha hb) hbefore rfl
  case index =>
    intro s u n w hp hn hu hw hen hmode hroom
    rw [exec_index_enabled hp hn hu hw hen hmode, if_neg (Nat.not_le.mpr hroom)]
    rfl
  case indexFull =>
    intro s u n w hp hn hu hw hen hmode hfull
    rw [exec_index_enabled hp hn hu hw hen hmode, if_pos hfull]
    rfl

end Sys2Proof.Machine

/-! ## Proofs of the statements about the doorbells of the rings -/

namespace Sys2Proof.Machine

/-! ### The window of a head write (R117) -/

/-- A head write is in range when it lies in [head, tail], taken cyclically (R117). -/
theorem inRing_iff (i head tail n : Nat) :
    inRing i head tail n = true ↔ i < n ∧ (i + n - head) % n ≤ (tail + n - head) % n := by
  rw [inRing, Bool.and_eq_true, decide_eq_true_eq, decide_eq_true_eq]
  refine and_congr_right fun hi => ?_
  rw [ringCount, ringCount, if_neg (by omega), if_neg (by omega)]

/-- A head write outside [head, tail] is out of range (R117). -/
theorem inRing_eq_false {i head tail n : Nat}
    (h : ¬ (i < n ∧ (i + n - head) % n ≤ (tail + n - head) % n)) : inRing i head tail n = false :=
  Bool.eq_false_iff.mpr (mt (inRing_iff ..).mp h)

/-- The head itself is in range: a write of it frees no slot (R117). -/
theorem inRing_head {head n : Nat} (tail : Nat) (h : head < n) : inRing head head tail n = true := by
  refine (inRing_iff ..).mpr ⟨h, ?_⟩
  rw [Nat.add_sub_cancel_left, Nat.mod_self]
  exact Nat.zero_le _

/-! ### A doorbell of a saggar that may act (R114, R167) -/

section Bell

variable {s : State} {fn size : Nat} {v : DWord} (hbar : s.barOn fn = true)

include hbar

/-- A doorbell with a bad index is ignored and counted (R114, R117). -/
theorem State.doorbell_ignored {ok : Bool} (f : State → State) (hok : ok = false) :
    s.doorbell fn size ok f = s.errHost := by
  rw [State.doorbell, if_neg (by simp [hbar]), if_pos (by simp [hok])]

/-- A tail that is not below the size of the SQ is ignored and counted (R114). -/
theorem State.sqTail_sq_ignored {n : Nat} (hi : (s.sq n).n ≤ fld v 0 16) : s.sqTail fn (some n) size v = s.errHost := by
  dsimp only [State.sqTail, bellIndex]
  exact State.doorbell_ignored hbar _ (Bool.and_eq_false_iff.mpr (.inr (decide_eq_false (Nat.not_lt.mpr hi))))

theorem State.cqHead_admin_ignored
    (hout : inRing (fld v 0 16) (s.fn fn).cqHead (s.fn fn).cqTail (s.fn fn).cqn = false) :
    s.cqHead fn none size v = s.errHost := by
  dsimp only [State.cqHead, bellIndex]
  exact State.doorbell_ignored hbar _ (by rw [hout, Bool.and_false])

theorem State.cqHead_cq_ignored {n : Nat} (hout : inRing (fld v 0 16) (s.cq n).head (s.cq n).tail (s.cq n).n = false) :
    s.cqHead fn (some n) size v = s.errHost := by
  dsimp only [State.cqHead, bellIndex]
  exact State.doorbell_ignored hbar _ (by rw [hout, Bool.and_false])

theorem State.evqHeadWrite_ignored
    (hout : inRing (fld v 0 16) (s.fn fn).evqHead (s.fn fn).evqTail (s.fn fn).evqN = false) :
    s.evqHeadWrite fn size v = s.errHost := by
  dsimp only [State.evqHeadWrite, bellIndex]
  exact State.doorbell_ignored hbar _ (by rw [hout, Bool.and_false])

variable (hen : (s.sag fn).en = true) (hsize : size = 4 ∨ size = 8)

include hen hsize

/-- A doorbell of 4 or 8 bytes with a good index is taken (R114, R167). -/
theorem State.doorbell_taken {ok : Bool} (f : State → State) (hok : ok = true) : s.doorbell fn size ok f = f s := by
  have hwidth : (size == 4 || size == 8) = true := Bool.or_eq_true_iff.mpr (hsize.imp beq_iff_eq.mpr beq_iff_eq.mpr)
  rw [State.doorbell, hbar, hwidth, hen, hok]
  rfl

/-- The tail of the admin SQ of a ready, enabled function takes an index below its size (R114, R115). -/
theorem State.sqTail_admin (hrdy : (s.fn fn).rdy = true) (hfen : (s.fn fn).en = true) (hi : fld v 0 16 < (s.fn fn).sqn) :
    s.sqTail fn none size v = s.updFn fn fun f => { f with
      sqTail := fld v 0 16, loose := fld v 0 16 != f.sqHead && (f.loose || tailBack f.sqHead f.sqTail (fld v 0 16) f.sqn) } := by
  dsimp only [State.sqTail, bellIndex]
  exact State.doorbell_taken hbar hen hsize _ (by simp [hrdy, hfen, hi])

/-- The tail of the function's own open SQ takes an index below its size (R114, R115, R159). -/
theorem State.sqTail_sq {n : Nat} (hstate : (s.sq n).state ≠ .free) (hopen : (s.sq n).opened = true)
    (hown : (s.sq n).fn = fn) (hending : (s.sq n).ending = false) (hi : fld v 0 16 < (s.sq n).n) :
    s.sqTail fn (some n) size v = s.updSq n fun q => { q with
      tail := fld v 0 16, loose := fld v 0 16 != q.head && (q.loose || tailBack q.head q.tail (fld v 0 16) q.n) } := by
  dsimp only [State.sqTail, bellIndex]
  exact State.doorbell_taken hbar hen hsize _ (by simp [hstate, hopen, hown, hending, hi])

/-- A head write of the admin CQ in range moves the head, and a held completion follows when there is room (R117, R131). -/
theorem State.cqHead_admin (hrdy : (s.fn fn).rdy = true)
    (hin : inRing (fld v 0 16) (s.fn fn).cqHead (s.fn fn).cqTail (s.fn fn).cqn = true) :
    s.cqHead fn none size v = (s.fn fn).heldAdmin.elim (s.updFn fn fun f => { f with cqHead := fld v 0 16 }) fun c =>
      if ringFull (fld v 0 16) (s.fn fn).cqTail (s.fn fn).cqn then s.updFn fn fun f => { f with cqHead := fld v 0 16 }
      else (s.updFn fn fun f => { f with cqHead := fld v 0 16 }).admWrite fn c := by
  dsimp only [State.cqHead, bellIndex, State.updFn_eq]
  rw [State.doorbell_taken hbar hen hsize _ (by simp [hrdy, hin])]
  cases (s.fn fn).heldAdmin <;> rfl

/-- A head write of the function's own CQ in range moves the head, and the held completions follow (R117, R131). -/
theorem State.cqHead_cq {n : Nat} (hexists : (s.cq n).exists_ = true) (hown : (s.cq n).fn = fn)
    (hin : inRing (fld v 0 16) (s.cq n).head (s.cq n).tail (s.cq n).n = true) :
    s.cqHead fn (some n) size v =
      (s.updCq n fun q => { q with head := fld v 0 16 }).cqDrain n (s.cq n).held.length := by
  dsimp only [State.cqHead, bellIndex]
  exact State.doorbell_taken hbar hen hsize _ (by simp [hexists, hown, hin])

/-- A head write of the event queue in range moves the head, and EVQ_OVERFLOW follows a slot that it frees (R117, R132). -/
theorem State.evqHeadWrite_on (hon : (s.fn fn).evqOn = true)
    (hin : inRing (fld v 0 16) (s.fn fn).evqHead (s.fn fn).evqTail (s.fn fn).evqN = true) :
    s.evqHeadWrite fn size v =
      if fld v 0 16 = (s.fn fn).evqHead then s
      else (s.updFn fn fun f => { f with evqHead := fld v 0 16 }).evqOverflow fn := by
  dsimp only [State.evqHeadWrite, bellIndex]
  exact State.doorbell_taken hbar hen hsize _ (by simp [hon, hin])

end Bell

/-! ### The doorbell commands (R11, R114) -/

section Command

variable {s : State} {fn : Nat} (hp : s.power.porst = false) (hfn : fn < 64) (size : Nat) (v : DWord)

include hp hfn

theorem exec_sqTailDoorbell_admin :
    exec (.sqTailDoorbell fn none size v) s = .next (finish s (s.sqTail fn none size v)) := by
  dsimp only [exec, execSqTailDoorbell]
  exact act_up (by simp [Instr.wf, hfn]) hp

theorem exec_sqTailDoorbell_sq {n : Nat} (hn : n < 256) :
    exec (.sqTailDoorbell fn (some n) size v) s = .next (finish s (s.sqTail fn (some n) size v)) := by
  dsimp only [exec, execSqTailDoorbell]
  exact act_up (by simp [Instr.wf, hfn, hn]) hp

theorem exec_cqHeadDoorbell_admin :
    exec (.cqHeadDoorbell fn none size v) s = .next (finish s (s.cqHead fn none size v)) := by
  dsimp only [exec, execCqHeadDoorbell]
  exact act_up (by simp [Instr.wf, hfn]) hp

theorem exec_cqHeadDoorbell_cq {n : Nat} (hn : n < 256) :
    exec (.cqHeadDoorbell fn (some n) size v) s = .next (finish s (s.cqHead fn (some n) size v)) := by
  dsimp only [exec, execCqHeadDoorbell]
  exact act_up (by simp [Instr.wf, hfn, hn]) hp

theorem exec_evqHeadDoorbell :
    exec (.evqHeadDoorbell fn size v) s = .next (finish s (s.evqHeadWrite fn size v)) := by
  dsimp only [exec, execEvqHeadDoorbell]
  exact act_numbered rfl hfn hp

end Command

/-! ### What host software writes to the doorbells (R114, R115, R117, R131, R132) -/

/-- Settles O51: the head of each ring by the lemma of its write, by whether the index lies in the ring's window. -/
theorem headDoorbells : Obligations.Head_doorbells := by
  refine ⟨?admin, ?adminHeld, ?cq, ?evq, ?evqSame, ?adminOut, ?cqOut, ?evqOut⟩
  case admin =>
    rintro s f k v _ hp hf hbar hen rfl hk hrdy hheld hin
    rw [exec_cqHeadDoorbell_admin hp hf, State.cqHead_admin hbar hen hk hrdy ((inRing_iff ..).mpr hin), hheld,
      Option.elim_none]
  case adminHeld =>
    rintro s f k v _ c hp hf hbar hen rfl hk hrdy hheld hroom hin
    rw [exec_cqHeadDoorbell_admin hp hf, State.cqHead_admin hbar hen hk hrdy ((inRing_iff ..).mpr hin), hheld,
      Option.elim_some, if_neg (by simp [hroom])]
  case cq =>
    rintro s f n k v _ hp hf hbar hen rfl hk hn hexists hown hin
    rw [exec_cqHeadDoorbell_cq hp hf k v hn, State.cqHead_cq hbar hen hk hexists hown ((inRing_iff ..).mpr hin)]
  case evq =>
    rintro s f k v _ hp hf hbar hen rfl hk hon hne hin
    rw [exec_evqHeadDoorbell hp hf, State.evqHeadWrite_on hbar hen hk hon ((inRing_iff ..).mpr hin), if_neg hne]
  case evqSame =>
    rintro s f k v _ hp hf hbar hen rfl hk hon hsame hlt
    have hin : inRing (fld v 0 16) (s.fn f).evqHead (s.fn f).evqTail (s.fn f).evqN = true :=
      hsame ▸ inRing_head _ hlt
    rw [exec_evqHeadDoorbell hp hf, State.evqHeadWrite_on hbar hen hk hon hin, if_pos hsame]
  case adminOut =>
    rintro s f k v _ hp hf hbar - rfl - hout
    rw [exec_cqHeadDoorbell_admin hp hf, State.cqHead_admin_ignored hbar (inRing_eq_false hout)]
  case cqOut =>
    rintro s f n k v _ hp hf hbar - rfl - hn hout
    rw [exec_cqHeadDoorbell_cq hp hf k v hn, State.cqHead_cq_ignored hbar (inRing_eq_false hout)]
  case evqOut =>
    rintro s f k v _ hp hf hbar - rfl - hout
    rw [exec_evqHeadDoorbell hp hf, State.evqHeadWrite_ignored hbar (inRing_eq_false hout)]

/-- Settles O12: the tail or head of each ring by the lemma of its write. -/
theorem doorbellsMoveIndexes : Obligations.Doorbells_move_indexes := by
  refine ⟨?adminTail, ?sqTail, ?cqHead, ?evqHead, ?evqSame, ?sqOut⟩
  case adminTail =>
    intro s fn size v hp hfn hbar hen hrdy hfen hi hsize
    rw [exec_sqTailDoorbell_admin hp hfn, State.sqTail_admin hbar hen hsize hrdy hfen hi]
  case sqTail =>
    intro s fn n size v hp hfn hbar hen hn hstate hopen hown hending hi hsize
    rw [exec_sqTailDoorbell_sq hp hfn size v hn, State.sqTail_sq hbar hen hsize hstate hopen hown hending hi]
  case cqHead =>
    intro s fn n size v hp hfn hbar hen hn hexists hown hin hsize
    rw [exec_cqHeadDoorbell_cq hp hfn size v hn, State.cqHead_cq hbar hen hsize hexists hown hin]
  case evqHead =>
    intro s fn size v hp hfn hbar hen hon hin hsize hne
    rw [exec_evqHeadDoorbell hp hfn, State.evqHeadWrite_on hbar hen hsize hon hin, if_neg hne]
  case evqSame =>
    intro s fn size v hp hfn hbar hen hon hin hsize hsame
    rw [exec_evqHeadDoorbell hp hfn, State.evqHeadWrite_on hbar hen hsize hon hin, if_pos hsame]
  case sqOut =>
    intro s fn n size v hp hfn hbar _ hn hi
    rw [exec_sqTailDoorbell_sq hp hfn size v hn, State.sqTail_sq_ignored hbar hi]

end Sys2Proof.Machine

/-! ## Proofs of the statements about the admin queue -/

namespace Sys2Proof.Machine

/-! ### The running admin command (R139, R159, R424) -/

/-- The row of an admin command has its effect when the running entry has its opcode and may act. -/
theorem act_admin {i : Instr} {s t : State} {fn op : Nat} {f : Fn → State → State} (hi : i.wf = decide (fn < 64))
    (hp : s.power.porst = false) (hrun : s.runsAdmin fn op = true) (ht : f (s.fn fn) s = t) :
    act i s (fun u => u.admin fn op f) = .next (finish s t) := by
  rw [act_numbered hi (State.runsAdmin_lt hrun) hp, State.admin_runs hrun, ht]

/-- What runs is an entry whose completion is not held. -/
theorem State.runsAdmin_due {s : State} {fn op : Nat} (hrun : s.runsAdmin fn op = true) :
    (s.fn fn).running.isSome = true ∧ (s.fn fn).heldAdmin = none := by
  simp only [State.runsAdmin, Bool.and_eq_true, beq_iff_eq, Option.isNone_iff_eq_none] at hrun
  obtain ⟨⟨⟨-, hop⟩, hheld⟩, -⟩ := hrun
  refine ⟨?_, hheld⟩
  cases hentry : (s.fn fn).running with
  | none => simp [Fn.opc, hentry] at hop
  | some bs => rfl

/-! ### Enabling (R138) -/

section Enable

variable {s : State} {f : Nat} (hp : s.power.porst = false) (hf : f < 64) (hbar : s.barOn f = true)

include hp hf hbar

theorem exec_admCtlEnable_on : exec (.admCtlEnable f) s = .next (finish s (s.admEn f true)) := by
  dsimp only [exec, execAdmCtlEnable]
  rw [act_numbered rfl hf hp, if_pos hbar]

theorem exec_admCtlDisable_on : exec (.admCtlDisable f) s = .next (finish s (s.admEn f false)) := by
  dsimp only [exec, execAdmCtlDisable]
  rw [act_numbered rfl hf hp, if_pos hbar]

end Enable

/-- A function whose EN is acted on with valid registers and nothing being zeroed is ready, with both rings at their start. -/
theorem State.admTryEnable_ready {s : State} {f : Nat} (hready : s.dev.ready = true) (hsag : (s.sag f).en = true)
    (hbound : s.shpBound f = false) (hregs : (s.fn f).regsOk = true) (hzero : s.zbusy f = 0) :
    s.admTryEnable f = s.updFn f fun x =>
      { x with
        enHeld := false, cfgErr := false, rdy := true
        sqHead := 0, sqTail := 0, loose := false, cqHead := 0, cqTail := 0, cqPhase := true } := by
  dsimp only [State.admTryEnable]
  rw [if_neg (by simp [hready]), if_neg (by simp [hsag, hbound, hregs]), if_neg (by simp [hzero])]
  rfl

/-- EN set is acted on in the same step; it enters none of the conditions. -/
theorem State.admEn_starts {s : State} {f : Nat} (hready : s.dev.ready = true) (hoff : (s.fn f).en = false)
    (hsag : (s.sag f).en = true) (hbound : s.shpBound f = false) (hregs : (s.fn f).regsOk = true) (hzero : s.zbusy f = 0) :
    s.admEn f true = s.updFn f fun x =>
      { x with
        en := true, enHeld := false, cfgErr := false, rdy := true
        sqHead := 0, sqTail := 0, loose := false, cqHead := 0, cqTail := 0, cqPhase := true } := by
  have hregs' : ((s.setFn f { s.fn f with en := true }).fn f).regsOk = true := by
    rw [State.fn_setFn]
    exact hregs
  dsimp only [State.admEn]
  rw [if_pos rfl, if_neg (by simp [hoff]),
    State.admTryEnable_ready (s := s.setFn f { s.fn f with en := true }) hready hsag hbound hregs' hzero]
  simp

/-- EN cleared disables the queue, and RDY follows unless an admin command runs. -/
theorem State.admEn_stops {s : State} {f : Nat} (hon : (s.fn f).en = true) :
    s.admEn f false = (s.updFn f fun x =>
      { x with en := false, enHeld := false, draining := x.running.isSome, rdy := x.rdy && x.running.isSome }).hbDisarm f := by
  dsimp only [State.admEn]
  rw [if_neg Bool.false_ne_true, if_neg (by simp [hon])]
  rfl

/-- Settles O50: a write of EN past BAR0, by the lemma of the value written. -/
theorem adminQueueEnable : Obligations.Admin_queue_enable := by
  refine ⟨?enable, ?disable⟩
  case enable =>
    intro s f hp hf hbar hready hoff hsag hbound hregs hzero
    rw [exec_admCtlEnable_on hp hf hbar, State.admEn_starts hready hoff hsag hbound hregs hzero]
  case disable =>
    intro s f hp hf hbar hon
    rw [exec_admCtlDisable_on hp hf hbar, State.admEn_stops hon]

/-! ### Completion queues and event queues (R132, R143, R144, R145) -/

/-- Settles O16: each command past the test of its grant, its queue or its event queue. -/
theorem adminCompletionQueues : Obligations.Admin_completion_queues := by
  refine ⟨?create, ?refused, ?delete, ?reset, ?createEvq, ?deleteEvq, ?resetEvq⟩
  case create =>
    intro s fn hp hrun hgrant habsent
    exact act_admin rfl hp hrun ((if_neg (by simp [hgrant])).trans (if_neg (by simp [habsent])))
  case refused =>
    intro s fn hp hrun hgrant
    exact act_admin rfl hp hrun (if_pos (by simp [hgrant]))
  case delete =>
    intro s fn hp hrun hfree
    exact act_admin rfl hp hrun (if_pos hfree)
  case reset =>
    intro s fn hp hrun hfree
    exact act_admin rfl hp hrun (if_pos hfree)
  case createEvq =>
    intro s fn hp hrun hoff
    exact act_admin rfl hp hrun (if_neg (by simp [hoff]))
  case deleteEvq =>
    intro s fn hp hrun hon
    exact act_admin rfl hp hrun (if_pos hon)
  case resetEvq =>
    intro s fn hp hrun hon
    exact act_admin rfl hp hrun (if_pos hon)

/-! ### CREATE_SQ (R146, R147, R360) -/

/-- The saggar holds the class (R147). -/
def State.holdsClass (s : State) (fn : Nat) (c : Cls) : Bool :=
  match c with
  | .g => (s.sag fn).clsG
  | .w => (s.sag fn).clsW
  | .b => (s.sag fn).clsB

section Create

variable {s : State} {fn : Nat} {c : Cls} (hfree : (s.sq ((s.fn fn).arg 4 2)).state = .free)
  (hzero : (s.sq ((s.fn fn).arg 4 2)).zeroing = false) (hgrant : bit (s.sag fn).sqGrant ((s.fn fn).arg 4 2) = true)
  (hcq : (s.cq ((s.fn fn).arg 6 2)).exists_ = true) (hown : (s.cq ((s.fn fn).arg 6 2)).fn = fn)
  (hcls : Cls.ofNum ((s.fn fn).arg 19 1) = c) (hheld : s.holdsClass fn c = true)
  (hnow : c = .g → (s.fn fn).arg 24 8 = 0 ∧ s.kiln.perPend = [])

include hfree hzero hgrant hcq hown hcls hheld hnow

/-- A queue that passes the checks of R147, of class G without a report and with no change of KILN_PER waiting: a journal queue is
made at once, and a channel queue takes the placement of its subchannels, a G one by way of the admission tests. -/
theorem State.createSq_checked {cp : Nat} {l : List Nat}
    (hplace : (s.fn fn).arg 18 1 ≠ 1 → s.schsHeld fn + (s.fn fn).arg 21 1 ≤ (s.sag fn).subLim ∧
      s.placeQueue c ((s.fn fn).arg 32 1) ((s.fn fn).arg 21 1) = some (cp, l)) :
    s.createSq fn =
      if (s.fn fn).arg 18 1 = 1 then
        (s.setSq ((s.fn fn).arg 4 2) ((s.fn fn).newSq fn 0 [] [])).admDone fn .ok (createInfo 0 0xFF 0)
      else if c = .g then s.createG fn ((s.fn fn).arg 4 2) cp l
      else ((s.reserve (.sq ((s.fn fn).arg 4 2)) l).setSq ((s.fn fn).arg 4 2)
        ((s.fn fn).newSq fn cp l [])).admDone fn .ok (createInfo 0 cp (ctxMask l)) := by
  have hreport : (c == .g && decide (BitVec.ofNat 64 ((s.fn fn).arg 24 8) ≠ 0)) = false := by
    cases c <;> simp [hnow]
  have hper : (c == .g && !s.kiln.perPend.isEmpty) = false := by
    cases c <;> simp [hnow]
  dsimp only [State.createSq]
  rw [hcls, if_neg (by simp [hfree]), if_neg (by rw [hreport]; exact Bool.false_ne_true),
    if_neg (by simp [hgrant]), if_neg (by simp [hfree]), if_neg (by simp [hcq, hown]),
    if_neg (by cases c <;> simpa [State.holdsClass] using hheld), if_neg (by simp [hzero, hper])]
  by_cases hkind : (s.fn fn).arg 18 1 = 1
  · rw [if_pos (by simp [hkind]), if_pos hkind]
  · obtain ⟨hlimit, hsome⟩ := hplace hkind
    rw [if_neg (by simp [hkind]), if_neg hkind, if_neg (Nat.not_lt.mpr hlimit), hsome]
    cases c <;> rfl

end Create

/-! ### DELETE_SQ, RESET_SQ and ABORT (R150, R151, R153) -/

/-- The first steps of a reset or delete of an SQ: its tail is T_r, and what waits ends with ABORTED (R150). -/
def State.beginEnd (s : State) (n : Nat) (state : SqState) : State :=
  ((s.updSq n fun q => { q with state, tr := q.tail, aborted := 0, loose := false }).dropWaiting n).flushDone

/-- A live SQ of the function begins to be emptied, its subchannels halt, and what may be completed is. -/
theorem State.endSq_live {s t : State} {fn n : Nat} (del : Bool) (hn : (s.fn fn).arg 4 2 = n) (hlt : n < 256)
    (hfree : (s.sq n).state ≠ .free) (hstopped : (s.sq n).state ≠ .stopped) (hown : (s.sq n).fn = fn)
    (hending : (s.sq n).ending = false) (ht : t = s.beginEnd n (if del then .deleting else .resetting)) :
    s.endSq fn del = ((t.schsOf (.sq n)).foldl (fun u k => u.haltSch k .reset) t).sqFlush n := by
  subst hn ht
  dsimp only [State.endSq]
  rw [if_neg (by simp [Nat.not_lt.mpr (Nat.le_of_lt_succ hlt), hfree, hstopped, hown]), if_neg (by simp [hending])]
  rfl

/-- An ABORT that has found its entry answers whether it is caught, and ends it with ABORTED where it is (R153). -/
def State.abortEntry (s : State) (fn n : Nat) (e : Entry) : State :=
  if s.abortCatches n e then
    ((((s.jobOf (.sq n) e.eid).elim (s.admDone fn .abortCaught 0) fun j =>
      (s.admDone fn .abortCaught 0).cancelJob j.id).endEntry (.sq n) e.eid .aborted).jrnWork).work
  else s.admDone fn .abortMissed 0

/-- ABORT of a CID that one uncompleted entry carries acts on that entry (R126, R153). -/
theorem exec_abort_sole {s : State} {fn n : Nat} {e : Entry} (hp : s.power.porst = false)
    (hrun : s.runsAdmin fn 0x89 = true) (hn : (s.fn fn).arg 4 2 = n) (hlt : n < 256) (hfree : (s.sq n).state ≠ .free)
    (hown : (s.sq n).fn = fn) (hcid : (s.uncompleted n).filter (fun e => e.cid == (s.fn fn).arg 6 2) = [e]) :
    exec (.abort fn) s = .next (finish s (s.abortEntry fn n e)) := by
  refine act_admin rfl hp hrun ?_
  subst hn
  dsimp only
  rw [if_neg (by simp [Nat.not_lt.mpr (Nat.le_of_lt_succ hlt), hfree, hown]), hcid]
  dsimp only [State.pickCid, State.abortEntry]
  cases s.jobOf (.sq ((s.fn fn).arg 4 2)) e.eid <;> rfl

/-- Settles O17: each queue by the lemma of its creation or of its end, and an ABORT by whether it is caught. -/
theorem adminSubmissionQueues : Obligations.Admin_submission_queues := by
  refine ⟨?journal, ?channel, ?admits, ?admitsLate, ?delete, ?reset, ?caught, ?missed⟩
  case journal =>
    intro s fn hp hrun hfree hzero hgrant hcq hown hcls hheld hkind
    exact act_admin rfl hp hrun ((State.createSq_checked (cp := 0) (l := []) hfree hzero hgrant hcq hown hcls hheld nofun
      fun h => absurd hkind h).trans (if_pos hkind))
  case channel =>
    intro s fn cp l hp hrun hfree hzero hgrant hcq hown hcls hheld hkind hlimit hplace
    exact act_admin rfl hp hrun ((State.createSq_checked hfree hzero hgrant hcq hown hcls hheld nofun
      fun _ => ⟨hlimit, hplace⟩).trans ((if_neg hkind).trans (if_neg nofun)))
  case admits =>
    intro s fn cp l hp hrun hfree hzero hgrant hcq hown hcls hheld hkind hreport hper hlimit hplace
    exact act_admin rfl hp hrun ((State.createSq_checked hfree hzero hgrant hcq hown hcls hheld
      (fun _ => ⟨hreport, hper⟩) fun _ => ⟨hlimit, hplace⟩).trans ((if_neg hkind).trans (if_pos rfl)))
  case admitsLate =>
    intro s fn cp l hp hrun hlate hfree hzero hgrant hcq hown hcls hheld hkind hreport hper hlimit hplace
    exact act_admin rfl hp hrun ((if_pos hlate).trans ((State.createSq_checked hfree hzero hgrant hcq hown hcls hheld
      (fun _ => ⟨hreport, hper⟩) fun _ => ⟨hlimit, hplace⟩).trans ((if_neg hkind).trans (if_pos rfl))))
  case delete =>
    intro s fn hp hrun hlt hfree hstopped hown hending
    exact ⟨_, rfl, act_admin rfl hp hrun (State.endSq_live true rfl hlt hfree hstopped hown hending rfl)⟩
  case reset =>
    intro s fn hp hrun hlt hfree hstopped hown hending
    exact ⟨_, rfl, act_admin rfl hp hrun (State.endSq_live false rfl hlt hfree hstopped hown hending rfl)⟩
  case caught =>
    intro s fn e hp hrun hlt hfree hown hcid hcatch hjob
    rw [exec_abort_sole hp hrun rfl hlt hfree hown hcid, State.abortEntry, if_pos hcatch, hjob, Option.elim_none]
  case missed =>
    intro s fn e hp hrun hlt hfree hown hcid hcatch
    rw [exec_abort_sole hp hrun rfl hlt hfree hown hcid, State.abortEntry, if_neg (by simp [hcatch])]

end Sys2Proof.Machine

/-! ## Proofs of the statements about pages, namespaces, features and the table window -/

namespace Sys2Proof.Machine

/-! ### Pages (R154) -/

/-- A write to host memory asks of a function only whether it masters the bus. -/
theorem State.hostWrite_setFn_self (s : State) (fn : Nat) (a : DWord) (bs : List Byte) :
    (s.setFn fn (s.fn fn)).hostWrite fn a bs = (s.hostWrite fn a bs).setFn fn (s.fn fn) := by
  dsimp only [State.hostWrite]
  rw [State.fn_setFn]
  split <;> rfl

theorem State.admWrite_setFn_self (s : State) (fn : Nat) (c : Cqe) :
    (s.setFn fn (s.fn fn)).admWrite fn c = s.admWrite fn c := by
  dsimp only [State.admWrite]
  rw [State.fn_setFn, State.hostWrite_setFn_self, State.setFn_setFn]
  rfl

/-- A function written back as it is changes no admin completion, however the functions are listed. -/
theorem State.admDone_setFn_self {s : State} {fn : Nat} (st : Status) (info : Word)
    (hentry : (s.fn fn).running.isSome = true) (hheld : (s.fn fn).heldAdmin = none) :
    (s.setFn fn (s.fn fn)).admDone fn st info = s.admDone fn st info := by
  have hdue : ¬ ((s.fn fn).running.isNone || (s.fn fn).heldAdmin.isSome) = true := by
    simp [hheld, Option.isSome_iff_ne_none.mp hentry]
  dsimp only [State.admDone]
  rw [State.fn_setFn, if_neg hdue, if_neg hdue, State.setFn_setFn, State.admWrite_setFn_self]

/-- ALLOC_PAGES of which nothing waits yet takes the pages it can, and completes once they are zeroed. -/
theorem State.allocStep_chosen {s : State} {fn : Nat} {l : List Nat} (hwait : (s.fn fn).pagesWait = none)
    (hchosen : s.allocPages fn ((s.fn fn).arg 4 4) ((s.fn fn).arg 8 4) = some l) :
    s.allocStep fn =
      if s.pagesFree l then (s.updFn fn fun f => { f with pagesWait := some l }).admDone fn .ok 0
      else s.updFn fn fun f => { f with pagesWait := some l } := by
  dsimp only [State.allocStep]
  rw [hwait]
  dsimp only
  rw [hchosen]
  rfl

/-- ALLOC_PAGES for which no pages can be chosen is refused. -/
theorem State.allocStep_refused {s : State} {fn : Nat} (hentry : (s.fn fn).running.isSome = true)
    (hheld : (s.fn fn).heldAdmin = none) (hwait : (s.fn fn).pagesWait = none)
    (hchosen : s.allocPages fn ((s.fn fn).arg 4 4) ((s.fn fn).arg 8 4) = none) :
    s.allocStep fn = s.admDone fn .refusedResource 0 := by
  have hsame : (s.updFn fn fun f => { f with pagesWait := none }) = s.setFn fn (s.fn fn) := by
    rw [State.updFn_eq, ← hwait]
  rw [← State.admDone_setFn_self _ _ hentry hheld, ← hsame]
  dsimp only [State.allocStep]
  rw [hwait]
  dsimp only
  rw [hchosen]

/-- Unmapping a page leaves the functions as they are. -/
theorem State.unmapPage_fn (s : State) (sag v n : Nat) : (s.unmapPage sag v).fn n = s.fn n := by
  dsimp only [State.unmapPage]
  split <;> rfl

/-- While pages are unmapped one by one the function's entry names the same first page. -/
theorem State.foldl_unmapPage_first (first : Fn → Nat) (l : List Nat) (s : State) (fn : Nat) :
    l.foldl (fun t i => t.unmapPage fn (first (t.fn fn) + i)) s =
      l.foldl (fun t i => t.unmapPage fn (first (s.fn fn) + i)) s := by
  induction l generalizing s with
  | nil => rfl
  | cons i rest ih => rw [List.foldl_cons, List.foldl_cons, ih, State.unmapPage_fn]

/-- Mapped view pages without a program lock are unmapped. -/
theorem State.freePages_mapped {s : State} {fn first n : Nat} (hfit : first + n ≤ 4096)
    (hmapped : (List.range n).all (fun i => (s.viewPage fn (first + i)).isSome &&
      !s.ls.locks.any fun l => l.sag == fn && l.view == first + i) = true) :
    s.freePages fn first n = (.ok, (List.range n).foldl (fun s i => s.unmapPage fn (first + i)) s) := by
  have hnone : ((List.range n).any fun i => (s.viewPage fn (first + i)).isNone ||
      s.ls.locks.any fun l => l.sag == fn && l.view == first + i) = false := by
    rw [← Bool.not_eq_true', List.not_any_eq_all_not, ← hmapped]
    simp
  rw [State.freePages, hnone, if_neg (by simp [hfit])]

/-! ### Namespaces (R155, R289) -/

/-- A namespace that is absent, within the limits and the free folios, is made. -/
theorem State.createNs_made {s : State} {sag nsid typ n : Nat} (hnot0 : nsid ≠ 0) (habsent : (s.ns nsid).exist = false)
    (hzero : (s.ns nsid).zeroing = false) (hfits : s.nsFits sag n = true) (hfree : n ≤ s.jrnFree) :
    s.createNs sag nsid typ n = (.ok, s.setNs nsid
      { owner := sag, exist := true, type := .ofNum typ, nfol := n, createStime := s.stime }) := by
  dsimp only [State.createNs]
  rw [if_neg hnot0, if_neg (by simp [habsent]), if_neg (by simp [hzero]), if_neg (by simp [hfits, hfree])]

/-- Nobody creates namespace 0. -/
theorem State.createNs_zero (s : State) (sag typ n : Nat) : s.createNs sag 0 typ n = (.refusedRights, s) := rfl

/-- The saggar's own namespace that nothing names begins its zeroing, a SEALED one only with DEL_OK. -/
theorem State.deleteNs_begins {s : State} {sag nsid : Nat} (hrange : nsid ≤ 1023) (hnot0 : nsid ≠ 0)
    (hexist : (s.ns nsid).exist = true) (hzero : (s.ns nsid).zeroing = false) (hown : (s.ns nsid).owner = sag)
    (hseal : (s.ns nsid).type ≠ .sealed ∨ (s.ns nsid).delOk = true) (hadmitted : s.nsAdmitted nsid = false)
    (hnamed : s.nsNamed nsid = false) : s.deleteNs sag nsid = (.ok, s.startZero nsid true sag) := by
  have hmay : ((s.ns nsid).type == .sealed && !(s.ns nsid).delOk) = false := by
    obtain htype | hdel := hseal
    · simp [htype]
    · simp [hdel]
  dsimp only [State.deleteNs]
  rw [if_neg (Nat.not_lt.mpr hrange), if_neg (by simp [hzero]), if_neg (by simp [hexist]),
    if_neg (by simp [hnot0, hown, hmay]), if_neg (by simp [hadmitted, hnamed])]

/-- Settles O18: each command by the lemma of what it does to the pages or the namespaces. -/
theorem adminPagesAndNamespaces : Obligations.Admin_pages_and_namespaces := by
  refine ⟨?zeroed, ?waits, ?refused, ?freed, ?created, ?createdZero, ?deleted⟩
  case zeroed =>
    intro s fn l hp hrun hwait hchosen hfree
    exact act_admin rfl hp hrun ((State.allocStep_chosen hwait hchosen).trans (if_pos hfree))
  case waits =>
    intro s fn l hp hrun hwait hchosen hfree
    exact act_admin rfl hp hrun ((State.allocStep_chosen hwait hchosen).trans (if_neg (by simp [hfree])))
  case refused =>
    intro s fn hp hrun hwait hchosen
    obtain ⟨hentry, hheld⟩ := State.runsAdmin_due hrun
    exact act_admin rfl hp hrun (State.allocStep_refused hentry hheld hwait hchosen)
  case freed =>
    intro s fn hp hrun hfit hmapped
    refine act_admin rfl hp hrun ?_
    rw [State.freePages_mapped hfit hmapped, State.foldl_unmapPage_first fun f => f.arg 4 4]
  case created =>
    intro s fn hp hrun hnot0 habsent hzero hfits hfree
    refine act_admin rfl hp hrun ?_
    rw [State.createNs_made hnot0 habsent hzero hfits hfree]
  case createdZero =>
    intro s fn hp hrun h0
    refine act_admin rfl hp hrun ?_
    rw [h0, State.createNs_zero]
  case deleted =>
    intro s fn hp hrun hrange hnot0 hexist hzero hown hseal hadmitted hnamed
    refine act_admin rfl hp hrun ?_
    rw [State.deleteNs_begins hrange hnot0 hexist hzero hown hseal hadmitted hnamed]

/-! ### Features and queries (R156, R157) -/

/-- Settles O19: each command past the tests of its feature, its object and its buffer. -/
theorem adminFeaturesAndQueries : Obligations.Admin_features_and_queries := by
  refine ⟨?get, ?setArb, ?setAgg, ?setOther, ?identify, ?querySq, ?queryCq⟩
  case get =>
    intro s fn hp hrun hlo hhi hobj
    exact act_admin rfl hp hrun (if_neg (by simp [hobj, Nat.one_le_iff_ne_zero.mp hlo, hhi]))
  case setArb =>
    intro s fn hp hrun hfid hobj hweight
    refine act_admin rfl hp hrun ?_
    dsimp only
    rw [hfid, if_neg (by decide), if_neg (by decide), if_neg (by simp [hobj]), if_pos rfl, if_neg (by simpa using hweight)]
  case setAgg =>
    intro s fn hp hrun hfid hobj
    refine act_admin rfl hp hrun ?_
    dsimp only
    rw [hfid, if_neg (by decide), if_neg (by decide), if_neg (by simp [hobj]), if_neg (by decide)]
  case setOther =>
    intro s fn hp hrun hlo hhi hne5 hne6
    exact act_admin rfl hp hrun ((if_neg (by simp [Nat.one_le_iff_ne_zero.mp hlo, hhi])).trans
      (if_pos (by simp [hne5, hne6])))
  case identify =>
    intro s fn hp hrun hbuf
    refine act_admin rfl hp hrun ?_
    dsimp only
    rw [hbuf]
  case querySq =>
    intro s fn hp hrun hbuf hn hkind hmay
    refine act_admin rfl hp hrun ?_
    dsimp only
    rw [hbuf]
    dsimp only
    rw [if_neg (Nat.not_lt.mpr (Nat.le_of_lt_succ hn)), if_pos hkind, if_neg (by obtain h | h := hmay <;> simp [h])]
  case queryCq =>
    intro s fn hp hrun hbuf hn hkind hmay
    refine act_admin rfl hp hrun ?_
    dsimp only
    rw [hbuf]
    dsimp only
    rw [if_neg (Nat.not_lt.mpr (Nat.le_of_lt_succ hn)), if_neg hkind, if_neg (by obtain h | h := hmay <;> simp [h])]

/-! ### The table window (R159, R417, R422 to R424) -/

/-- An access to the window while no check runs is served (R424). -/
theorem State.tblFree_idle {s : State} {f : State → State} (hidle : s.msp.busy = none) : s.tblFree f = f s := by
  rw [State.tblFree, hidle]
  rfl

/-- Setting or clearing one bit of a word leaves the others. -/
theorem bit_setBit_other {k : Nat} (w : BitVec k) (b : Bool) {i j : Nat} (h : j ≠ i) : bit (setBit w i b) j = bit w j := by
  rw [bit_setBit, if_neg h]

/-- Settles O7: each access past READY and BUSY, by HOLD and the buffer; the end of a check by its verdict. -/
theorem tableWindow : Obligations.Table_window := by
  refine ⟨?select, ?writeLive, ?writeHeld, ?read, ?commit, ?discard, ?checkEnd⟩
  case select =>
    intro s w hp hready hidle hbuf
    dsimp only [exec, execTblSelWrite, State.tblSelWrite]
    rw [act_served rfl hp hready, State.tblFree_idle hidle, hbuf]
    rfl
  case writeLive =>
    intro s w hp hready hidle hhold
    dsimp only [exec, execTblDataWrite, State.tblDataPut]
    rw [act_served rfl hp hready, State.tblFree_idle hidle, if_pos (by simp [hhold])]
  case writeHeld =>
    intro s w hp hready hidle hhold hroom
    dsimp only [exec, execTblDataWrite, State.tblDataPut]
    rw [act_served rfl hp hready, State.tblFree_idle hidle, if_neg (by simp [hhold]), if_pos (by simp [hroom])]
  case read =>
    intro s hp hready hidle
    dsimp only [exec, execTblDataRead, State.tblDataGet]
    rw [act_up rfl hp, if_neg (by simp [hready]), if_neg (by simp [hidle])]
  case commit =>
    intro s w hp hready hidle hbuf hhold hkeep
    have htake : (bit (setBit w 2 true) 2 && !s.msp.buf.isEmpty) = true := by simp [bit_setBit, hbuf]
    have hbit (j : Nat) (hj : j ≠ 2) : bit (setBit w 2 true) j = bit w j := bit_setBit_other w true hj
    dsimp only [exec, execCommit, State.tblCtlWrite]
    rw [act_served rfl hp hready, State.tblFree_idle hidle, hbit 0 (by decide), hbit 1 (by decide), hbit 3 (by decide),
      htake, hhold, hkeep]
    rfl
  case discard =>
    intro s w hp hready hidle hcommit
    have hdrop : bit (setBit w 3 true) 3 = true := by simp [bit_setBit]
    have hbit (j : Nat) (hj : j ≠ 3) : bit (setBit w 3 true) j = bit w j := bit_setBit_other w true hj
    dsimp only [exec, execDiscard, State.tblCtlWrite]
    rw [act_served rfl hp hready, State.tblFree_idle hidle, hbit 0 (by decide), hbit 1 (by decide), hbit 2 (by decide),
      hcommit, hdrop]
    simp [State.updMsp]
  case checkEnd =>
    intro s b k n hp hbusy hheld hshape
    refine ⟨_, _, _, rfl, rfl, rfl, ?_⟩
    have hwords (g : Msp → Msp) : (s.updMsp g).tblWrites b.table n b.words = s.tblWrites b.table n b.words := rfl
    dsimp only [exec, execTableCheckEnd]
    rw [act_up rfl hp, hbusy]
    dsimp only
    rw [if_neg (by simp [hheld]), hshape]
    dsimp only
    rw [hwords]
    cases State.tblAdmit _ b.table (s.tblWrites b.table n b.words) <;> rfl

end Sys2Proof.Machine

/-! ## Proofs of the statements about the control commands of the slim host port -/

namespace Sys2Proof.Machine

/-! ### A good request (R444, R446) -/

section Request

variable {s t : State} {cmd : Nat} {req a : List Byte} (ht : t = s.updShp fun p => { p with response := [] })

include ht

/-- A request of the right length and CRC runs its command on its parameters, with the earlier response gone. -/
theorem State.shpCommand_good (hen : s.shp.en = true) (hcmd : leAt req 0 1 = cmd)
    (hlen : shpLength req = some req.length) (hcrc : crc8 req.dropLast = req.getLastD 0)
    (ha : a = (req.drop 1).dropLast) (f : State → List Byte → State) : s.shpCommand cmd req f = f t a := by
  subst ht ha
  dsimp only [State.shpCommand]
  rw [if_neg (by simp [hen]), hlen]
  dsimp only
  rw [if_neg (by simp), if_neg (by simp [hcrc]), if_neg (by simp), if_neg (by simp [hcmd])]

variable (hactive : s.shp.active = true)

include hactive

/-- A port that is ACTIVE serves its saggar. -/
theorem State.shpServing_active (f : State → State) : t.shpServing f = f t := by
  subst ht
  exact if_pos hactive

/-- A control command is accepted while none runs. -/
theorem State.shpControl_accepts (hfree : t.shp.ctl = none) :
    t.shpControl cmd a = (t.updShp fun p => { p with ctl := some { cmd, req := a } }).shpAck [] := by
  rw [State.shpControl, State.shpServing_active ht hactive, if_neg (by simp [hfree])]

end Request

/-! ### The end of a control command (R154, R155, R159, R424, R450) -/

/-- SHP_CONTROL_DONE ends a command that changes shared state once no table check and no earlier change holds it back. -/
theorem exec_shpControlDone_shared {s : State} {c : ShpCtl} (hp : s.power.porst = false) (hctl : s.shp.ctl = some c)
    (hcmd : c.cmd ≠ 0x1A) (hidle : s.msp.busy = none) (hheld : s.sharedHeld = false) :
    exec .shpControlDone s = .next (finish s (
      if c.cmd = 0x17 then s.shpReserve (leAt c.req 0 1) (leAt c.req 1 1) (leAt c.req 2 1)
      else if c.cmd = 0x18 then s.shpPagesStep c.req
      else s.shpNsStep c.req)) := by
  dsimp only [exec, execShpControlDone]
  rw [act_up rfl hp, hctl]
  dsimp only
  rw [if_neg hcmd, if_neg (by simp [hidle, hheld])]

/-- A QRESET whose programs and media accesses have ended completes what is left with ABORTED (R450). -/
theorem State.shpQresetStep_ends {s : State}
    (hprograms : ((s.schsOf .shp).any fun n => (s.sch n).state != .idle) = false)
    (hmedia : s.shp.entries.any s.shpOnMedia = false) {l : List Entry}
    (hl : l = (s.shp.entries.map fun e => { e with phase := .ended .aborted }) ++
      s.shp.waiting.map (fun bs =>
        if isJrnOp bs && !jrnBad bs false then jrnEntry bs { s.blankEntry 0 (leAt bs 2 2) with phase := .ended .aborted }
        else { s.blankEntry 0 (leAt bs 2 2) with phase := .ended .aborted })) :
    s.shpQresetStep = State.shpDone (s.updShp fun p =>
      { p with comps := p.comps ++ l.map s.shpComp, entries := [], waiting := [], error := false, qresetting := false })
      .ok 0 := by
  subst hl
  dsimp only [State.shpQresetStep]
  rw [if_neg (by simp only [hprograms, hmedia]; decide)]

/-- Settles O49: a good request is accepted by its framing and the free control place, and each command's end follows its code. -/
theorem slimPortControl : Obligations.Slim_port_control := by
  refine ⟨?setup, ?pages, ?ns, ?qreset, ?setupDone, ?pagesDone, ?nsDone, ?qresetDone⟩
  case setup =>
    intro s req t a hp hen hcmd hlen hcrc ht ha hactive hfree htags
    dsimp only [exec, execShpSetup]
    rw [act_up rfl hp, State.shpCommand_good ht hen hcmd hlen hcrc ha, State.shpServing_active ht hactive,
      if_neg (by simp [hfree]), if_neg (by simp [htags]), State.shpControl_accepts ht hactive hfree]
  case pages =>
    intro s req t a hp hen hcmd hlen hcrc ht ha hactive hfree
    dsimp only [exec, execShpPages]
    rw [act_up rfl hp, State.shpCommand_good ht hen hcmd hlen hcrc ha, State.shpControl_accepts ht hactive hfree]
  case ns =>
    intro s req t a hp hen hcmd hlen hcrc ht ha hactive hfree
    dsimp only [exec, execShpNs]
    rw [act_up rfl hp, State.shpCommand_good ht hen hcmd hlen hcrc ha, State.shpControl_accepts ht hactive hfree]
  case qreset =>
    intro s req t a hp hen hcmd hlen hcrc ht ha hactive hfree
    dsimp only [exec, execShpQreset]
    rw [act_up rfl hp, State.shpCommand_good ht hen hcmd hlen hcrc ha, State.shpServing_active ht hactive,
      if_neg (by simp [hfree]), State.shpControl_accepts ht hactive hfree]
  case setupDone =>
    intro s c hp hctl hcmd hidle hheld
    rw [exec_shpControlDone_shared hp hctl (by simp [hcmd]) hidle hheld, if_pos hcmd]
  case pagesDone =>
    intro s c hp hctl hcmd hidle hheld
    rw [exec_shpControlDone_shared hp hctl (by simp [hcmd]) hidle hheld, if_neg (by simp [hcmd]), if_pos hcmd]
  case nsDone =>
    intro s c hp hctl hcmd hidle hheld
    rw [exec_shpControlDone_shared hp hctl (by simp [hcmd]) hidle hheld, if_neg (by simp [hcmd]),
      if_neg (by simp [hcmd])]
  case qresetDone =>
    intro s c l hp hctl hcmd hprograms hmedia hl
    dsimp only [exec, execShpControlDone]
    rw [act_up rfl hp, hctl]
    dsimp only
    rw [if_pos hcmd, State.shpQresetStep_ends hprograms hmedia hl]

end Sys2Proof.Machine

/-! ## Proofs of the statements about the local store, the control registers of the units and zeroing -/

namespace Sys2Proof.Machine

/-! ### Writes of the local store (R171, R172) -/

/-- One byte of a view written: nothing where its page is not mapped. -/
def State.byteSet (s : State) (sag off : Nat) (b : Byte) : State := (s.phys sag off).elim s fun a => s.physSet a b

theorem State.lsPut_cons (s : State) (sag off : Nat) (b : Byte) (rest : List Byte) :
    s.lsPut sag off (b :: rest) = (s.byteSet sag off b).lsPut sag (off + 1) rest := by
  rw [State.lsPut, State.byteSet]
  cases s.phys sag off <;> rfl

/-- Writing a byte maps no page. -/
@[simp] theorem State.phys_byteSet (s : State) (sag off : Nat) (b : Byte) (g o : Nat) :
    (s.byteSet sag off b).phys g o = s.phys g o := by
  rw [State.byteSet]
  cases s.phys sag off <;> rfl

theorem State.byteSet_get_self {s : State} {sag off a : Nat} (b : Byte) (h : s.phys sag off = some a) :
    (s.byteSet sag off b).ls.mem.get 0 a = b := by
  rw [State.byteSet, h]
  exact Store.get_set_self ..

theorem State.byteSet_get_other {s : State} {sag off a : Nat} (b : Byte) (h : s.phys sag off ≠ some a) :
    (s.byteSet sag off b).ls.mem.get 0 a = s.ls.mem.get 0 a := by
  cases hphys : s.phys sag off with
  | none => rw [State.byteSet, hphys, Option.elim_none]
  | some c =>
    rw [State.byteSet, hphys]
    exact Store.get_set_other _ _ _ _ _ fun hac => h (hac ▸ hphys)

/-- Writing bytes maps no page. -/
@[simp] theorem State.phys_lsPut (s : State) (sag off : Nat) (bs : List Byte) (g o : Nat) :
    (s.lsPut sag off bs).phys g o = s.phys g o := by
  induction bs generalizing s off with
  | nil => rfl
  | cons b rest ih => rw [State.lsPut_cons, ih, State.phys_byteSet]

/-- A physical byte that no written place maps to stays (R172). -/
theorem State.lsPut_get_other {s : State} {sag off a : Nat} {bs : List Byte}
    (h : ∀ i, i < bs.length → s.phys sag (off + i) ≠ some a) :
    (s.lsPut sag off bs).ls.mem.get 0 a = s.ls.mem.get 0 a := by
  induction bs generalizing s off with
  | nil => rfl
  | cons b rest ih =>
    have hfirst : s.phys sag off ≠ some a := h 0 (Nat.succ_pos _)
    have hrest : ∀ i, i < rest.length → (s.byteSet sag off b).phys sag (off + 1 + i) ≠ some a := fun i hi => by
      rw [State.phys_byteSet, Nat.add_right_comm]
      exact h (i + 1) (Nat.succ_lt_succ hi)
    rw [State.lsPut_cons, ih hrest, State.byteSet_get_other b hfirst]

/-- A physical byte that one written place alone maps to takes that place's byte (R172). -/
theorem State.lsPut_get_written {s : State} {sag off a i : Nat} {bs : List Byte} (hi : i < bs.length)
    (hphys : s.phys sag (off + i) = some a)
    (halone : ∀ j, j < bs.length → s.phys sag (off + j) = some a → j = i) :
    (s.lsPut sag off bs).ls.mem.get 0 a = bs[i] := by
  induction bs generalizing s off i with
  | nil => exact absurd hi (Nat.not_lt_zero i)
  | cons b rest ih =>
    have hshift : ∀ j, (s.byteSet sag off b).phys sag (off + 1 + j) = s.phys sag (off + (j + 1)) := fun j => by
      rw [State.phys_byteSet, Nat.add_right_comm, Nat.add_assoc]
    rw [State.lsPut_cons]
    cases i with
    | zero =>
      have hlater : ∀ j, j < rest.length → (s.byteSet sag off b).phys sag (off + 1 + j) ≠ some a := fun j hj hj' =>
        absurd (halone (j + 1) (Nat.succ_lt_succ hj) (hshift j ▸ hj')) (Nat.succ_ne_zero j)
      rw [State.lsPut_get_other hlater]
      exact State.byteSet_get_self b hphys
    | succ k =>
      exact ih (Nat.lt_of_succ_lt_succ hi) ((hshift k).trans hphys) fun j hj hj' =>
        Nat.succ.inj (halone (j + 1) (Nat.succ_lt_succ hj) (hshift j ▸ hj'))

/-- Clearing poison maps no page. -/
@[simp] theorem State.phys_unpoison (s : State) (sag off len g o : Nat) :
    (s.unpoison sag off len).phys g o = s.phys g o := by
  dsimp only [State.unpoison]
  split <;> rfl

/-- A write puts its bytes in the memory; the poison that it clears is kept beside it (R384). -/
@[simp] theorem State.lsWrite_mem (s : State) (sag off : Nat) (bs : List Byte) :
    (s.lsWrite sag off bs).ls.mem = (s.lsPut sag off bs).ls.mem := State.unpoison_mem ..

@[simp] theorem State.phys_lsWrite (s : State) (sag off : Nat) (bs : List Byte) (g o : Nat) :
    (s.lsWrite sag off bs).phys g o = s.phys g o := by
  rw [State.lsWrite, State.phys_unpoison, State.phys_lsPut]

theorem State.lsByte_mapped {s : State} {sag off a : Nat} (h : s.phys sag off = some a) :
    s.lsByte sag off = s.ls.mem.get 0 a := by
  rw [State.lsByte, h]

/-- A read of a range just written, all of it mapped and no two places to one byte, gives the bytes written (R172). -/
theorem State.lsRead_lsWrite {s : State} {sag off : Nat} {bs : List Byte}
    (hmapped : ∀ i, i < bs.length → (s.phys sag (off + i)).isSome = true)
    (hinj : ∀ i j, i < bs.length → j < bs.length → s.phys sag (off + i) = s.phys sag (off + j) → i = j) :
    (s.lsWrite sag off bs).lsRead sag off bs.length = bs := by
  refine List.ext_getElem (by simp [State.lsRead]) fun i _ hi => ?_
  obtain ⟨a, ha⟩ := Option.isSome_iff_exists.mp (hmapped i hi)
  have hbyte : (s.lsWrite sag off bs).lsByte sag (off + i) = bs[i] := by
    rw [State.lsByte_mapped ((State.phys_lsWrite ..).trans ha), State.lsWrite_mem]
    exact State.lsPut_get_written hi ha fun j hj hja => hinj j i hj hi (hja.trans ha.symm)
  simpa [State.lsRead] using hbyte

/-- Settles O54: what each written byte changes, by induction on the bytes; the read then follows place by place. -/
theorem localStoreWrites : Obligations.Local_store_writes := by
  intro s sag off bs
  refine ⟨?others, ?canonical, ?readsBack⟩
  case others =>
    intro a hout
    rw [State.lsWrite_mem, State.lsPut_get_other hout]
  case canonical => exact State.lsWrite_wf sag off bs
  case readsBack => exact State.lsRead_lsWrite

/-! ### JRN_CTL and SHP_CTL (R161, R311, R429) -/

/-- WAKE with MAXPS as it is touches the lock and MAXPS in nothing (R311). -/
theorem State.jrnCtlWrite_wake {s : State} {w : Word} (hmax : fld w 0 2 = s.jrn.maxps) :
    s.jrnCtlWrite (setBit w 2 true) =
      if s.jrn.ps = 0 then s.updJrn fun j => { j with lastOp := s.clk } else s.jrnExit := by
  have hfield : fld (setBit w 2 true) 0 2 = s.jrn.maxps := by rw [fld_setBit w 2 0 2 true (by decide), hmax]
  have hwake : bit (setBit w 2 true) 2 = true := by simp [bit_setBit]
  dsimp only [State.jrnCtlWrite]
  rw [if_pos hwake, if_pos hfield]

/-- The exit from a power state begins once (R306). -/
theorem State.jrnExit_begins {s : State} (hps : s.jrn.ps ≠ 0) (hexit : s.jrn.exitAt = none) :
    s.jrnExit = s.updJrn fun j =>
      { j with exitAt := some (s.clk + exitNs j.ps), wakes := if j.ps = 2 then sat16 j.wakes else j.wakes } :=
  if_neg (by simp [hps, hexit])

/-- WAKE once READY is set, with MAXPS as it is (R311). -/
theorem exec_wake_ready {s : State} {w : Word} (hp : s.power.porst = false) (hready : s.dev.ready = true)
    (hmax : fld w 0 2 = s.jrn.maxps) :
    exec (.wake w) s = .next (finish s
      (if s.jrn.ps = 0 then s.updJrn fun j => { j with lastOp := s.clk } else s.jrnExit)) := by
  dsimp only [exec, execWake]
  rw [act_served rfl hp hready, State.jrnCtlWrite_wake hmax]

/-- EN = 1 binds the port that is off to a saggar whose function is off (R161, R429). -/
theorem State.shpCtlWrite_binds {s : State} {w : Word} (hlock : s.dev.lock = false) (hoff : s.shp.en = false)
    (hon : bit w 0 = true) (hfn : (s.fn (fld w 8 6)).en = false) :
    s.shpCtlWrite w = State.shpRefresh (s.updShp fun p =>
      { p with en := true, sag := fld w 8 6, quad := bit w 16, cfgErr := false }) := by
  dsimp only [State.shpCtlWrite]
  rw [if_neg (by simp [hlock]), if_neg (by simp [hfn]), if_neg (by simp [hoff]), hon]

/-! ### LNK_CTL (R333, R334, R336) -/

/-- The fields of LNK_CTL between EN and RETRAIN (Table 14.8). -/
def State.takeLnkCtl (s : State) (w : Word) : State :=
  s.updLnk fun l => { l with mcap := bit w 1, mtick := bit w 2, tsync := bit w 3, rto := fld w 8 16 }

/-- The fields between EN and RETRAIN depend on neither. -/
theorem State.takeLnkCtl_setBit (s : State) (w : Word) {i : Nat} (b : Bool) (hi : i = 0 ∨ i = 24) :
    s.takeLnkCtl (setBit w i b) = s.takeLnkCtl w := by
  have h1 : bit (setBit w i b) 1 = bit w 1 := by rw [bit_setBit, if_neg (by omega)]
  have h2 : bit (setBit w i b) 2 = bit w 2 := by rw [bit_setBit, if_neg (by omega)]
  have h3 : bit (setBit w i b) 3 = bit w 3 := by rw [bit_setBit, if_neg (by omega)]
  have hrto : fld (setBit w i b) 8 16 = fld w 8 16 := fld_setBit w i 8 16 b (by omega)
  simp only [State.takeLnkCtl, h1, h2, h3, hrto]

/-- The node goes on the ring or off it where the written EN differs from its own (R333, R336). -/
def State.lnkSwitch (s : State) (en : Bool) : State :=
  if en && !s.lnk.en then s.lnkOn else if !en && s.lnk.en then s.lnkOff else s

/-- A write of LNK_CTL to the unlocked block that sets EN only with KILN_SRC naming the link takes its fields, then EN, then
RETRAIN (R334, Table 14.8). -/
theorem State.lnkCtlWrite_unlocked {s : State} {w : Word} (hlock : s.dev.lock = false)
    (hsrc : bit w 0 = true → s.kiln.src = 2) :
    s.lnkCtlWrite w =
      if bit w 24 then ((s.takeLnkCtl w).lnkSwitch (bit w 0)).retrain else (s.takeLnkCtl w).lnkSwitch (bit w 0) := by
  dsimp only [State.lnkCtlWrite]
  rw [if_neg (by simp [hlock]), if_neg (by simpa using hsrc)]
  rfl

/-- LNK_ENABLE and LNK_DISABLE write EN; without RETRAIN nothing but EN follows the fields. -/
theorem State.lnkCtlWrite_setEn {s : State} {w : Word} (en : Bool) (hlock : s.dev.lock = false)
    (hsrc : en = true → s.kiln.src = 2) (hretrain : bit w 24 = false) :
    s.lnkCtlWrite (setBit w 0 en) = (s.takeLnkCtl w).lnkSwitch en := by
  have hen : bit (setBit w 0 en) 0 = en := by simp [bit_setBit]
  have h24 : bit (setBit w 0 en) 24 = false := by rw [bit_setBit, if_neg (by decide), hretrain]
  rw [State.lnkCtlWrite_unlocked hlock (by rwa [hen]), if_neg (by simp [h24]), hen,
    State.takeLnkCtl_setBit s w en (.inl rfl)]

/-- RETRAIN with the EN of the word. -/
theorem State.lnkCtlWrite_setRetrain {s : State} {w : Word} (hlock : s.dev.lock = false)
    (hsrc : bit w 0 = true → s.kiln.src = 2) :
    s.lnkCtlWrite (setBit w 24 true) = ((s.takeLnkCtl w).lnkSwitch (bit w 0)).retrain := by
  have hen : bit (setBit w 24 true) 0 = bit w 0 := by rw [bit_setBit, if_neg (by decide)]
  have h24 : bit (setBit w 24 true) 24 = true := by simp [bit_setBit]
  rw [State.lnkCtlWrite_unlocked hlock (by rwa [hen]), if_pos h24, hen, State.takeLnkCtl_setBit s w true (.inr rfl)]

theorem State.lnkSwitch_enters {s : State} (h : s.lnk.en = false) : s.lnkSwitch true = s.lnkOn := if_pos (by simp [h])

theorem State.lnkSwitch_leaves {s : State} (h : s.lnk.en = true) : s.lnkSwitch false = s.lnkOff :=
  (if_neg (by simp)).trans (if_pos (by simp [h]))

theorem State.lnkSwitch_stays {s : State} {en : Bool} (h : s.lnk.en = en) : s.lnkSwitch en = s :=
  (if_neg (by simp [h])).trans (if_neg (by simp [h]))

/-- Settles O11: each register takes the write past its guards, and the unit's own state picks the effect. -/
theorem unitRegisterWrites : Obligations.Unit_register_writes := by
  refine ⟨?wmClr, ?wakeAwake, ?wakeExit, ?shpBinds, ?lnkEnters, ?lnkLeaves, ?retrain⟩
  case wmClr =>
    intro s w hp hready
    dsimp only [exec, execWmClr]
    rw [act_up rfl hp, if_pos hready, State.wmClrWrite]
  case wakeAwake =>
    intro s w hp hready hmax hawake
    rw [exec_wake_ready hp hready hmax, if_pos hawake]
  case wakeExit =>
    intro s w hp hready hmax hps hexit
    rw [exec_wake_ready hp hready hmax, if_neg hps, State.jrnExit_begins hps hexit]
  case shpBinds =>
    intro s w hp hready hlock hoff hon hfn
    dsimp only [exec, execShpCtlWrite]
    rw [act_served rfl hp hready, State.shpCtlWrite_binds hlock hoff hon hfn]
  case lnkEnters =>
    intro s w hp hready hlock hsrc hoff hretrain
    dsimp only [exec, execLnkEnable]
    rw [act_served rfl hp hready, State.lnkCtlWrite_setEn true hlock (fun _ => hsrc) hretrain,
      State.lnkSwitch_enters (s := s.takeLnkCtl w) hoff, State.takeLnkCtl]
  case lnkLeaves =>
    intro s w hp hready hlock hon hretrain
    dsimp only [exec, execLnkDisable]
    rw [act_served rfl hp hready, State.lnkCtlWrite_setEn false hlock (nofun) hretrain,
      State.lnkSwitch_leaves (s := s.takeLnkCtl w) hon, State.takeLnkCtl]
  case retrain =>
    intro s w hp hready hlock hsrc hon hen
    dsimp only [exec, execRetrain]
    rw [act_served rfl hp hready, State.lnkCtlWrite_setRetrain hlock (fun _ => hsrc), hen,
      State.lnkSwitch_stays (s := s.takeLnkCtl w) hon, State.takeLnkCtl]

/-! ### The end of zeroing (R176, R178, R179) -/

/-- Settles O39: the kind of what was zeroed picks the effect, and its zeroing state the guard. -/
theorem zeroingEnds : Obligations.Zeroing_ends := by
  refine ⟨?page, ?fifo, ?prefetch, ?bmSet, ?ns⟩
  case page =>
    intro s p g hp hwf hstate
    refine ⟨_, rfl, ?_⟩
    dsimp only [exec, execZeroingDone]
    rw [act_up hwf hp, hstate]
    rfl
  case fifo =>
    intro s p hp hwf
    dsimp only [exec, execZeroingDone]
    rw [act_up hwf hp]
  case prefetch | bmSet | ns =>
    intro s n hp hwf hzero
    dsimp only [exec, execZeroingDone]
    rw [act_up hwf hp, if_pos hzero]

end Sys2Proof.Machine

/-! ## Proofs of the statements about the block mover -/

namespace Sys2Proof.Machine

/-! ### The fields of a channel's CTL (Table 8.4) -/

theorem bit_or {w : Nat} (x y : BitVec w) (i : Nat) : bit (x ||| y) i = (bit x i || bit y i) := BitVec.getLsbD_or

theorem fld_or {w : Nat} (x y : BitVec w) (lo n : Nat) : fld (x ||| y) lo n = fld x lo n ||| fld y lo n := by
  simp [fld, Nat.shiftRight_or_distrib, Nat.or_mod_two_pow]

/-- A placed flag is a bit of the zero word set to it. -/
theorem putB_eq_setBit (i : Nat) (b : Bool) : putB i b = setBit 0 i b := by
  cases b <;> simp [putB, setBit]

theorem bit_putB {i : Nat} (b : Bool) (j : Nat) (hi : i < 32) : bit (putB i b) j = (b && decide (j = i)) := by
  rw [putB_eq_setBit, bit_setBit]
  by_cases hj : j = i
  · simp [hj, hi]
  · simp [hj, bit]

/-- A value placed at a bit leaves the bits below it clear. -/
theorem bit_put_below {lo j : Nat} (v : Nat) (h : j < lo) : bit (put lo v) j = false := by
  rw [bit, put, BitVec.getLsbD_ofNat, Nat.testBit_shiftLeft, decide_eq_false (Nat.not_le.mpr h), Bool.false_and,
    Bool.and_false]

/-- A flag below a field is no part of it. -/
theorem fld_putB_below {i lo : Nat} (b : Bool) (n : Nat) (h : i < lo) : fld (putB i b) lo n = 0 := by
  rw [putB_eq_setBit, fld_setBit 0 i lo n b (.inl h)]
  simp [fld]

/-- A field reads the value that was placed in it. -/
theorem fld_put {lo n v : Nat} (hv : v < 2 ^ n) (hn : lo + n ≤ 32) : fld (put lo v) lo n = v := by
  have hword : v <<< lo < 2 ^ 32 :=
    calc v <<< lo = v * 2 ^ lo := Nat.shiftLeft_eq v lo
      _ < 2 ^ n * 2 ^ lo := Nat.mul_lt_mul_of_pos_right hv (Nat.two_pow_pos lo)
      _ = 2 ^ (lo + n) := by rw [Nat.add_comm, Nat.pow_add]
      _ ≤ 2 ^ 32 := Nat.pow_le_pow_right (by decide) hn
  rw [fld, put, BitVec.toNat_ofNat, Nat.mod_eq_of_lt hword, Nat.shiftLeft_shiftRight, Nat.mod_eq_of_lt hv]

/-- The bits of CTL below the vector: the four flags, and the commands, which read zero. -/
theorem Bm.bit_ctl (b : Bm) {j : Nat} (hj : j < 8) :
    bit b.ctl j = (b.ieHalf && decide (j = 3) || b.ieFull && decide (j = 4) || b.ping && decide (j = 5) ||
      b.pace && decide (j = 6)) := by
  simp [Bm.ctl, bit_or, bit_putB, bit_put_below b.vec hj]

theorem Bm.fld_ctl_vec {b : Bm} (hvec : b.vec ≤ 32) : fld b.ctl 8 6 = b.vec := by
  have hfit : b.vec < 2 ^ 6 := by omega
  simp [Bm.ctl, fld_or, fld_putB_below, fld_put hfit]

/-- The command bits of CTL read zero. -/
theorem Bm.bit_ctl_command (b : Bm) {j : Nat} (hj : j < 3) : bit b.ctl j = false := by
  have hflag : ∀ k, 3 ≤ k → decide (j = k) = false := fun k hk => decide_eq_false (by omega)
  rw [Bm.bit_ctl b (by omega), hflag 3 (by decide), hflag 4 (by decide), hflag 5 (by decide), hflag 6 (by decide)]
  simp only [Bool.and_false, Bool.or_false]

/-- A command written with CTL's own value sets its own command bit alone. -/
theorem Bm.bit_command (b : Bm) {i j : Nat} (hj : j < 3) : bit (setBit b.ctl i true) j = decide (j = i) := by
  rw [bit_setBit, Bm.bit_ctl_command b hj]
  by_cases h : j = i
  · rw [if_pos h, decide_eq_true h, decide_eq_true (by omega), Bool.true_and]
  · rw [if_neg h, decide_eq_false h]

/-- The fields of CTL that a write takes (Table 8.4). -/
def Bm.takeCtl (b : Bm) (w : Word) : Bm :=
  { b with ieHalf := bit w 3, ieFull := bit w 4, ping := bit w 5, pace := bit w 6, vec := fld w 8 6 }

/-- A command written with CTL's own value leaves the fields as they stand. -/
theorem Bm.takeCtl_command {b : Bm} {i : Nat} (hi : i < 3) (hvec : b.vec ≤ 32) : b.takeCtl (setBit b.ctl i true) = b := by
  have hflag : ∀ j, 3 ≤ j → bit (setBit b.ctl i true) j = bit b.ctl j := fun j hj => bit_setBit_other _ _ (by omega)
  have hfield : fld (setBit b.ctl i true) 8 6 = b.vec := by
    rw [fld_setBit b.ctl i 8 6 true (.inl (by omega)), Bm.fld_ctl_vec hvec]
  simp [Bm.takeCtl, hflag, Bm.bit_ctl, hfield]

/-! ### The register slot of a channel (R186, R187, R194, R201, R202, R203) -/

section Slot

variable {s : State} {ch : Nat}

/-- A command on the slot of an assigned channel whose saggar's function answers reaches the channel (R185, R186). -/
theorem act_onSlot {i : Instr} {f : State → State} (hw : i.wf = true) (hp : s.power.porst = false)
    (hen : (s.bm ch).en = true) (hshp : s.shpBound (s.bm ch).sag = false) (hbar : s.barOn (s.bm ch).sag = true) :
    act i s (fun u => u.onSlot ch f) = .next (finish s (f s)) := by
  rw [act_up hw hp, State.onSlot, if_neg (by simp [hen, hshp]), if_pos hbar]

variable (hzero : (s.bm ch).zeroing = false)

include hzero

/-- A held channel refuses a write of CTL (R187). -/
theorem State.bmCtl_held (w : Word) (hheld : (s.bm ch).shut = true) : s.bmCtl ch w = s.errHost := by
  rw [State.bmCtl, if_neg (by simp [hzero]), if_pos (by simp [hheld])]

/-- A held channel refuses a write of STAT (R187). -/
theorem State.bmW1c_held (w : Word) (hheld : (s.bm ch).shut = true) : s.bmW1c ch w = s.errHost := by
  rw [State.bmW1c, if_neg (by simp [hzero]), if_pos hheld]

variable (hopen : (s.bm ch).shut = false) (hstate : (s.bm ch).state ≠ .stalled)

include hopen hstate

/-- A write of STAT to a channel that does not wait between buffers clears bits and starts nothing (R201). -/
theorem State.bmW1c_open (w : Word) : s.bmW1c ch w = s.setBm ch { s.bm ch with
    half := (s.bm ch).half && !bit w 3, fullA := (s.bm ch).fullA && !bit w 4, fullB := (s.bm ch).fullB && !bit w 5
    abortedB := (s.bm ch).abortedB && !bit w 6, err := (s.bm ch).err && !bit w 7, short := (s.bm ch).short && !bit w 8
    disabled := (s.bm ch).disabled && !bit w 9 } := by
  rw [State.bmW1c, if_neg (by simp [hzero]), if_neg (by simp [hopen]), if_neg (by simp [hstate])]

/-- A write of CTL to an open channel that does not wait between buffers takes its fields, then carries out the
first of DISABLE, ABORT and GO that is set (Table 8.4). -/
theorem State.bmCtl_open {w : Word} {t : State} (hvec : fld w 8 6 ≤ 32) (ht : t = s.setBm ch ((s.bm ch).takeCtl w)) :
    s.bmCtl ch w =
      if bit w 2 then (t.bmDisable ch).bmNext ch
      else if bit w 1 then (if bit w 0 then t.errHost else t).bmAbort ch
      else if bit w 0 then
        if (s.bm ch).state != .idle || !(s.bm ch).waiters.isEmpty then t.errHost else t.bmBegin ch
      else t := by
  have hwaits : ¬ ((s.bm ch).state == .stalled && !bit w 5 && !bit w 1 && !bit w 2) = true := by simp [hstate]
  dsimp only [State.bmCtl]
  rw [if_neg (by simp [hzero]), if_neg (by simpa [hopen] using hvec), if_neg hwaits, ht, Bm.takeCtl]

/-- A command written with CTL's own value is carried out alone, and leaves the fields as they stand. -/
theorem State.bmCtl_command {i : Nat} {t : State} (hi : i < 3) (hvec : (s.bm ch).vec ≤ 32)
    (ht : t = s.setBm ch (s.bm ch)) :
    s.bmCtl ch (setBit (s.bm ch).ctl i true) =
      if i = 2 then (t.bmDisable ch).bmNext ch
      else if i = 1 then t.bmAbort ch
      else if (s.bm ch).state != .idle || !(s.bm ch).waiters.isEmpty then t.errHost
      else t.bmBegin ch := by
  have hfield : fld (setBit (s.bm ch).ctl i true) 8 6 ≤ 32 := by
    rwa [fld_setBit _ i 8 6 true (.inl (by omega)), Bm.fld_ctl_vec hvec]
  have htake : t = s.setBm ch ((s.bm ch).takeCtl (setBit (s.bm ch).ctl i true)) := by
    rw [Bm.takeCtl_command hi hvec, ht]
  rw [State.bmCtl_open hzero hopen hstate hfield htake,
    Bm.bit_command _ (by decide), Bm.bit_command _ (by decide), Bm.bit_command _ (by decide)]
  obtain rfl | rfl | rfl : i = 0 ∨ i = 1 ∨ i = 2 := by omega
  · rfl
  · rfl
  · rfl

end Slot

section SlotCommands

variable {s : State} {ch : Nat} (hp : s.power.porst = false) (hch : ch < 16) (hen : (s.bm ch).en = true)
  (hshp : s.shpBound (s.bm ch).sag = false) (hbar : s.barOn (s.bm ch).sag = true)

include hp hch hen hshp hbar

theorem exec_bmGo_onSlot : exec (.bmGo ch) s = .next (finish s (s.bmCtl ch (setBit (s.bm ch).ctl 0 true))) :=
  act_onSlot (i := .bmGo ch) (decide_eq_true hch) hp hen hshp hbar

theorem exec_bmAbort_onSlot : exec (.bmAbort ch) s = .next (finish s (s.bmCtl ch (setBit (s.bm ch).ctl 1 true))) :=
  act_onSlot (i := .bmAbort ch) (decide_eq_true hch) hp hen hshp hbar

theorem exec_bmDisable_onSlot : exec (.bmDisable ch) s = .next (finish s (s.bmCtl ch (setBit (s.bm ch).ctl 2 true))) :=
  act_onSlot (i := .bmDisable ch) (decide_eq_true hch) hp hen hshp hbar

theorem exec_bmStatClear_onSlot (w : Word) : exec (.bmStatClear ch w) s = .next (finish s (s.bmW1c ch w)) :=
  act_onSlot (i := .bmStatClear ch w) (decide_eq_true hch) hp hen hshp hbar

end SlotCommands

/-- ABORT of a running channel lets its burst finish (R202). -/
theorem State.bmAbort_run {s : State} {ch : Nat} (hrun : (s.bm ch).state = .run) :
    s.bmAbort ch = s.setBm ch { s.bm ch with state := .aborting } := by
  rw [State.bmAbort, hrun]

/-- Settles O28: each command reaches the channel through its slot; the channel refuses it where it is held, and else
CTL or STAT takes it. -/
theorem blockMoverRegisters : Obligations.Block_mover_registers := by
  refine ⟨?go, ?abort, ?disable, ?clear, ?held⟩
  case go =>
    intro s ch hp hch hen hshp hbar hzero hopen hvec hidle hwait
    rw [exec_bmGo_onSlot hp hch hen hshp hbar, State.bmCtl_command hzero hopen (by simp [hidle]) (by decide) hvec rfl,
      if_neg (by decide), if_neg (by decide), if_neg (by simp [hidle, hwait])]
  case abort =>
    intro s ch hp hch hen hshp hbar hzero hopen hvec hrun
    rw [exec_bmAbort_onSlot hp hch hen hshp hbar, State.bmCtl_command hzero hopen (by simp [hrun]) (by decide) hvec rfl,
      if_neg (by decide), if_pos rfl, State.bmAbort_run (by rwa [State.bm_setBm]), State.bm_setBm]
  case disable =>
    intro s ch hp hch hen hshp hbar hzero hopen hvec hstate
    rw [exec_bmDisable_onSlot hp hch hen hshp hbar, State.bmCtl_command hzero hopen hstate (by decide) hvec rfl, if_pos rfl]
  case clear =>
    intro s ch w hp hch hen hshp hbar hzero hopen hstate
    rw [exec_bmStatClear_onSlot hp hch hen hshp hbar, State.bmW1c_open hzero hopen hstate]
  case held =>
    rintro s ch cmd w hp hch hen hshp hbar hzero hheld (rfl | rfl | rfl | rfl)
    · rw [exec_bmGo_onSlot hp hch hen hshp hbar, State.bmCtl_held hzero _ hheld]
    · rw [exec_bmAbort_onSlot hp hch hen hshp hbar, State.bmCtl_held hzero _ hheld]
    · rw [exec_bmDisable_onSlot hp hch hen hshp hbar, State.bmCtl_held hzero _ hheld]
    · rw [exec_bmStatClear_onSlot hp hch hen hshp hbar, State.bmW1c_held hzero w hheld]

/-! ### Half, the end of a buffer and the end of an abort (R191, R193, R195, R200, R202) -/

/-- Settles O29: each command past the guards that its premises decide. -/
theorem blockMoverProgress : Obligations.Block_mover_progress := by
  refine ⟨?half, ?full, ?short, ?error, ?abortDone⟩
  case half =>
    intro s ch hp hch hrun hhalf
    dsimp only [exec, execBmHalf]
    rw [act_up (i := .bmHalf ch) (decide_eq_true hch) hp, if_neg (by simp [hrun, hhalf])]
  case full =>
    intro s ch hp hch hrun
    dsimp only [exec, execBmBufferEnd]
    rw [act_up (i := .bmBufferEnd ch .full) (decide_eq_true hch) hp, if_neg (by simp [hrun])]
  case short =>
    intro s ch m hp hch hrun hport hpace hshort hdone
    dsimp only [exec, execBmBufferEnd]
    rw [act_up (i := .bmBufferEnd ch (.short m)) (decide_eq_true hch) hp, if_neg (by simp [hrun]),
      if_neg (by simp [hport, hpace, hshort, hdone])]
  case error =>
    intro s ch m hp hch hrun hport hshort hdone
    dsimp only [exec, execBmBufferEnd]
    rw [act_up (i := .bmBufferEnd ch (.error m)) (decide_eq_true hch) hp, if_neg (by simp [hrun]),
      if_neg (by simp [hport, hshort, hdone])]
  case abortDone =>
    intro s ch m t hp hch habort ht
    subst ht
    dsimp only [exec, execBmAbortDone]
    rw [act_up (i := .bmAbortDone ch m) (decide_eq_true hch) hp, if_neg (by simp [habort])]

end Sys2Proof.Machine

/-! ## Proofs of the statements about the field ports -/

namespace Sys2Proof.Machine

/-! ### CONTROL codes (R219, R227, R228, R232, R237, R238, R239, R274, R282) -/

section Codes

variable {s : State} {n code : Nat} {o : PortOp} (h : s.codeOp n code = some o)

include h

/-- A code acts on the operation that the port logic has taken up, and its CCW completes. -/
theorem State.code_taken (f : State → PortOp → State) : s.code n code f = (f s o).codeDone n o := by
  rw [State.code, h]

/-- A line code holds the line of its operation for a time. -/
theorem State.lineCodeRun_taken (ns : State → PortOp → Nat) : s.lineCodeRun n code ns =
    s.updOp n fun _ => { o with phase := .ended, txCount := o.tx.length, t3 := s.clk + ns s o } := by
  rw [State.lineCodeRun, h]

/-- The command of a code has its effect on the operation taken up, and the CCW completes. -/
theorem act_code {i : Instr} {f : State → PortOp → State} {t : State} (hi : i.wf = decide (n < opLimit))
    (hn : n < opLimit) (hp : s.power.porst = false) (ht : f s o = t) :
    act i s (fun u => u.code n code f) = .next (finish s (t.codeDone n o)) := by
  rw [act_numbered hi hn hp, State.code_taken h, ht]

end Codes

/-- A write of a port leaves every CONTROL operation as it was. -/
theorem State.codeOp_updPort (s : State) (p n code : Nat) (f : Port → Port) :
    (s.updPort p f).codeOp n code = s.codeOp n code := rfl

/-- While frames run, a tick-bound change waits for the tick (R36). -/
theorem State.atOnce_running {s : State} (hrun : s.kiln.run = true) (hframes : s.kiln.frameRuns = true) :
    ¬ s.atOnce = true := by
  simp [State.atOnce, hrun, hframes]

/-- Settles O26: each code acts on the operation that its premise gives, and the Kiln decides what waits for the tick. -/
theorem controlCodes : Obligations.Control_codes := by
  refine ⟨?flush, ?clrerr, ?recover, ?breakLow, ?canMb, ?setEdge, ?phase, ?preset, ?clrIndex, ?clrTrip, ?setWin, ?convReset⟩
  case flush | clrerr | canMb | setEdge | phase | clrIndex | clrTrip =>
    intro s n o hp hn h
    exact act_code h rfl hn hp rfl
  case recover =>
    intro s n o hp hn h
    dsimp only [exec, execI2cRecover]
    rw [act_numbered rfl hn hp, State.lineCodeRun_taken h]
  case breakLow =>
    intro s n o hp hn h
    dsimp only [exec, execBreakCode]
    rw [act_numbered rfl hn hp, h]
    dsimp only
    rw [State.lineCodeRun_taken ((State.codeOp_updPort ..).trans h)]
    rfl
  case preset =>
    intro s n o hp hn h hframes
    exact act_code h rfl hn hp (if_pos hframes)
  case setWin | convReset =>
    intro s n o hp hn h hrun hframes
    exact act_code h rfl hn hp (if_neg (State.atOnce_running hrun hframes))

/-! ### MDIO (R235) -/

/-- An MDIO code that is not on the line yet, and before which none waits to join, joins the line's queue. -/
theorem State.mdioCode_joins {s : State} {n code : Nat} {o : PortOp} (write : Bool) (h : s.codeOp n code = some o)
    (hout : (s.mdio.any fun m => m.sch == n) = false) (hfirst : s.mdioEarlier o = false) :
    s.mdioCode n code write = s.mdioPut
      { sch := n, mac := o.port, phy := leAt o.tx 4 1, reg := leAt o.tx 5 1
        data := if write then some (BitVec.ofNat 16 (leAt o.tx 6 2)) else none } o.seq := by
  rw [State.mdioCode, h]
  exact if_neg (by simp [hout, hfirst])

/-- The MDIO line passes to the next operation of its queue, which begins now (R235). -/
def State.mdioPass (s : State) (rest : List MdioOp) : State :=
  let s := { s with mdio := rest }
  match rest with
  | [] => s
  | h :: _ => s.updOp h.sch fun o => { o with t1 := s.clk }

/-- A read leaves its result in the SENSE block of its port (R235). -/
def State.mdioResult (s : State) (m : MdioOp) (d : BitVec 16) : State :=
  if m.data.isNone then s.updPort m.mac fun x => { x with mdioData := d, mdioValid := true } else s

/-- MDIO_DONE 25.6 µs or more after the operation at the head began (R235). -/
theorem exec_mdioDone_due {s : State} {m : MdioOp} {rest : List MdioOp} {o : PortOp} (d : BitVec 16)
    (hp : s.power.porst = false) (hline : s.mdio = m :: rest) (hop : (s.sch m.sch).op = some o)
    (hdue : o.t1 + 25600 ≤ s.clk) :
    exec (.mdioDone d) s = .next (finish s (((s.mdioPass rest).mdioResult m d).codeDone m.sch o)) := by
  dsimp only [exec, execMdioDone]
  rw [act_up rfl hp]
  simp only [hline, hop, Nat.not_lt.mpr hdue, if_false]
  rfl

/-- Settles O27: the two codes join the line's queue, and the end of an operation splits on what follows it and on whether it
reads. -/
theorem mdioOperations : Obligations.Mdio_operations := by
  refine ⟨?write, ?read, ?readDone, ?writeDone, ?passed⟩
  case write =>
    intro s n o hp hn h hout hfirst
    dsimp only [exec, execMdioWrite]
    rw [act_numbered rfl hn hp, State.mdioCode_joins true h hout hfirst, if_pos rfl]
  case read =>
    intro s n o hp hn h hout hfirst
    dsimp only [exec, execMdioRead]
    rw [act_numbered rfl hn hp, State.mdioCode_joins false h hout hfirst, if_neg Bool.false_ne_true]
  case readDone =>
    intro s m o d hp hline hop hdue hread
    rw [exec_mdioDone_due d hp hline hop hdue, State.mdioResult, if_pos (by simp [hread]), State.mdioPass]
  case writeDone =>
    intro s m o d hp hline hop hdue hwrite
    rw [exec_mdioDone_due d hp hline hop hdue, State.mdioResult, if_neg (by simpa [Option.isSome_iff_ne_none] using hwrite),
      State.mdioPass]
  case passed =>
    intro s u m h rest o d hp hline hop hdue hu
    subst hu
    rw [exec_mdioDone_due d hp hline hop hdue]
    dsimp only [State.mdioPass, State.mdioResult]

/-! ### Serial characters and breaks (R215, R218, R223, R224) -/

/-- A character as the receiver gives it on: 7 or 8 bits, with its errors and the time of its start bit (R223). -/
def State.rxByteOf (s : State) (p : Nat) (b : Byte) (fe pe : Bool) : RxByte :=
  { b := if bit (s.liveWord p 2) 0 then b &&& 0x7F else b, fe := fe, pe := pe
    stime := s.stime - BitVec.ofNat 64 (s.charNs p) }

/-- A port that has heard a character: it is counted, and a line that was idle long enough ends the discarding (R223, R224). -/
def State.heard (s : State) (p : Nat) : State :=
  s.updPort p fun x =>
    { x with rxTotal := x.rxTotal + 1, lastRx := s.clk, discard := x.discard && !s.frameOver p }

@[simp] theorem State.heard_discard (s : State) (p : Nat) :
    ((s.heard p).port p).discard = ((s.port p).discard && !s.frameOver p) := by
  simp [State.heard, State.updPort]

@[simp] theorem State.heard_lineBusy (s : State) (p : Nat) : ((s.heard p).port p).lineBusy = (s.port p).lineBusy := by
  simp [State.heard, State.updPort]

@[simp] theorem State.heard_rx (s : State) (p : Nat) : ((s.heard p).port p).rx = (s.port p).rx := by
  simp [State.heard, State.updPort]

/-- Hearing a character leaves every subchannel as it was. -/
@[simp] theorem State.heard_sch (s : State) (p n : Nat) : (s.heard p).sch n = s.sch n := rfl

/-- A port that discards nothing, or whose line was not idle long enough, goes on as it was (R224). -/
theorem State.heard_of_discard_kept {s : State} {p : Nat} (h : (s.port p).discard = false ∨ s.frameOver p = false) :
    s.heard p = s.updPort p fun x => { x with rxTotal := x.rxTotal + 1, lastRx := s.clk } := by
  have hkept : ((s.port p).discard && !s.frameOver p) = (s.port p).discard := by
    obtain h | h := h <;> simp [h]
  dsimp only [State.heard, State.updPort]
  rw [hkept]

/-- A line that was idle long enough ends the discarding (R224). -/
theorem State.heard_of_frameOver {s : State} {p : Nat} (h : s.frameOver p = true) :
    s.heard p = s.updPort p fun x => { x with rxTotal := x.rxTotal + 1, lastRx := s.clk, discard := false } := by
  simp [State.heard, h]

/-- The rest of a frame that ended at COUNT is dropped and counted (R224). -/
theorem State.byteIn_discarded {s : State} {p : Nat} (r : RxByte) (h : (s.port p).discard = true) :
    s.byteIn p r = s.drops p := by
  dsimp only [State.byteIn]
  rw [if_pos h]

/-- A character goes to the operation that receives on the port (R215). -/
theorem State.byteIn_received {s : State} {p n : Nat} {o : PortOp} (r : RxByte) (hkeep : (s.port p).discard = false)
    (hbusy : (s.port p).lineBusy = some n) (hop : (s.sch n).op = some o) (hport : o.port = p) (hphase : o.phase = .receive) :
    s.byteIn p r = s.byteToOp n p r := by
  simp [State.byteIn, hkeep, hbusy, hop, hport, hphase]

/-- A character on a line that no operation holds goes to the receive FIFO (R218). -/
theorem State.byteIn_unheld {s : State} {p : Nat} (r : RxByte) (hkeep : (s.port p).discard = false)
    (hbusy : (s.port p).lineBusy = none) : s.byteIn p r = s.byteToFifo p r := by
  simp [State.byteIn, hkeep, hbusy]

section Receiver

variable {s : State} {p : Nat} (hp : s.power.porst = false) (hlt : p < 512)

include hp hlt

/-- A character reaches the port logic where the receiver is on (R223). -/
theorem exec_byteReceived_on (b : Byte) (fe pe : Bool) (hon : s.receiverOn p = true) :
    exec (.byteReceived p b fe pe) s = .next (finish s ((s.heard p).byteIn p (s.rxByteOf p b fe pe))) := by
  dsimp only [exec, execByteReceived]
  rw [act_numbered rfl hlt hp, if_neg (by simp [hon])]
  rfl

/-- A character heard on a line that no operation holds, no longer or never discarded, goes to the receive FIFO (R218, R224). -/
theorem exec_byteReceived_unheld (b : Byte) (fe pe : Bool) (hon : s.receiverOn p = true)
    (hkeep : ((s.port p).discard && !s.frameOver p) = false) (hbusy : (s.port p).lineBusy = none) :
    exec (.byteReceived p b fe pe) s = .next (finish s (
      if (s.port p).rx.length < 256 then
        (s.heard p).updPort p fun x => { x with rx := x.rx ++ [s.rxByteOf p b fe pe] }
      else (s.heard p).dropFull p 0 (some (s.rxByteOf p b fe pe)) [])) := by
  rw [exec_byteReceived_on hp hlt b fe pe hon, State.byteIn_unheld _ (by simpa using hkeep) (by simpa using hbusy),
    State.byteToFifo, State.heard_rx]

/-- A break that an operation receives or listens to ends its receive with BRK (R223). -/
theorem exec_breakReceived_held {n : Nat} {o : PortOp} (hon : s.receiverOn p = true)
    (hbusy : (s.port p).lineBusy = some n) (hop : (s.sch n).op = some o) (hport : o.port = p)
    (hphase : o.phase = .receive ∨ o.phase = .listen) :
    exec (.breakReceived p) s =
      .next (finish s ((s.updPort p fun x => { x with lastRx := s.clk }).receiveEnds n p 8)) := by
  dsimp only [exec, execBreakReceived]
  rw [act_numbered rfl hlt hp, if_neg (by simp [hon])]
  simp [State.updPort, hbusy, State.sch_setPort, hop, hport, hphase, dbit]

/-- A break on a line that no operation holds waits for the port's next receive (R223). -/
theorem exec_breakReceived_unheld (hon : s.receiverOn p = true) (hbusy : (s.port p).lineBusy = none) :
    exec (.breakReceived p) s =
      .next (finish s ((s.updPort p fun x => { x with lastRx := s.clk }).updPort p fun x => { x with brk := true })) := by
  dsimp only [exec, execBreakReceived]
  rw [act_numbered rfl hlt hp, if_neg (by simp [hon])]
  simp [State.updPort, hbusy]

end Receiver

/-- Settles O31: a character by whether it is discarded, received or unheld, and a break by whether an operation holds the
line. -/
theorem serialCharacters : Obligations.Serial_characters := by
  refine ⟨?received, ?fifo, ?fifoFull, ?dropFull, ?discarded, ?resumed, ?breakHeld, ?breakUnheld, ?receiverOff⟩
  case received =>
    intro s p b fe pe n o r u hp hlt hon hkeep hbusy hop hport hphase hr hu
    rw [exec_byteReceived_on hp hlt b fe pe hon, State.byteIn_received _ (by simp [hkeep]) (by simpa using hbusy)
      (by simpa using hop) hport hphase, State.heard_of_discard_kept (.inl hkeep), hu, hr, State.rxByteOf]
  case fifo =>
    intro s p b fe pe r hp hlt hon hbusy hkeep hroom hr
    rw [exec_byteReceived_unheld hp hlt b fe pe hon (by simp [hkeep]) hbusy, if_pos hroom,
      State.heard_of_discard_kept (.inl hkeep), hr, State.rxByteOf]
  case fifoFull =>
    intro s p b fe pe r hp hlt hon hbusy hkeep hfull hr
    rw [exec_byteReceived_unheld hp hlt b fe pe hon (by simp [hkeep]) hbusy, if_neg (Nat.not_lt.mpr hfull),
      State.heard_of_discard_kept (.inl hkeep), hr, State.rxByteOf]
  case dropFull =>
    intro s p b l hl
    subst hl
    rfl
  case discarded =>
    intro s p b fe pe hp hlt hon hdiscard hover
    rw [exec_byteReceived_on hp hlt b fe pe hon, State.byteIn_discarded _ (by simp [hdiscard, hover]),
      State.heard_of_discard_kept (.inr hover)]
  case resumed =>
    intro s p b fe pe r hp hlt hon _ hover hbusy hroom hr
    rw [exec_byteReceived_unheld hp hlt b fe pe hon (by simp [hover]) hbusy, if_pos hroom,
      State.heard_of_frameOver hover, hr, State.rxByteOf]
  case breakHeld =>
    intro s p n o hp hlt hon hbusy hop hport hphase
    exact exec_breakReceived_held hp hlt hon hbusy hop hport hphase
  case breakUnheld =>
    intro s p hp hlt hon hbusy
    exact exec_breakReceived_unheld hp hlt hon hbusy
  case receiverOff =>
    rintro s p b fe pe cmd hp hlt hoff (rfl | rfl)
    · dsimp only [exec, execByteReceived]
      rw [act_numbered rfl hlt hp, if_pos (by simp [hoff])]
    · dsimp only [exec, execBreakReceived]
      rw [act_numbered rfl hlt hp, if_pos (by simp [hoff])]

/-! ### Ethernet frames (R233, R234) -/

/-- The record of a received frame: length, kind, time and bytes (R234). -/
def ethRecord (f : List Byte) (stime : DWord) : List Byte :=
  leBytes 2 f.length ++
    leBytes 1 (b2n (bit (f.headD 0) 0 && !((f.take 6).all (· == 0xFF))) + 2 * b2n ((f.take 6).all (· == 0xFF))) ++
    zeros 5 ++ leBytes 8 stime.toNat ++ f

/-- The kind in a record reads the first byte of the destination, which is that of the frame. -/
theorem headD_take_six (f : List Byte) : (f.take 6).headD 0 = f.headD 0 := by
  cases f <;> rfl

/-- A frame that the enabled MAC accepts is dropped for a wrong FCS, its length or a full buffer, and else stored (R233). -/
theorem exec_ethFrameReceived_accepted {s : State} {p age : Nat} {f r : List Byte} {ok : Bool}
    (hp : s.power.porst = false) (hwf : Instr.wf (.ethFrameReceived p f ok age) = true) (hkind : portKind p = 3)
    (hen : bit (s.liveWord p 0) 0 = true) (hmode : fld (s.liveWord p 0) 4 4 = 1)
    (hsafe : ((s.port p).safe && (s.port p).safeOpt == 1) = false) (hlong : 14 ≤ f.length)
    (haccept : s.ethAccepts p (f.take 6) = true) (hr : r = ethRecord f (s.stime - BitVec.ofNat 64 age)) :
    exec (.ethFrameReceived p f ok age) s = .next (finish s (
      if !ok then s.ethDrop p true
      else if 1518 < f.length then s.ethDrop p false
      else if 16384 < (s.port p).ethRx.foldl (fun n r => n + r.length) 0 + r.length then s.ethDrop p false
      else s.updPort p fun x => { x with ethRx := x.ethRx ++ [r] })) := by
  subst hr
  dsimp only [exec, execEthFrameReceived]
  rw [act_up hwf hp, if_neg (by simp [hkind, hen, hmode, hsafe, haccept, hlong]), headD_take_six]
  rfl

/-- The oldest queued frame leaves the queue, its time and TAG kept where TSREQ asks, and its program's port is told (R234). -/
theorem exec_ethFrameSent_oldest {s : State} {p age : Nat} {e : EthTx} {l : List EthTx} (hp : s.power.porst = false)
    (hwf : Instr.wf (.ethFrameSent p age) = true) (hkind : portKind p = 3) (hen : bit (s.liveWord p 0) 0 = true)
    (hsafe : (s.port p).safe = false) (hqueue : (s.port p).ethTx = e :: l) :
    exec (.ethFrameSent p age) s = .next (finish s ((s.updPort p fun x =>
      if leAt e.record 2 1 % 2 = 1 then
        { x with ethTx := l, lastTxStime := s.stime - BitVec.ofNat 64 age, txTag := BitVec.ofNat 16 (leAt e.record 4 2) }
      else { x with ethTx := l }).recordOut p e.sch e.brkPt)) := by
  dsimp only [exec, execEthFrameSent]
  rw [act_up hwf hp, if_neg (by simp [hkind, hen, hsafe]), hqueue]
  rfl

/-- The frames behind the first that have waited RESP_NS are discarded with ABANDON, and their programs' port is told (R234). -/
theorem exec_ethAbandon_late {s : State} {p : Nat} {gone : List EthTx} (hp : s.power.porst = false) (hlt : p < 512)
    (hkind : portKind p = 3) (hresp : s.respNs p ≠ 0)
    (hlate : (((s.port p).ethTx.drop 1).any fun e => decide (e.queuedAt + s.respNs p ≤ s.clk)) = true)
    (hgone : gone = ((s.port p).ethTx.drop 1).filter fun e => decide (e.queuedAt + s.respNs p ≤ s.clk)) :
    exec (.ethAbandon p) s = .next (finish s (gone.foldl (fun s e => s.recordOut p e.sch e.brkPt)
      ((s.updPort p fun x =>
        { x with
          abandon := x.abandon ++ gone.map EthTx.sch
          ethTx := x.ethTx.take 1 ++ (x.ethTx.drop 1).filter fun e => !decide (e.queuedAt + s.respNs p ≤ s.clk) }).addEstat
            p 2))) := by
  subst hgone
  dsimp only [exec, execEthAbandon]
  rw [act_numbered rfl hlt hp, if_neg (by rw [hlate]; simp [hkind, hresp])]
  rfl

/-- Settles O33: an accepted frame by its FCS, length and room, and the queue by its head and by what has waited too long. -/
theorem ethernetFrames : Obligations.Ethernet_frames := by
  refine ⟨?stored, ?dropped, ?sent, ?abandoned⟩
  case stored =>
    intro s p f age r hp _ hkind hen hmode hsafe hlong hshort haccept hwf hr hroom
    rw [exec_ethFrameReceived_accepted hp hwf hkind hen hmode hsafe hlong haccept hr, if_neg (by decide),
      if_neg (Nat.not_lt.mpr hshort), if_neg (Nat.not_lt.mpr hroom)]
  case dropped =>
    intro s p f ok age hp _ hkind hen hmode hsafe hlong haccept hwf hbad
    rw [exec_ethFrameReceived_accepted hp hwf hkind hen hmode hsafe hlong haccept rfl]
    cases ok with
    | false => rfl
    | true =>
      have hover : 1518 < f.length := hbad.resolve_left (by decide)
      rw [if_neg (by decide), if_pos hover]
      rfl
  case sent =>
    intro s p age e l hp _ hkind hen hsafe hqueue hwf
    exact exec_ethFrameSent_oldest hp hwf hkind hen hsafe hqueue
  case abandoned =>
    intro s p hp hlt hkind hresp hlate
    exact ⟨_, rfl, exec_ethAbandon_late hp hlt hkind hresp hlate rfl⟩

end Sys2Proof.Machine

/-! ## Proofs of the statements about the output pins, the monitors and the converters -/

namespace Sys2Proof.Machine

/-! ### The output pins (R268, R270, R405, R407, R448, R488) -/

/-- The state but for what one nanosecond of the clock moves: the time, STIME with what is left of its slew, the account of TRIM,
the step of a bisque and the model's own counter of free answers (R28, R29, R30, R458). -/
def State.withoutClock (s : State) : State :=
  { s with
    clk := 0, stime := 0, freeCtr := 0
    kiln := { s.kiln with trimAcc := 0, stimeSlew := 0, stimeUsed := 0, slewing := false }
    dev := { s.dev with step := 0 }
    power := { s.power with stepAt := 0 } }

/-- No pin's level depends on the time. -/
theorem State.withoutClock_pinsAgree (s : State) : s.withoutClock.pinsAgree = s.pinsAgree := rfl

@[simp] theorem State.clockTick_withoutClock (s : State) : s.clockTick.withoutClock = s.withoutClock := by
  dsimp only [State.clockTick, State.stimeTick]
  split
  · rfl
  · split <;> rfl

@[simp] theorem State.bisqueTick_withoutClock (s : State) : s.bisqueTick.withoutClock = s.withoutClock := by
  dsimp only [State.bisqueTick]
  split
  · rfl
  · split <;> rfl

@[simp] theorem State.updKiln_trimAcc_withoutClock (s : State) (acc : Int) :
    (s.updKiln fun k => { k with trimAcc := acc }).withoutClock = s.withoutClock := rfl

/-- A nanosecond of the reference moves nothing but the time and a bisque's step (R28, R29, R458). -/
theorem idle_withoutClock (s : State) : (idle s).withoutClock = s.withoutClock := by
  cases hp : s.power.porst with
  | true => rw [idle, if_pos hp]
  | false =>
    rw [idle_up hp, State.bisqueTick_withoutClock]
    split
    · simp
    · split <;> simp

/-- The clock leaves the pins at their levels. -/
theorem idle_pinsAgree (s : State) : (idle s).pinsAgree = s.pinsAgree := by
  rw [← State.withoutClock_pinsAgree, idle_withoutClock, State.withoutClock_pinsAgree]

/-- A command leaves the state as it was, or forms the pins from what it left. -/
theorem exec_pinsAgree {i : Instr} {s t : State} (hs : s.pinsAgree = true) (h : exec i s = .next t) : t.pinsAgree = true := by
  obtain ⟨f, hact⟩ | ⟨-, f, halways⟩ := exec_act_or_always i s
  · obtain ⟨-, ⟨-, rfl⟩ | ⟨-, rfl⟩⟩ := act_cases (hact ▸ h)
    · exact hs
    · exact finish_pinsAgree s (f s)
  · cases halways ▸ h
    exact finish_pinsAgree s (f s)

/-- Settles O57: with no command waiting the clock moves nothing that a pin follows, and every command forms the pins anew. -/
theorem pinsFollowTheState : Obligations.Pins_follow_the_state := by
  intro s t hs h
  unfold step at h
  split at h
  next =>
    cases h
    exact (idle_pinsAgree s).trans hs
  next c rest _ => exact exec_pinsAgree (s := { s with pending := rest }) hs h

/-! ### The window monitors (R259, R261, R262, R264, R267) -/

/-- A sampled monitor at its instant takes the result of both comparators, at the tick into the image too (R261, R262). -/
theorem exec_monitorSample_due {s u v : State} {n : Nat} {uv : Int} {a b : Bool} (hp : s.power.porst = false) (hn : n < 32)
    (hready : s.dev.ready = true) (hdue : s.sampleDue n = true) (heval : s.evaluate n uv = (a, b, u))
    (hv : v = u.updWm n fun m => { m with sampleAt := some u.sliceAt, input := uv }) :
    exec (.monitorSample n uv) s = .next (finish s (State.monitorResult
      (if v.kiln.slice = 0 then
        { v with image := { v.image with above := setBit v.image.above n a, below := setBit v.image.below n b } }
      else v) n a b true)) := by
  subst hv
  dsimp only [exec, execMonitorSample]
  rw [act_numbered rfl hn hp, if_neg (by simp [hdue, hready]), heval]

/-- The comparators of an enabled guard monitor follow its input (R264, R267). -/
theorem State.guardEval_enabled {s u : State} {n : Nat} {a b : Bool} (hen : (s.wm n).live.en = true)
    (hguard : (s.wm n).live.guard = true) (heval : s.evaluate n (s.wm n).input = (a, b, u)) :
    s.guardEval n = u.monitorResult n a b false := by
  dsimp only [State.guardEval]
  rw [if_pos (by simp [hen, hguard]), heval]

/-! ### The converters (R277, R278, R280, R281) -/

/-- The code of a voltage leaves the converter as it was: a code that the spec leaves open takes a free value, no more. -/
@[simp] theorem State.adcCode_adc (s : State) (d : Int) (vref : Nat) : (s.adcCode d vref).2.adc = s.adc := by
  dsimp only [State.adcCode]
  split
  · rfl
  · split <;> rfl

@[simp] theorem State.adcCodes_adc (s : State) (vref : Nat) (l : List (Int × Int)) :
    (s.adcCodes vref l).2.adc = s.adc := by
  induction l generalizing s with
  | nil => rfl
  | cons v vs ih => exact (ih _).trans (State.adcCode_adc ..)

/-- Clamping a set and then counting counts the codes that are clamped (R278). -/
theorem clamp16_count (l : List Int) : ((l.map clamp16).filter (·.2)).length = (l.filter fun v => (clamp16 v).2).length := by
  rw [List.filter_map, List.length_map]
  rfl

/-- A set clips where any of its codes is clamped (R278). -/
theorem clamp16_count_ne_zero (l : List Int) :
    decide ((l.filter fun v => (clamp16 v).2).length ≠ 0) = l.any fun v => (clamp16 v).2 := by
  rw [Bool.eq_iff_iff]
  simp

/-- A record that is due, whose configuration suits its frame, goes into mapped, unlocked pages of an enabled saggar (R280). -/
theorem State.recordWrite_written {s : State} {d : AdcDue} {off : Nat} (hdue : s.adc.due = some d)
    (hoff : off = d.cfg.base + d.slot * d.cfg.reclen)
    (hok : (d.cfgOk && (s.sag d.cfg.sag).en && s.lsMapped d.cfg.sag off d.cfg.reclen &&
      !s.lsLocked d.cfg.sag off d.cfg.reclen) = true) :
    s.recordWrite = { s.lsWrite d.cfg.sag off (d.bytes s.adc.gap) with
      adc := { s.adc with due := none, gap := false, lastFrame := d.frame, written := s.adc.written + 1, cfgErr := false } } := by
  subst hoff
  dsimp only [State.recordWrite]
  rw [hdue]
  exact if_pos hok

/-- Any other record that is due is dropped whole (R281). -/
theorem State.recordWrite_dropped {s : State} {d : AdcDue} {off : Nat} (hdue : s.adc.due = some d)
    (hoff : off = d.cfg.base + d.slot * d.cfg.reclen)
    (hbad : (d.cfgOk && (s.sag d.cfg.sag).en && s.lsMapped d.cfg.sag off d.cfg.reclen &&
      !s.lsLocked d.cfg.sag off d.cfg.reclen) = false) :
    s.recordWrite = { s with adc := { s.adc with
      due := none, gap := true, drops := sat16 s.adc.drops, notWritten := s.adc.notWritten + 1, dropSeen := true
      cfgErr := s.adc.cfgErr || !d.cfgOk
      estat := s.adc.estat ||| dbit 0 true ||| dbit 2 (!d.cfgOk) } } := by
  subst hoff
  dsimp only [State.recordWrite]
  rw [hdue]
  exact if_neg (Bool.eq_false_iff.mp hbad)

/-- Settles O35: a monitor takes what its comparators say, a set its codes, and a record its place or none. -/
theorem monitorsAndConverters : Obligations.Monitors_and_converters := by
  refine ⟨?sampleAtTick, ?sampleInFrame, ?crossing, ?sampleSet, ?codes, ?written, ?dropped⟩
  case sampleAtTick =>
    intro s n uv a b u v hp hn _ hready hdue heval hv hslice
    rw [exec_monitorSample_due hp hn hready hdue heval hv, if_pos hslice]
  case sampleInFrame =>
    intro s n uv a b u hp hn _ hready hdue heval hslice
    rw [exec_monitorSample_due hp hn hready hdue heval rfl, if_neg (by exact hslice)]
  case crossing =>
    intro s v n uv a b u hp hn hv hen hguard heval
    dsimp only [exec, execGuardCrossing]
    rw [act_numbered rfl hn hp, ← hv, State.guardEval_enabled hen hguard heval]
  case sampleSet =>
    intro s u i l hp hdue hlen hcodes hroom hfree
    have hfreeU : u.adc.live.free = false := by
      have hadc := State.adcCodes_adc s i.vref i.volts
      rw [hcodes] at hadc
      rw [hadc, hfree]
    dsimp only [exec, execConverterSample]
    rw [act_up rfl hp, if_neg (by simp [hdue, hlen]), hcodes]
    simp only [hfreeU, decide_eq_false (Nat.not_le.mpr hroom), clamp16_count, clamp16_count_ne_zero, List.map_map,
      Bool.or_false, Bool.false_eq_true, if_false]
    rfl
  case codes =>
    intro s vref p q vs
    exact ⟨rfl, rfl⟩
  case written =>
    intro s d off hp hdue hoff hcfg hen hmapped hlocked
    refine ⟨_, rfl, ?_⟩
    dsimp only [exec, execConverterRecord]
    rw [act_up rfl hp, State.recordWrite_written hdue hoff (by simp [hcfg, hen, hmapped, hlocked])]
  case dropped =>
    intro s d off hp hdue hoff hbad
    dsimp only [exec, execConverterRecord]
    rw [act_up rfl hp, State.recordWrite_dropped hdue hoff hbad]

end Sys2Proof.Machine

/-! ## Proofs of the statements about the journal -/

namespace Sys2Proof.Machine

/-! ### The journal's storage commands (R292 to R300) -/

/-- A queue's oldest journal entry that waits, the one a storage command takes (R292). -/
def State.oldestJrn (s : State) (q : QueueId) : Option Entry :=
  (s.entries (qref q)).find? fun e => e.kind == .journal && e.phase == .waiting

/-- The storage commands of a queue with their opcodes (Table 12.2). -/
def jrnTable (q : QueueId) : List (Instr × Nat) :=
  [(.jrnRead q, 0x40), (.jrnWrite q, 0x41), (.append q, 0x42), (.jrnFlush q, 0x43), (.zeroRange q, 0x44), (.seal q, 0x45),
    (.info q, 0x46), (.verify q, 0x47)]

/-- The command of each row names its queue alone, and runs that queue's journal command of the row's opcode. -/
theorem jrnTable_runs (q : QueueId) : ∀ row ∈ jrnTable q,
    row.1.wf = q.wf ∧ ∀ s, exec row.1 s = act row.1 s fun u => u.jrnCommand q row.2 := by
  simp only [jrnTable, List.forall_mem_cons, List.not_mem_nil, false_implies, implies_true, and_true]
  and_intros
  all_goals intros; rfl

theorem exec_jrnTable {s : State} {q : QueueId} {cmd : Instr} {opc : Nat} (hcmd : (cmd, opc) ∈ jrnTable q)
    (hp : s.power.porst = false) (hwf : q.wf = true) : exec cmd s = .next (finish s (s.jrnCommand q opc)) := by
  obtain ⟨hrow, hexec⟩ := jrnTable_runs q (cmd, opc) hcmd
  rw [hexec, act_up (hrow.trans hwf) hp]

/-- The oldest waiting entry of the command's opcode is refused or begins, as the checks say, except in an admin queue (R292). -/
theorem State.jrnCommand_oldest {s : State} {q : QueueId} {e : Entry} (hq : ∀ f, q ≠ .admin f)
    (he : s.oldestJrn q = some e) :
    s.jrnCommand q e.jrn.opc =
      match s.jrnCheck (s.qSag (qref q)) e.jrn with
      | some st => s.refuseJrn q e st
      | none => s.beginJrn q e := by
  dsimp only [State.oldestJrn] at he
  dsimp only [State.jrnCommand]
  rw [he]
  cases q with
  | admin f => exact absurd rfl (hq f)
  | sq n => exact if_neg (by simp)
  | shp => exact if_neg (by simp)

section Command

variable {s : State} {q : QueueId} {e : Entry} {cmd : Instr} {opc : Nat} (hcmd : (cmd, opc) ∈ jrnTable q)
  (hp : s.power.porst = false) (hwf : q.wf = true) (hq : ∀ f, q ≠ .admin f) (he : s.oldestJrn q = some e)
  (hopc : e.jrn.opc = opc)

include hcmd hp hwf hq he hopc

/-- A storage command begins the entry that passes the checks of R292. -/
theorem exec_jrn_begins (hcheck : s.jrnCheck (s.qSag (qref q)) e.jrn = none) :
    exec cmd s = .next (finish s (s.beginJrn q e)) := by
  rw [exec_jrnTable hcmd hp hwf, ← hopc, State.jrnCommand_oldest hq he, hcheck]

/-- A storage command ends the entry that fails a check of R292, with the status of that check. -/
theorem exec_jrn_refuses {st : Status} (hcheck : s.jrnCheck (s.qSag (qref q)) e.jrn = some st) :
    exec cmd s = .next (finish s (s.refuseJrn q e st)) := by
  rw [exec_jrnTable hcmd hp hwf, ← hopc, State.jrnCommand_oldest hq he, hcheck]

end Command

/-- The entry is begun, and its job is the newest of the journal. -/
def State.withJob (s : State) (q : QueueId) (e : Entry) : State :=
  (s.tick1.updEntry (qref q) e.eid fun x => { x with phase := .begun }).updJrn fun x =>
    { x with nextJob := x.nextJob + 1, jobs := x.jobs ++ [s.tick1.mkJob q e] }

/-- READ, WRITE, APPEND, INFO and VERIFY become a job that the journal prepares (R293, R294, R299, R300). -/
theorem State.beginJrn_works {s : State} (q : QueueId) {e : Entry} (hflush : e.jrn.opc ≠ 0x43) (hzero : e.jrn.opc ≠ 0x44)
    (hseal : e.jrn.opc ≠ 0x45) :
    s.beginJrn q e = ((s.withJob q e).jrnPrep (s.tick1.mkJob q e).id jrnFuel).jrnWork := by
  dsimp only [State.beginJrn]
  rw [if_neg hseal, if_neg hzero, if_neg hflush, State.withJob]

/-- FLUSH becomes a job that waits for earlier work alone (R295). -/
theorem State.beginJrn_flush {s : State} (q : QueueId) {e : Entry} (hopc : e.jrn.opc = 0x43) :
    s.beginJrn q e = (s.withJob q e).flushDone := by
  dsimp only [State.beginJrn]
  rw [if_neg (by simp [hopc]), if_neg (by simp [hopc]), if_pos hopc, State.withJob]

/-- ZERO_RANGE acts at once (R293). -/
theorem State.beginJrn_zeroRange {s : State} (q : QueueId) {e : Entry} (hopc : e.jrn.opc = 0x44) :
    s.beginJrn q e = (s.zeroRange e.jrn.nsid e.jrn.folio.toNat e.jrn.nfol).refuseJrn q e .ok := by
  dsimp only [State.beginJrn]
  rw [if_neg (by simp [hopc]), if_pos hopc]

/-- SEAL acts at once (R298). -/
theorem State.beginJrn_seal {s : State} (q : QueueId) {e : Entry} (hopc : e.jrn.opc = 0x45) :
    s.beginJrn q e = s.sealNs q e := if_pos hopc

/-- SEAL closes a namespace whose count and head it names (R298). -/
theorem State.sealNs_agrees {s : State} (q : QueueId) {e : Entry} (hseq : e.jrn.folio.toNat = (s.ns e.jrn.nsid).seq)
    (hhead : e.jrn.chain = s.headOf e.jrn.nsid) :
    s.sealNs q e = (s.setNs e.jrn.nsid { s.ns e.jrn.nsid with closed := true }).refuseJrn q e .ok :=
  if_pos (by simp [hseq, hhead])

/-- SEAL with another count or head has no effect (R298). -/
theorem State.sealNs_differs {s : State} (q : QueueId) {e : Entry}
    (h : ¬(e.jrn.folio.toNat = (s.ns e.jrn.nsid).seq ∧ e.jrn.chain = s.headOf e.jrn.nsid)) :
    s.sealNs q e = s.refuseJrn q e .jrnChainMismatch :=
  if_neg (by simpa using h)

/-- Where no append in progress has taken folios of the namespace, ZERO_RANGE clears its folios and touches no job (R286, R303). -/
theorem State.zeroRange_none_taken {s : State} {m : Nat} (i n : Nat)
    (h : (s.jrn.jobs.all fun j => !(j.took && j.nsid == m)) = true) :
    s.zeroRange m i n = (s.clearFolios m i n).updJrn fun y => { y with jobs := y.jobs.map id } := by
  dsimp only [State.zeroRange, State.clearFolios, State.updJrn]
  have hjob : ∀ z ∈ s.jrn.jobs, ¬(z.took && z.nsid == m) = true := fun z hz => by
    simpa only [Bool.not_eq_true', Bool.not_eq_true] using List.all_eq_true.mp h z hz
  rw [List.map_congr_left fun z hz => if_neg (hjob z hz)]
  rfl

/-- Settles O36: the entry's checks refuse it or begin it, and its opcode picks what it begins. -/
theorem journalCommandsBegin : Obligations.Journal_commands_begin := by
  refine ⟨?read, ?write, ?append, ?info, ?verify, ?flush, ?zeroRange, ?noneTaken, ?sealAgrees, ?sealDiffers, ?refused⟩
  case read | write | append | info | verify =>
    intro s q e hp hwf hq he hopc hcheck
    rw [exec_jrn_begins (by simp [jrnTable]) hp hwf hq he hopc hcheck,
      State.beginJrn_works q (by simp [hopc]) (by simp [hopc]) (by simp [hopc]), State.withJob]
  case flush =>
    intro s q e hp hwf hq he hopc hcheck
    rw [exec_jrn_begins (by simp [jrnTable]) hp hwf hq he hopc hcheck, State.beginJrn_flush q hopc, State.withJob]
  case zeroRange =>
    intro s q e hp hwf hq he hopc hcheck
    rw [exec_jrn_begins (by simp [jrnTable]) hp hwf hq he hopc hcheck, State.beginJrn_zeroRange q hopc]
  case noneTaken =>
    intro s m i n h
    exact State.zeroRange_none_taken i n h
  case sealAgrees =>
    intro s q e hp hwf hq he hopc hcheck hseq hhead
    rw [exec_jrn_begins (by simp [jrnTable]) hp hwf hq he hopc hcheck, State.beginJrn_seal q hopc,
      State.sealNs_agrees q hseq hhead]
  case sealDiffers =>
    intro s q e hp hwf hq he hopc hcheck h
    rw [exec_jrn_begins (by simp [jrnTable]) hp hwf hq he hopc hcheck, State.beginJrn_seal q hopc, State.sealNs_differs q h]
  case refused =>
    intro s q e cmd opc st hp hwf hq he hopc hcheck hcmd
    exact exec_jrn_refuses hcmd hp hwf hq he hopc hcheck

/-! ### Folio operations (R289, R301, R308, R326) -/

/-- The block that an engine codes from its job's samples (R318, R327). -/
def Job.block (j : Job) : Block := codeBlock j.coding j.samples j.firstStime j.rejected j.data

/-- The job with its coded block in place of its samples, its engine free again (R327). -/
def Job.coded (j : Job) : Job :=
  { j with
    engine := none, data := [], tag := j.block.header, rawFall := j.block.raw, total := ceilDiv j.block.payload.length 4096
    news := cutFolios (ceilDiv j.block.payload.length 4096) j.block.header j.block.payload }

/-- The end of a check that passed, of an engine whose job has all its data: the block joins the media's work, or its job ends
where the block does not fit its namespace (R289, R326). -/
theorem exec_fleostCheckEnd_passed {s : State} {g : Nat} {j : Job} (hp : s.power.porst = false) (hg : g < 5)
    (hj : s.jrn.jobs.find? (fun j => j.engine == some g) = some j) (hdata : j.need ≤ j.data.length) :
    exec (.fleostCheckEnd g false) s = .next (finish s
      (match (s.ns j.nsid).unfit (ceilDiv j.block.payload.length 4096) with
      | some st => (s.endJob j st).jrnWork
      | none => ((s.updJob j.id fun _ => j.coded).jobReady j.id).jrnWork)) := by
  dsimp only [exec, execFleostCheckEnd]
  rw [act_numbered rfl hg hp, hj]
  dsimp only
  rw [if_neg (Nat.not_lt.mpr hdata)]
  rfl

/-- The end of the array's operation, with the sectors that it found counted (R308). -/
def State.opCounted (s : State) (j : Job) (sectors uncorrectable : Nat) : State :=
  (s.updJrn fun x => { x with cur := none, lastOp := s.clk }).countSectors j.nsid sectors uncorrectable

/-- The folio that the job's operation is on. -/
def State.opFolio (s : State) (j : Job) : Nat :=
  if j.opc = 0x42 then (s.ns j.nsid).place (j.first + j.pos) else j.folio + j.pos

/-- The job with a folio noted that showed more than 4 corrected bits in a sector (R308). -/
def Job.noting (j : Job) (bits folio : Nat) : Job := { j with remaps := if 4 < bits then j.remaps ++ [folio] else j.remaps }

/-- The job with one more folio behind it. -/
def Job.advanced (j : Job) : Job := { j with pos := j.pos + 1 }

/-- What follows an operation's effect: the job ends with a failed operation's status, goes on, or ends with OK (R301). -/
def State.opFollows (s : State) (r : Option Status) (j : Job) : State :=
  match r with
  | some st => (s.endJob j.advanced st).jrnWork
  | none =>
    if j.pos + 1 < j.total || j.who == .zero j.nsid then (s.updJob j.id fun _ => j.advanced).jrnWork
    else ((s.updJob j.id fun _ => j.advanced).endJob j.advanced .ok).jrnWork

/-- While folios remain, and always for a zeroing, the job goes on. -/
theorem State.opFollows_goesOn {s : State} {j : Job} (h : j.pos + 1 < j.total ∨ j.who = .zero j.nsid) :
    s.opFollows none j = (s.updJob j.id fun _ => j.advanced).jrnWork := if_pos (by simpa using h)

/-- After the last folio of any other job the job ends with OK. -/
theorem State.opFollows_ends {s : State} {j : Job} (hlast : j.total ≤ j.pos + 1) (hwho : j.who ≠ .zero j.nsid) :
    s.opFollows none j = ((s.updJob j.id fun _ => j.advanced).endJob j.advanced .ok).jrnWork :=
  if_neg (by simpa using ⟨hlast, hwho⟩)

/-- FOLIO_OP_END at or after its instant (R301, R308). -/
theorem exec_folioOpEnd_due {s u v : State} {sec bits unc id : Nat} {f : Nat × Nat × Nat} {j j2 : Job} {r : Option Status}
    (hp : s.power.porst = false) (hcur : s.jrn.cur = some id) (hj : s.job? id = some j) (hdue : s.jrn.opEnd ≤ s.clk)
    (hf : f = j.found.getD (sec, bits, unc)) (hu : u = s.opCounted j f.1 f.2.2)
    (heffect : u.folioEffect (j.noting f.2.1 (u.opFolio j)) (f.2.2 != 0) = (r, j2, v)) :
    exec (.folioOpEnd sec bits unc) s = .next (finish s (v.opFollows r j2)) := by
  subst hf hu
  have hjob : s.jrn.cur.bind s.job? = some j := by rw [hcur]; exact hj
  dsimp only [State.opCounted, State.opFolio, Job.noting] at heffect
  dsimp only [exec, execFolioOpEnd]
  rw [act_up rfl hp, hjob]
  dsimp only
  rw [if_neg (Nat.not_lt.mpr hdue), heffect]
  cases r <;> rfl

/-- A folio operation of the SC900's own, of a kind that is not under way, becomes the newest job. -/
theorem State.ownJob_joins {s : State} {who : JobFor} (rank opc nsid folio : Nat) (found : Option (Nat × Nat × Nat))
    (h : (s.jrn.jobs.all fun j => j.who != who) = true) :
    s.ownJob who rank opc nsid folio found = (s.tick1.updJrn fun j =>
      { j with
        nextJob := j.nextJob + 1
        jobs := j.jobs ++ [{
          id := j.nextJob, who, sag := 0, rank, opc, nsid, folio, nfol := 1, total := 1, ready := true
          seq := s.tick1.serial, found }] }).jrnWork :=
  if_neg (by simpa using h)

/-- Settles O37: whether a coded block fits, and what an operation's effect leaves of its job, pick what follows. -/
theorem folioOperations : Obligations.Folio_operations := by
  refine ⟨?codes, ?unfit, ?fails, ?goesOn, ?ends, ?scrub⟩
  case codes =>
    intro s g j b k hp hg hj hdata hb hfit hk
    subst hb hk
    rw [exec_fleostCheckEnd_passed hp hg hj hdata, Job.block, hfit, Job.coded, Job.block]
  case unfit =>
    intro s g j st hp hg hj hdata hunfit
    rw [exec_fleostCheckEnd_passed hp hg hj hdata, Job.block, hunfit]
  case fails =>
    intro s u v sec bits unc id f i j j2 r st hp hcur hj hdue hf hu hi heffect hr
    subst hi hr
    rw [exec_folioOpEnd_due hp hcur hj hdue hf hu heffect, State.opFollows, Job.advanced]
  case goesOn =>
    intro s u v sec bits unc id f i j j2 r hp hcur hj hdue hf hu hi heffect hr hmore
    subst hi hr
    rw [exec_folioOpEnd_due hp hcur hj hdue hf hu heffect, State.opFollows_goesOn hmore, Job.advanced]
  case ends =>
    intro s u v sec bits unc id f i j j2 r hp hcur hj hdue hf hu hi heffect hr hlast hwho
    subst hi hr
    rw [exec_folioOpEnd_due hp hcur hj hdue hf hu heffect, State.opFollows_ends hlast hwho, Job.advanced]
  case scrub =>
    intro s n f sec bits unc hp hn hf hwritten hnone
    have hwf : (Instr.journalScrub n f sec bits unc).wf = true :=
      Bool.and_eq_true_iff.mpr ⟨decide_eq_true hn, decide_eq_true hf⟩
    dsimp only [exec, execJournalScrub]
    rw [act_up hwf hp, if_neg (by simpa [Option.isSome_iff_ne_none] using hwritten), State.ownJob_joins 4 0x47 n f _ hnone]

/-! ### The power states of the journal (R306, R307) -/

/-- JPS1_ENTRY of an idle journal in JPS0, IDLE1 µs after the latest operation (R306). -/
theorem exec_jps1Entry_idle {s : State} (hp : s.power.porst = false) (hps : s.jrn.ps = 0) (hidle1 : s.jrn.idle1 ≠ 0)
    (hmax : s.jrn.maxps ≠ 0) (hidle : s.jrnIdle = true) (hdue : s.jrn.lastOp + 1000 * s.jrn.idle1 ≤ s.clk) :
    exec .jps1Entry s = .next (finish s (s.updJrn fun j => { j with ps := 1 })) := by
  dsimp only [exec, execJps1Entry]
  rw [act_up rfl hp, if_neg (by simp [hps, hidle1, hmax, hidle, hdue])]

/-- JPS2_ENTRY of an idle journal that may go that deep, IDLE2 µs after the latest operation (R306, R307). -/
theorem exec_jps2Entry_idle {s : State} (hp : s.power.porst = false) (hps : s.jrn.ps ≠ 2) (hidle2 : s.jrn.idle2 ≠ 0)
    (hmax : 1 < s.jrn.maxps) (hcap : s.jrnCap = false) (hidle : s.jrnIdle = true)
    (hdue : s.jrn.lastOp + 1000 * s.jrn.idle2 ≤ s.clk) :
    exec .jps2Entry s = .next (finish s (s.updJrn fun j => { j with ps := 2 })) := by
  dsimp only [exec, execJps2Entry]
  rw [act_up rfl hp, if_neg (by simp [hps, hidle2, hmax, hcap, hidle, hdue])]

/-- JPS_EXIT_DONE at or after its instant wakes the array; where no CREATE_SQ runs, none has waited for it (R306, R307). -/
theorem exec_jpsExitDone_due {s : State} {t : Nat} (hp : s.power.porst = false) (hexit : s.jrn.exitAt = some t)
    (hdue : t ≤ s.clk) (hnone : (s.jrnAwake.fns.all fun e => e.2.opc != some 0x83) = true) :
    exec .jpsExitDone s = .next (finish s s.jrnAwake) := by
  have hwaiting : (s.jrnAwake.fns.filter fun e => e.2.opc == some 0x83 && e.2.heldAdmin.isNone &&
      !(s.jrnAwake.sq (e.2.arg 4 2)).opened) = [] := by
    refine List.filter_eq_nil_iff.mpr fun e he => ?_
    have hopc : e.2.opc ≠ some 0x83 := by simpa using List.all_eq_true.mp hnone e he
    simp [hopc]
  dsimp only [exec, execJpsExitDone]
  rw [act_up rfl hp, hexit]
  dsimp only
  rw [if_neg (Nat.not_lt.mpr hdue), hwaiting, List.foldl_nil]

/-- Settles O38: the premises of each clause are its command's guards. -/
theorem journalPowerStates : Obligations.Journal_power_states :=
  ⟨fun _ => exec_jps1Entry_idle, fun _ => exec_jps2Entry_idle, fun _ _ => exec_jpsExitDone_due⟩

end Sys2Proof.Machine

/-! ## Proofs of the statements about the queue of commands, reset, the management port and the safe-state registers -/

namespace Sys2Proof.Machine

/-! ### The queue of commands and the reset state (R405, R407, R453, R454, R456) -/

/-- Settles O55: a step takes the front command off the queue and runs it. -/
theorem stepRunsTheFrontCommand : Obligations.Step_runs_the_front_command := fun _ _ _ => rfl

/-- Settles O58: each value is the one the reset state is given, and the pins are computed from it. -/
theorem resetState : Obligations.Reset_state := by
  and_intros
  all_goals intros; rfl

/-- In reset a well-formed command leaves the state as it is, unless it is one of those that act there too (R454, R456). -/
theorem exec_in_reset {c : Instr} {s : State} (hp : s.power.porst = true) (hwf : c.wf = true)
    (hc : match c with
      | .porstNAssert | .porstNRelease | .brownOut | .testMode _ | .pePerstNAssert | .pePerstNRelease
       | .jtagInstruction _ => False
      | _ => True) : exec c s = .next s := by
  unfold exec
  cases c
  case porstNAssert | porstNRelease | testMode | brownOut | pePerstNAssert | pePerstNRelease | jtagInstruction => exact hc.elim
  all_goals exact act_reset hwf hp

/-- No time passes in reset. -/
theorem idle_in_reset {s : State} (hp : s.power.porst = true) : idle s = s := if_pos hp

/-- Settles O59: the guard of a command keeps the state in reset, and so does the clock. -/
theorem heldInReset : Obligations.Held_in_reset := by
  intro s hp
  refine ⟨fun c hwf hc => exec_in_reset hp hwf (by cases c <;> trivial), fun hempty => ?_⟩
  unfold step
  rw [hempty]
  exact congrArg _ (idle_in_reset hp)

/-! ### The CRC-8 of the ports (R415) -/

/-- Shifting bits out of a sum is the sum of what shifting them out of its terms gives. -/
theorem crc8Bits_xor (n : Nat) (a b : Byte) : crc8Bits n (a ^^^ b) = crc8Bits n a ^^^ crc8Bits n b := by
  induction n generalizing a b with
  | zero => rfl
  | succ n ih =>
    simp only [crc8Bits, ← ih, BitVec.getLsbD_xor, BitVec.shiftLeft_xor_distrib]
    congr 1
    cases a.getLsbD 7 <;> cases b.getLsbD 7 <;> grind

/-- The CRC of one byte is its row of the table. -/
theorem crc8_singleton (b : Byte) : crc8 [b] = crc8Bits 8 b := by simp [crc8]

/-- One more byte. -/
theorem crc8_concat (l : List Byte) (b : Byte) : crc8 (l ++ [b]) = crc8 [crc8 l ^^^ b] := by
  rw [crc8_singleton]
  exact List.foldl_append

theorem crc8_singleton_xor (a b : Byte) : crc8 [a ^^^ b] = crc8 [a] ^^^ crc8 [b] := by
  simp only [crc8_singleton, crc8Bits_xor]

/-- A receiver obtains 0 over the bytes and their CRC. -/
theorem crc8_concat_self (l : List Byte) : crc8 (l ++ [crc8 l]) = 0 := by
  rw [crc8_concat, BitVec.xor_self]
  rfl

/-! ### The requests of the management port (R409 to R412) -/

/-- The port's state once a request has come 100 ns or more after the one before: the next may come 100 ns later (R409). -/
def State.mspTaken (s : State) : State := s.updMsp fun m => { m with nextAt := s.clk + 100, response := [] }

/-- A whole request in its time is answered by the checks that remain, CRC_Q first (Table 17.4). -/
theorem State.mspCommand_whole {s : State} {req : List Byte} (cmd : Nat) (f : State → State) (hsilent : s.mspSilent = false)
    (htime : s.msp.nextAt ≤ s.clk) (hlen : mspFrame req ≤ req.length) :
    s.mspCommand cmd req f =
      if crc8 (req.take (mspFrame req - 1)) != req.getD (mspFrame req - 1) 0 then s.mspTaken.mspBad 1
      else if s.mspCmdErr req then s.mspTaken.mspBad 2
      else if leAt req 0 1 ≠ cmd then s.mspTaken
      else f s.mspTaken := by
  have hearly : s.mspEarly = (false, s) := if_neg (Nat.not_lt.mpr htime)
  dsimp only [State.mspCommand]
  rw [if_neg (by simp [hsilent]), hearly]
  dsimp only
  rw [if_neg Bool.false_ne_true, if_neg (Nat.not_lt.mpr hlen)]
  rfl

/-- A request whose CRC_Q is wrong is answered CRCERR (R415). -/
theorem State.mspCommand_wrongCrc {s : State} {req : List Byte} {cmd k : Nat} {f : State → State}
    (hsilent : s.mspSilent = false)
    (htime : s.msp.nextAt ≤ s.clk) (hk : k + 1 = mspFrame req) (hlen : k < req.length)
    (hcrc : crc8 (req.take k) ≠ req.getD k 0) : s.mspCommand cmd req f = s.mspTaken.mspBad 1 := by
  rw [State.mspCommand_whole cmd f hsilent htime (by omega), ← hk, if_pos (by simpa using hcrc)]

section MspRequest

variable {s : State} {req : List Byte} {cmd : Nat} (hsilent : s.mspSilent = false) (hlen : mspFrame req ≤ req.length)
  (hcrc : crc8 (req.take (mspFrame req - 1)) = req.getD (mspFrame req - 1) 0) (hgood : s.mspCmdErr req = false)
  (htime : s.msp.nextAt ≤ s.clk) (hcmd : leAt req 0 1 = cmd)

include hsilent hlen hcrc hgood htime hcmd

/-- A request without an error has the effect of its command. -/
theorem State.mspCommand_good (f : State → State) : s.mspCommand cmd req f = f s.mspTaken := by
  rw [State.mspCommand_whole cmd f hsilent htime hlen, if_neg (by simpa using hcrc), if_neg (by simp [hgood]),
    if_neg (not_not_intro hcmd)]

end MspRequest

/-- Settles O53: the CRC is linear in its bytes, and the port checks it before anything else of a request. -/
theorem checksumOfThePorts : Obligations.Checksum_of_the_ports := by
  refine ⟨rfl, crc8_concat, crc8_singleton_xor, ?table, ?check, crc8_concat_self, ?wrong, fun _ _ _ => rfl⟩
  case table => decide
  case check => decide +kernel
  case wrong =>
    intro s req cmd k f hsilent htime hk hlen hcrc
    exact State.mspCommand_wrongCrc hsilent htime hk hlen hcrc

/-- Settles O6: a good request has its command's effect on the port as the request leaves it. -/
theorem mspRequests : Obligations.Msp_requests := by
  refine ⟨?read, ?write, ?repeat_⟩
  case read =>
    intro s req clocked hp hsilent hlen hcrc hgood htime hcmd
    refine ⟨_, _, rfl, ?_⟩
    dsimp only [exec, execMspRead]
    rw [act_up rfl hp, State.mspCommand_good hsilent hlen hcrc hgood htime hcmd]
    rfl
  case write =>
    intro s req hp hsilent hlen hcrc hgood htime hcmd
    refine ⟨_, _, rfl, rfl, ?_⟩
    dsimp only [exec, execMspWrite]
    rw [act_up rfl hp, State.mspCommand_good hsilent hlen hcrc hgood htime hcmd]
    rfl
  case repeat_ =>
    intro s req hp hsilent hlen hcrc hgood htime hcmd
    dsimp only [exec, execMspRepeat]
    rw [act_up rfl hp, State.mspCommand_good hsilent hlen hcrc hgood htime hcmd]
    rfl

/-! ### The device watchdog (R398, R399) -/

/-- A bite that is not due yet, or a timer that does not run, changes nothing. -/
theorem State.wdgDue_early {s : State} (h : (s.wdgEnd.all fun t => decide (s.clk < t)) = true) : s.wdgDue = s := by
  dsimp only [State.wdgDue]
  cases hend : s.wdgEnd with
  | none => rfl
  | some t =>
    have hlt : s.clk < t := by simpa [hend] using h
    exact if_neg (Nat.not_le.mpr hlt)

/-- Without a running timer no bite is due. -/
theorem State.wdgDue_stopped {s : State} (h : s.dev.wdgSince = none) : s.wdgDue = s :=
  State.wdgDue_early (by simp [State.wdgEnd, h])

/-- At the end of the window the watchdog bites. -/
theorem State.wdgDue_bites {s : State} {t : Nat} (hend : s.wdgEnd = some t) (hdue : t ≤ s.clk) : s.wdgDue = s.wdgBites := by
  dsimp only [State.wdgDue]
  rw [hend]
  exact if_pos hdue

/-- A write of a lockable register of the unlocked block is taken. -/
theorem State.rwl_unlocked {s : State} (c : Bool) (f : State → State) (h : s.dev.lock = false) : s.rwl c f = f s := by
  simp [State.rwl, h]

/-- Settles O9: each command first lets the bite that is due happen. -/
theorem deviceWatchdog : Obligations.Device_watchdog := by
  refine ⟨?kick, ?enable, ?bite⟩
  case kick =>
    intro s hp hready hearly
    dsimp only [exec, execWdgKick]
    rw [act_served rfl hp hready, State.wdgKickWrite, State.wdgDue_early hearly]
    exact congrArg (fun t => Host.Outcome.next (finish s t)) (if_pos rfl)
  case enable =>
    intro s w hp hready hlock hen hsince
    have hbit0 : bit (setBit w 0 true) 0 = true := by simp [bit_setBit]
    have hbit2 : bit (setBit w 0 true) 2 = bit w 2 := bit_setBit_other w true (by decide)
    dsimp only [exec, execWdgEnable]
    rw [act_served rfl hp hready, State.wdgCtlWrite, State.wdgDue_stopped hsince]
    rw [State.rwl_unlocked _ _ hlock, hbit0, hbit2]
    simp [State.updDev, hen]
  case bite =>
    intro s t hp hend hdue
    dsimp only [exec, execDeviceWdgBite]
    rw [act_up rfl hp, State.wdgDue_bites hend hdue]
    rfl

/-! ### SAFE_CTL (R401, R404, R405, Table 16.5) -/

/-- The FS bits of SAFE_CTL. -/
def State.takeFs (s : State) (w : Word) : State :=
  s.updDev fun d => { d with fsOvr := bit w 4, fsSup := bit w 5, fsForce := bit w 6 }

/-- The safe-state words do not depend on the device's registers. -/
theorem State.onPorts_takeFs (s : State) (w : Word) (b : Nat) : (s.takeFs w).onPorts b = s.onPorts b := rfl

/-- The orders of SAFE_CTL, in the order in which they act. -/
def State.safeOrders (s : State) (relOvr relDwdg relSup apply : Bool) : State :=
  let s := if !relOvr then s else if s.kiln.ovrConsec = 0 then s.safeRelease 1 else s.errReg
  let s := if !relDwdg then s else if s.dev.wdgBite then s.errReg else s.safeRelease 2
  let s := if relSup && !apply then s.safeRelease 3 else s
  if apply then s.safeApply 3 (s.onPorts 10) none else s

theorem State.safeOrders_apply (s : State) :
    s.safeOrders false false false true = s.safeApply 3 (s.onPorts 10) none := by simp [State.safeOrders]

theorem State.safeOrders_relSup (s : State) : s.safeOrders false false true false = s.safeRelease 3 := by
  simp [State.safeOrders]

theorem State.safeOrders_relOvr {s : State} (h : s.kiln.ovrConsec = 0) :
    s.safeOrders true false false false = s.safeRelease 1 := by simp [State.safeOrders, h]

theorem State.safeOrders_relDwdg {s : State} (h : s.dev.wdgBite = false) :
    s.safeOrders false true false false = s.safeRelease 2 := by simp [State.safeOrders, h]

/-- With no bite due a write of SAFE_CTL to the unlocked block takes its FS bits, then its orders. -/
theorem State.safeCtlWrite_unlocked {s : State} (w : Word) (hlock : s.dev.lock = false)
    (hearly : (s.wdgEnd.all fun t => decide (s.clk < t)) = true) :
    s.safeCtlWrite w = (s.takeFs w).safeOrders (bit w 2) (bit w 3) (bit w 1) (bit w 0) := by
  dsimp only [State.safeCtlWrite]
  rw [State.wdgDue_early hearly, State.rwl_unlocked _ _ hlock]
  rfl

/-- The rows of SAFE_CTL set one order's bit, which leaves the FS bits as written. -/
theorem State.takeFs_setBit (s : State) (w : Word) (b : Bool) {i : Nat} (hi : i < 4) : s.takeFs (setBit w i b) = s.takeFs w := by
  simp only [State.takeFs, bit_setBit_other w b (show 4 ≠ i by omega), bit_setBit_other w b (show 5 ≠ i by omega),
    bit_setBit_other w b (show 6 ≠ i by omega)]

/-- A row of SAFE_CTL whose order is the only one written: the FS bits are taken, then that order acts. -/
theorem State.safeCtlWrite_order {s : State} {w : Word} {i : Nat} (hlock : s.dev.lock = false)
    (hearly : (s.wdgEnd.all fun t => decide (s.clk < t)) = true) (hi : i < 4)
    (halone : ∀ j, j < 4 → j ≠ i → bit w j = false) :
    s.safeCtlWrite (setBit w i true) = (s.takeFs w).safeOrders (2 == i) (3 == i) (1 == i) (0 == i) := by
  have horder : ∀ j, j < 4 → bit (setBit w i true) j = (j == i) := by
    intro j hj
    by_cases hji : j = i
    · simp [bit_setBit, hji, show i < 32 by omega]
    · simp [bit_setBit, hji, halone j hj hji]
  rw [State.safeCtlWrite_unlocked _ hlock hearly, State.takeFs_setBit s w true hi]
  simp only [horder, Nat.reduceLT]

/-- Settles O10: the write takes its FS bits, and its one order acts. -/
theorem supervisorSafeControl : Obligations.Supervisor_safe_control := by
  refine ⟨?apply, ?relSup, ?relOvr, ?relDwdg⟩
  case apply =>
    intro s w hp hready hlock hearly h1 h2 h3
    dsimp only [exec, execApply]
    rw [act_served rfl hp hready, State.safeCtlWrite_order hlock hearly (by decide) (by
      intro j _ _
      interval_cases j <;> trivial)]
    simp only [Nat.reduceBEq]
    rw [State.safeOrders_apply, State.onPorts_takeFs, State.takeFs]
  case relSup =>
    intro s w hp hready hlock hearly h0 h2 h3
    dsimp only [exec, execRelSup]
    rw [act_served rfl hp hready, State.safeCtlWrite_order hlock hearly (by decide) (by
      intro j _ _
      interval_cases j <;> trivial)]
    simp only [Nat.reduceBEq]
    rw [State.safeOrders_relSup, State.takeFs]
  case relOvr =>
    intro s w hp hready hlock hearly h0 h1 h3 hconsec
    dsimp only [exec, execRelOvr]
    rw [act_served rfl hp hready, State.safeCtlWrite_order hlock hearly (by decide) (by
      intro j _ _
      interval_cases j <;> trivial)]
    simp only [Nat.reduceBEq]
    rw [State.safeOrders_relOvr (s := s.takeFs w) hconsec, State.takeFs]
  case relDwdg =>
    intro s w hp hready hlock hearly h0 h1 h2 hbite
    dsimp only [exec, execRelDwdg]
    rw [act_served rfl hp hready, State.safeCtlWrite_order hlock hearly (by decide) (by
      intro j _ _
      interval_cases j <;> trivial)]
    simp only [Nat.reduceBEq]
    rw [State.safeOrders_relDwdg (s := s.takeFs w) hbite, State.takeFs]

end Sys2Proof.Machine

/-! ## Proofs of the statements about the sides of the Uamond Link -/

namespace Sys2Proof.Machine

/-! ### The sides (R336, R338, R339, R340, R364, R365) -/

@[simp] theorem State.updSide_clk (s : State) (d : Side) (f : LnkSide → LnkSide) : (s.updSide d f).clk = s.clk := by
  cases d <;> rfl

/-- An update of a side that gives it a value computed from what it was. -/
theorem State.updSide_const (s : State) (d : Side) (f : LnkSide → LnkSide) :
    (s.updSide d fun _ => f (s.lnk.side d)) = s.updSide d f := by
  cases d <;> rfl

/-- One exchange of a training (R338). -/
def LnkSide.exchange (x : LnkSide) (a b c e : Nat) : LnkSide :=
  { x with exchanges := x.exchanges + 1, sum := x.sum + (((e : Int) - a) - ((c : Int) - b)) }

/-- Settles O40: the premises of each clause are its command's guards. -/
theorem linkSides : Obligations.Link_sides := by
  refine ⟨?passed, ?failed, ?repeats, ?trainingStart, ?trainingRetry, ?train, ?up, ?down, ?wrap, ?unwrap⟩
  case passed =>
    intro s t hp htest hen hdue
    dsimp only [exec, execBypassTestEnd]
    rw [act_up rfl hp, htest]
    dsimp only
    rw [if_neg (by simp [hen, hdue]), if_pos rfl]
    rfl
  case failed =>
    intro s t u hp htest hen hdue hu
    subst hu
    dsimp only [exec, execBypassTestEnd]
    rw [act_up rfl hp, htest]
    dsimp only
    rw [if_neg (by simp [hen, hdue]), if_neg Bool.false_ne_true]
    cases s.lnk.faultRaised <;> rfl
  case repeats =>
    intro s t hp hretry hen hdue
    dsimp only [exec, execBypassTestRepeat]
    rw [act_up rfl hp, hretry]
    dsimp only
    rw [if_pos (by simp [hen, hdue])]
  case trainingStart =>
    intro s d u hp hins hup htraining hdue hu
    subst hu
    dsimp only [exec, execSideTrainingStart]
    rw [act_up rfl hp, if_neg (by simp [hins, hup, htraining, hdue])]
  case trainingRetry =>
    intro s d hp htraining
    dsimp only [exec, execSideTrainingRetry]
    rw [act_up rfl hp, if_pos htraining]
  case train =>
    intro s d a b c e hp hwf hup htraining hfew
    dsimp only [exec, execTrain]
    rw [act_up hwf hp, if_neg (by simp [hup, htraining, hfew]), if_neg (by simp [hup])]
    exact congrArg (fun t => Host.Outcome.next (finish s t)) (State.updSide_const s d (LnkSide.exchange · a b c e))
  case up =>
    intro s d u v hp htraining hmany hu hv
    subst hu hv
    dsimp only [exec, execSideUp]
    rw [act_up rfl hp, if_neg (by simp [htraining, hmany]), State.updSide_clk, ← Bool.not_or]
    cases s.lnk.east.up || s.lnk.west.up <;> rfl
  case down =>
    intro s d hp hup
    dsimp only [exec, execSideDown]
    rw [act_up rfl hp, if_pos hup]
  case wrap =>
    intro s d o u hp hwf hins hup hticks hother hfree hu
    subst hu
    dsimp only [exec, execLinkWrap]
    rw [act_up hwf hp, if_neg (by simp [hins, hup, hother, hfree, Nat.lt_of_succ_le hticks])]
  case unwrap =>
    intro s d u hp hwrapped hup hsince hcrc hticks hu
    subst hu
    have hclean : (s.lnk.side d).crcAt ≠ 0 → (s.lnk.side d).crcAt + 5000000 ≤ s.clk := hcrc.resolve_left
    dsimp only [exec, execLinkUnwrap]
    rw [act_up rfl hp, if_neg (by simpa [hwrapped, hup, hsince, Nat.lt_of_succ_le hticks] using hclean)]

end Sys2Proof.Machine

/-! ## Proofs of the statements about remote work on the Uamond Link -/

namespace Sys2Proof.Machine

/-! ### Requests at the target (R346, R357, R358) -/

/-- The CCW of a request; its flags stay with the issuer. -/
def remoteCcw (cb : List Byte) : Ccw := { Ccw.ofBytes (padTo 16 cb) with flags := 0 }

/-- The local saggar that a grant maps the request's to (R170). -/
def State.remoteSag (s : State) (src sag : Nat) : Nat := ((s.grantOf src sag).map fun e => (s.grant e).lsag).getD 0

/-- The target with a request of another node among its remote operations (R358). -/
def State.withRemote (s : State) (src sag cls tag : Nat) : State :=
  s.tick1.updLnk fun l => { l with remotes := l.remotes ++ [{
    src, tag, cls, sch := remoteNum src tag, sag := s.remoteSag src sag, frame := s.kiln.frame }] }

/-- The operation of an admitted request, with the instants that its port's table gives (R58, R358). -/
def State.remoteOp (s : State) (c : Ccw) (d : List Byte) : PortOp :=
  { seq := s.serial, respNs := s.respNs c.port, byteNs := s.byteNs c.port, turnNs := s.turnNs c.port, ovhNs := s.ovhNs c.port
    ccw := c, port := c.port, node := s.lnk.node, phase := .queued, tx := d, t0 := s.clk }

/-- What an admitted request does, by its checks and its opcode (R54, R357). -/
def State.beginRemote (s : State) (n lsag cls : Nat) (c : Ccw) (d : List Byte) : State :=
  if !s.portStep2 n c || (c.op == 0x03 && !s.controlOk c.port d) || (c.op == 0x0A && !stageOk c.port d) ||
      (c.op == 0x03 && lineCode (leAt d 0 2) && cls ≠ 0 && s.gOnPort c.port &&
        decide (s.segNs c.port < s.portCharge c.port c)) then
    s.endRemote n .programCheck 0 0 []
  else if c.op == 0x03 && leAt d 0 2 == 0x0071 && !(s.wm (c.port - 0xA0)).cfg.hostwin then
    s.endRemote n .protectionCheck 0 0 []
  else if c.op == 0x0A then (if s.portEn c.port then s.stageHere n c.port d else s).instantCcw n c []
  else if c.op == 0x0B then s.instantCcw n c (s.snapPart lsag c.port)
  else (s.setSch n { state := .waiting, op := some (s.remoteOp c d) }).work

/-- A transfer that its port takes becomes an operation of the port. -/
theorem State.beginRemote_transfers {s : State} {n : Nat} {c : Ccw} (lsag cls : Nat) (d : List Byte)
    (hop : c.op = 0x01 ∨ c.op = 0x02 ∨ c.op = 0x04 ∨ c.op = 0x05) (hstep2 : s.portStep2 n c = true) :
    s.beginRemote n lsag cls c d = (s.setSch n { state := .waiting, op := some (s.remoteOp c d) }).work := by
  have hother : c.op ≠ 0x03#8 ∧ c.op ≠ 0x0A#8 ∧ c.op ≠ 0x0B#8 := by
    obtain h | h | h | h := hop <;> simp [h]
  simp [State.beginRemote, hstep2, hother]

section RportReq

variable {s : State} {src sag cls tag fr : Nat} {cb d : List Byte} {c : Ccw} (hp : s.power.porst = false)
  (hwf : Instr.wf (.rportReq src sag cls tag fr cb d) = true) (hins : s.inserted = true) (hsrc : src ≠ s.lnk.node)
  (hnew : (s.remoteOf (remoteNum src tag)).isSome = false)

include hp hwf hins hsrc hnew

/-- While RUN is 0 a new request finds no port (R358). -/
theorem exec_rportReq_stopped (hrun : s.kiln.run = false) :
    exec (.rportReq src sag cls tag fr cb d) s =
      .next (finish s (s.sendRsp src tag cls .linkUnreachable 0 0 s.kiln.frame [])) := by
  dsimp only [exec, execRportReq]
  rw [act_up hwf hp, if_neg (by simp [hins, hsrc, hnew]), if_pos (by simp [hrun])]

variable (hrun : s.kiln.run = true) (hc : c = remoteCcw cb)

include hrun hc

/-- A request without its right, or for a port that programs share, is refused (R55, R170, R358). -/
theorem exec_rportReq_denied
    (hdeny : s.remoteRight src sag c = false ∨ (portKind c.port ≤ 3 ∧ s.portShared c.port = true)) :
    exec (.rportReq src sag cls tag fr cb d) s =
      .next (finish s (s.sendRsp src tag cls .protectionCheck 0 0 s.kiln.frame [])) := by
  subst hc
  have hrefused : (!s.remoteRight src sag (remoteCcw cb) ||
      (decide (portKind (remoteCcw cb).port ≤ 3) && s.portShared (remoteCcw cb).port)) = true := by simpa using hdeny
  dsimp only [exec, execRportReq]
  rw [act_up hwf hp, if_neg (by simp [hins, hsrc, hnew]), if_neg (by simp [hrun]), if_pos (by exact hrefused)]

/-- A request with its right, to a port of its own and with room, is admitted. -/
theorem exec_rportReq_admitted (hright : s.remoteRight src sag c = true)
    (halone : ¬ (portKind c.port ≤ 3 ∧ s.portShared c.port = true)) (hroom : cls = 0 ∨ s.remoteRoom = true) :
    exec (.rportReq src sag cls tag fr cb d) s =
      .next (finish s ((s.withRemote src sag cls tag).beginRemote (remoteNum src tag) (s.remoteSag src sag) cls c d)) := by
  subst hc
  have hopen : ¬ ((!s.remoteRight src sag (remoteCcw cb) ||
      (decide (portKind (remoteCcw cb).port ≤ 3) && s.portShared (remoteCcw cb).port)) = true) := by
    rw [hright]
    simpa using halone
  dsimp only [exec, execRportReq]
  rw [act_up hwf hp, if_neg (by simp [hins, hsrc, hnew]), if_neg (by simp [hrun]), if_neg (by exact hopen),
    if_neg (by simpa using hroom.resolve_left)]
  rfl

end RportReq

/-! ### Responses at the issuer (R357, R359) -/

/-- The CCW holds the bytes and the end of its response. -/
def State.answerOp (s : State) (n : Nat) (b : List Byte) (st : Status) (ds : BitVec 16) (res fr : Nat) : State :=
  (s.updOp n fun o => { o with rx := b, rxCount := b.length, remoteSt := some (st, ds, res, fr) }).coverRx n

/-- The response to a CCW whose bytes are placed ends it. -/
theorem exec_rportRsp_ends {s u v : State} {src tag st : Nat} {ds : BitVec 16} {res fr : Nat} {d b : List Byte} {o q : PortOp}
    (hp : s.power.porst = false) (hwf : Instr.wf (.rportRsp src tag st ds res fr d) = true)
    (hop : (s.sch (tag % 256)).op = some o) (hphase : o.phase = .remote) (hnode : o.node = src) (hseq : o.seq = tag / 256)
    (hwaits : o.remoteSt = none) (htime : s.clk < o.deadline)
    (hu : u = if Status.ofCode st = .protectionCheck then s.updPeer src fun p => { p with denied := sat16 p.denied } else s)
    (hb : b = if o.ccw.op = 0x04 ∧ o.ccw.port = 0x1FF then u.ownCounters (tag % 256) d else d)
    (hv : v = u.answerOp (tag % 256) b (Status.ofCode st) ds res fr) (hq : (v.sch (tag % 256)).op = some q)
    (hplaced : q.rxPlaced = true) :
    exec (.rportRsp src tag st ds res fr d) s = .next (finish s (v.remoteEnd (tag % 256) q)) := by
  subst hb hu hv
  dsimp only [State.answerOp] at hq ⊢
  dsimp only [exec, execRportRsp]
  rw [act_up hwf hp, hop]
  dsimp only
  rw [if_neg (by simp [hphase, hnode, hseq, hwaits]), if_neg (Nat.not_le.mpr htime)]
  simp only [beq_iff_eq, Bool.and_eq_true, decide_eq_true_eq, hq, hplaced, if_true]

/-- A response that leaves no bytes to store sets what it tells of the transfer and completes the CCW (R357). -/
theorem State.remoteEnd_of_nothing_stored {s : State} (n : Nat) {o : PortOp} {st : Status} {ds : BitVec 16} {res fr : Nat}
    (hst : o.remoteSt = some (st, ds, res, fr)) (hnone : o.ccw.stores = false ∨ o.rx = []) :
    s.remoteEnd n o = ((s.updSch n fun x =>
      { x with
        residual := w32 res, dstat := ds
        applyFrame := if o.ccw.op == 0x0A && st == .ok then BitVec.ofNat 16 (fr + 1) else x.applyFrame
        stageTicks := if o.ccw.op == 0x0A && st == .ok then 0 else x.stageTicks, op := none }).opDone n o st).work := by
  dsimp only [State.remoteEnd]
  rw [hst]
  dsimp only
  have hcut (room : Nat) : (o.ccw.stores && decide (room < o.rx.length)) = false := by
    obtain h | h := hnone <;> simp [h]
  rw [if_pos (by simpa using hnone)]
  simp only [hcut, Bool.false_eq_true, if_false]

/-! ### Control messages (R360, R361, R366) -/

/-- Settles O42: the guards of a request and of a response pick the one effect of each clause, and MAIL acts by its kind. -/
theorem linkRemoteWork : Obligations.Link_remote_work := by
  refine ⟨?stopped, ?denied, ?transfers, ?lost, ?answered, ?ended, ?mail⟩
  case stopped =>
    intro s src sag cls tag fr cb d hp hwf hins hsrc hnew hrun
    exact exec_rportReq_stopped hp hwf hins hsrc hnew hrun
  case denied =>
    intro s src sag cls tag fr cb d c hp hwf hins hsrc hnew hrun hc hdeny
    exact exec_rportReq_denied hp hwf hins hsrc hnew hrun hc hdeny
  case transfers =>
    intro s src sag cls tag fr cb d c n ls u o hp hwf hins hsrc hn hnew hrun hc hright halone hroom hop hls hu hstep2 ho
    subst hn hls ho
    have hadmitted : u = s.withRemote src sag cls tag := hu
    rw [exec_rportReq_admitted hp hwf hins hsrc hnew hrun hc hright halone hroom, ← hadmitted,
      State.beginRemote_transfers _ _ d hop hstep2, State.remoteOp]
  case lost =>
    intro s src tag st ds res fr d hp hwf hop
    dsimp only [exec, execRportRsp]
    rw [act_up hwf hp, hop]
  case answered =>
    intro s u v src tag st ds res fr d b o q hp hwf hop hphase hnode hseq hwaits htime hu hb hv hq hplaced
    exact exec_rportRsp_ends hp hwf hop hphase hnode hseq hwaits htime hu hb hv hq hplaced
  case ended =>
    intro s n o st ds res fr hst hnone
    exact State.remoteEnd_of_nothing_stored n hst hnone
  case mail =>
    intro s m hp hwf hins
    dsimp only [exec, execMail]
    refine (act_up hwf hp).trans ?_
    cases m <;> simp only [hins, Bool.not_true, Bool.false_eq_true, if_false]

end Sys2Proof.Machine

/-! ## Proofs of the statements about repair, its measurements and the faults that it answers -/

namespace Sys2Proof.Machine

/-! ### Rotation, tests and processor faults (R375, R376, R378, R379, R385, R387) -/

/-- ROTATION of a frame that takes one, with enough tested spares, no fault of this instant and none of the ways that hold it
(R375, R376). -/
theorem exec_rotation_due {s u : State} {f : Word} {e r : Nat} (hp : s.power.porst = false) (hf : f = s.kiln.frame)
    (hruns : s.kiln.frameRuns = true) (hrun : s.kiln.run = true) (hslice : s.kiln.slice = 15) (hlast : f.toNat % 128 = 127)
    (hnew : s.health.rotFrame ≠ some f) (hdis : s.health.rotDis = false) (hhalted : s.health.rotHalted = false)
    (hfault : s.health.faultAt ≠ some s.clk) (hu : u = s.updHealth fun h => { h with rotFrame := some f })
    (hspares : 2 ≤ (u.testedSpares 0).length) (he : u.unitOf 0 (f.toNat % 4096 / 128) = some e)
    (hr : u.nextSpare 0 = some r) :
    exec .rotation s = .next (finish s (u.rotate (f.toNat % 4096 / 128) e r)) := by
  subst hf hu
  dsimp only [exec, execRotation]
  rw [act_up rfl hp, if_neg (by simp [hruns, hslice, hlast, hnew]), if_neg (by simp [hdis, hrun, hfault]),
    if_neg (Nat.not_lt.mpr hspares), if_neg (by simp [hhalted]), he, hr]

/-- The end of the test of a unit that is in test (R376, R387). -/
theorem exec_rotationTestEnd_testing {s : State} {e w : Nat} {r : UnitTest} (hp : s.power.porst = false) (he : e < 36)
    (hwf : Instr.wf (.rotationTestEnd e r w) = true) (htesting : (s.unit e).state = .testing) {u : State}
    (hu : u = s.measured e w) :
    exec (.rotationTestEnd e r w) s = .next (finish s (if r = .passed then
      u.setUnit e { u.unit e with state := .spare, tested := true, tests := ((u.unit e).tests + 1) % 2 ^ 32, spareSince := u.clk }
    else ((u.retire e).record 3 0 (if r = .failedLogic then 1 else 2) (u.unit e).last e 0 0).marginDec 0 e)) := by
  subst hu
  have hguard : ¬ ((decide (36 ≤ e) || (s.unit e).state != .testing) = true) := by simp [he, htesting]
  dsimp only [exec, execRotationTestEnd]
  cases r <;> exact (act_up hwf hp).trans (congrArg (fun t => Host.Outcome.next (finish s t)) (if_neg hguard))

/-- A processor's fault of this instant moves it to a spare, or fails it (R378, R379). -/
def State.faultCp (s : State) (cp : Nat) : State :=
  let r := (s.updHealth fun h => { h with faultAt := some s.clk }).faultUnit 0 cp 3
  if r.1 then r.2 else r.2.processorFailed cp

theorem State.faultCp_eq {s v : State} {cp : Nat} {ok : Bool}
    (h : (s.updHealth fun h => { h with faultAt := some s.clk }).faultUnit 0 cp 3 = (ok, v)) :
    s.faultCp cp = if ok then v else v.processorFailed cp := by
  rw [State.faultCp, h]

/-- The program struck by a processor's fault, where it is one of the processor's and runs, ends first (R379). -/
def State.endStruck (s : State) (cp : Nat) (struck : Option Nat) : State :=
  match struck with
  | some n =>
    if n / 8 = cp && ((s.sch n).state == .active || (s.sch n).state == .waiting || (s.sch n).state == .halting) then
      s.stopProgram n .migratedAbort
    else s
  | none => s

/-- PROCESSOR_FAULT of a processor that has a unit (R378, R379). -/
theorem exec_processorFault_unit {s : State} {cp : Nat} {struck : Option Nat} (hp : s.power.porst = false)
    (hwf : Instr.wf (.processorFault cp struck) = true) (hunit : (s.unitOf 0 cp).isSome = true) :
    exec (.processorFault cp struck) s = .next (finish s ((s.endStruck cp struck).faultCp cp)) := by
  obtain ⟨e, he⟩ := Option.isSome_iff_exists.mp hunit
  dsimp only [exec, execProcessorFault]
  rw [act_up hwf hp, he]
  rfl

/-- Settles O43: the guards of each command leave its one effect, which the result of a test or of a fault picks. -/
theorem rotationAndProcessorFaults : Obligations.Rotation_and_processor_faults := by
  refine ⟨?rotation, ?passed, ?failed, ?fault, ?struck⟩
  case rotation =>
    intro s f e r u hp hf hruns hrun hslice hlast hnew hdis hhalted hfault hu hspares he hr
    rw [exec_rotation_due hp hf hruns hrun hslice hlast hnew hdis hhalted hfault hu hspares he hr, State.rotate]
  case passed =>
    intro s e w hp hwf he htesting
    exact ⟨_, rfl, (exec_rotationTestEnd_testing hp he hwf htesting rfl).trans (by rw [if_pos rfl])⟩
  case failed =>
    intro s e w r hp hwf he htesting hr
    exact ⟨_, rfl, (exec_rotationTestEnd_testing hp he hwf htesting rfl).trans (by rw [if_neg hr])⟩
  case fault =>
    intro s cp v ok hp hcp hunit hv
    rw [exec_processorFault_unit hp (by simpa [Instr.wf] using hcp) hunit, State.endStruck, State.faultCp_eq hv]
  case struck =>
    intro s u cp n v ok hp hcp hn hcpn hunit hstate hu hv
    have hends : s.endStruck cp (some n) = u := by
      rw [hu]
      exact if_pos (by simpa [hcpn, or_assoc] using hstate)
    rw [exec_processorFault_unit hp (by simp [Instr.wf, hcp, hn]) hunit, hends, State.faultCp_eq hv]

/-! ### Faults of channels, slices and rows (R380, R382, R383, R384, R385) -/

/-- What is left of a channel's buffer after a burst fault, by whether a spare has taken the channel over (R380). -/
def State.burstFault (s : State) (ch : Nat) (writeIssued : Bool) : State :=
  let r := s.faultUnit 1 ch 7
  if r.1 then (if writeIssued then r.2.bmEnd ch .migratedAbort else r.2)
  else ((r.2.updBm ch fun b => { b with failed := true, waiters := [] }).bmEnd ch .repairExhausted).endMoves
    ((r.2.bm ch).movers.filter fun m => some m.1 != (r.2.bm ch).mover) .repairExhausted

theorem exec_bmBurstFault_moving {s : State} {ch : Nat} (wr : Bool) (hp : s.power.porst = false) (hch : ch < 16)
    (hmoves : (s.bm ch).state = .run ∨ (s.bm ch).state = .aborting) :
    exec (.bmBurstFault ch wr) s = .next (finish s (s.burstFault ch wr)) := by
  have hguard : ¬ (((s.bm ch).state != .run && (s.bm ch).state != .aborting) = true) := by
    obtain h | h := hmoves <;> simp [h]
  dsimp only [exec, execBmBurstFault]
  rw [act_numbered rfl hch hp, if_neg hguard]
  rfl

/-- On an idle line every byte of the transmit FIFO counts (R382). -/
theorem State.txLevel_idle {s : State} {p : Nat} (h : (s.port p).lineBusy = none) : s.txLevel p = (s.port p).tx.length := by
  dsimp only [State.txLevel]
  exact if_pos (by simp [h])

/-- SLICE_FAULT on an idle serial line (R382, R383). -/
theorem exec_sliceFault_idle {s u v : State} {p : Nat} {ok : Bool} (begun : Bool) (hp : s.power.porst = false) (hlt : p < 512)
    (hkind : portKind p = 1) (hworks : (s.port p).failed = false) (hidle : (s.port p).lineBusy = none)
    (hu : u = s.updPort p fun x => { x with drops := satAdd 65535 x.drops x.tx.length })
    (hv : (u.stopLine p).faultUnit 3 p 8 = (ok, v)) :
    exec (.sliceFault p begun) s = .next (finish s
      (((if ok then v else v.updPort p fun x => { x with failed := true }).freeLine p).work)) := by
  subst hu
  dsimp only [exec, execSliceFault]
  rw [act_numbered rfl hlt hp, if_neg (by simp [hkind, hworks])]
  simp only [hidle, State.txLevel_idle hidle, Nat.sub_zero]
  rw [show (s.updPort p fun x => { x with drops := satAdd 65535 x.drops (s.port p).tx.length }) =
    s.updPort p fun x => { x with drops := satAdd 65535 x.drops x.tx.length } from rfl, hv]

/-- Settles O44: whether a spare takes over picks what each fault leaves; a scrub acts by what it found. -/
theorem faultsOfChannelsSlicesRows : Obligations.Faults_of_channels_slices_rows := by
  refine ⟨?moved, ?failed, ?slice, ?scrub⟩
  case moved =>
    intro s ch wr v hp hch hmoves hv
    rw [exec_bmBurstFault_moving wr hp hch hmoves, State.burstFault, hv]
    rfl
  case failed =>
    intro s ch wr v hp hch hmoves hv
    rw [exec_bmBurstFault_moving wr hp hch hmoves, State.burstFault, hv]
    rfl
  case slice =>
    intro s p begun ok u v hp hlt hkind hworks hidle hu hv
    exact exec_sliceFault_idle begun hp hlt hkind hworks hidle hu hv
  case scrub =>
    intro s n f u hp hwf hu
    subst hu
    dsimp only [exec, execLocalStoreScrub]
    cases f <;> exact act_up hwf hp

/-! ### Temperature and supply rails (R386, R387, R389, R390) -/

/-- The reading and its peak (R389). -/
def State.takeTemp (s : State) (t : Int) : State :=
  s.updHealth fun h => { h with tempNow := t, tempPeak := max h.tempPeak (Int.fdiv t 8) }

@[simp] theorem State.raise_health (s : State) (sag code object detail : Nat) (info : Word) :
    (s.raise sag code object detail info).health = s.health :=
  (congrArg State.health (s.raise_withoutEvents sag code object detail info) :)

/-- A record changes nothing of the health but the records (R387). -/
theorem State.record_keeps_temp (s : State) (kind cls cause logical phys detail loc : Nat) :
    (s.record kind cls cause logical phys detail loc).health.hot = s.health.hot ∧
      (s.record kind cls cause logical phys detail loc).health.overTemp = s.health.overTemp := by
  dsimp only [State.record]
  split <;> exact ⟨rfl, rfl⟩

@[simp] theorem State.tempEvent_hot (s : State) (detail : Nat) (t : Int) : (s.tempEvent detail t).health.hot = s.health.hot := by
  rw [State.tempEvent, (State.record_keeps_temp ..).1, State.raise_health]

@[simp] theorem State.tempEvent_overTemp (s : State) (detail : Nat) (t : Int) :
    (s.tempEvent detail t).health.overTemp = s.health.overTemp := by
  rw [State.tempEvent, (State.record_keeps_temp ..).2, State.raise_health]

@[simp] theorem State.tempEvent_gradeLimit (s : State) (detail : Nat) (t : Int) :
    (s.tempEvent detail t).gradeLimit = s.gradeLimit := by
  have hrecord : (s.tempEvent detail t).dev = (s.raise 0 0x0203 0 detail (BitVec.ofInt 32 t)).dev := by
    dsimp only [State.tempEvent, State.record]
    split <;> rfl
  have hraise := congrArg (fun u => u.dev.gradeX) (s.raise_withoutEvents 0 0x0203 0 detail (BitVec.ofInt 32 t))
  simp only [State.gradeLimit, hrecord]
  rw [show (s.raise 0 0x0203 0 detail (BitVec.ofInt 32 t)).dev.gradeX = s.dev.gradeX from hraise]

/-- HOT is set at TWARN (R389). -/
def State.heats (s : State) (warn t : Int) : State :=
  if !s.health.hot && decide (warn ≤ t) then (s.updHealth fun h => { h with hot := true }).tempEvent 0 t else s

/-- OVER is set at the grade's limit (R389). -/
def State.overheats (s : State) (t : Int) : State :=
  if !s.health.overTemp && decide (s.gradeLimit ≤ t) then (s.updHealth fun h => { h with overTemp := true }).tempEvent 1 t
  else s

/-- Both are cleared 2 °C under the lowest threshold of those that are set (R389). -/
def State.cools (s : State) (warn t : Int) : State :=
  let low := if s.health.hot && s.health.overTemp then min warn s.gradeLimit else if s.health.hot then warn else s.gradeLimit
  if (s.health.hot || s.health.overTemp) && decide (t ≤ low - 16) then
    (s.updHealth fun h => { h with hot := false, overTemp := false }).tempEvent 2 t
  else s

/-- A reading is recorded, then judged against the thresholds (R389). -/
theorem exec_temp {s : State} {t : Int} (hp : s.power.porst = false) (hwf : Instr.wf (.temp t) = true) :
    exec (.temp t) s = .next (finish s
      ((((s.takeTemp t).heats (8 * s.health.twarn) t).overheats t).cools (8 * s.health.twarn) t)) := by
  dsimp only [exec, execTemp]
  rw [act_up hwf hp]
  rfl

section Thresholds

variable {s : State} {warn t : Int}

theorem State.heats_not (h : s.health.hot = true ∨ t < warn) : s.heats warn t = s := by
  refine if_neg ?_
  obtain h | h := h <;> simp [h]

theorem State.heats_at (hcold : s.health.hot = false) (h : warn ≤ t) :
    s.heats warn t = (s.updHealth fun h => { h with hot := true }).tempEvent 0 t := if_pos (by simp [hcold, h])

theorem State.overheats_not (h : t < s.gradeLimit) : s.overheats t = s := if_neg (by simp [h])

theorem State.overheats_at (hunder : s.health.overTemp = false) (h : s.gradeLimit ≤ t) :
    s.overheats t = (s.updHealth fun h => { h with overTemp := true }).tempEvent 1 t := if_pos (by simp [hunder, h])

theorem State.cools_not_cold (hhot : s.health.hot = false) (hover : s.health.overTemp = false) : s.cools warn t = s := by
  simp [State.cools, hhot, hover]

theorem State.cools_not_hot (hhot : s.health.hot = true) (hover : s.health.overTemp = false) (h : warn ≤ t) :
    s.cools warn t = s := by
  have hwarm : ¬ t ≤ warn - 16 := by omega
  simp [State.cools, hhot, hover, hwarm]

theorem State.cools_not_over (hhot : s.health.hot = false) (hover : s.health.overTemp = true) (h : s.gradeLimit ≤ t) :
    s.cools warn t = s := by
  have hwarm : ¬ t ≤ s.gradeLimit - 16 := by omega
  simp [State.cools, hhot, hover, hwarm]

theorem State.cools_from_hot (hhot : s.health.hot = true) (hover : s.health.overTemp = false) (h : t ≤ warn - 16) :
    s.cools warn t = (s.updHealth fun h => { h with hot := false, overTemp := false }).tempEvent 2 t := by
  simp [State.cools, hhot, hover, h]

end Thresholds

/-- VOLT records the rail and reports its going out of its window and its return (R390). -/
theorem exec_volt {s u : State} {r mv lo hi : Nat} {out : Bool} (hp : s.power.porst = false)
    (hwf : Instr.wf (.volt r mv) = true) (hwindow : railWindow r = (lo, hi)) (hout : out = decide (mv < lo ∨ hi < mv))
    (hu : u = s.updHealth fun h =>
      { h with
        rails := h.rails.set 0 r mv, vout := setBit h.vout r out
        vflt := if out && !bit s.health.vout r then setBit h.vflt r true else h.vflt }) :
    exec (.volt r mv) s = .next (finish s
      (if out && !bit s.health.vout r then u.voltEvent r (if mv < lo then 0 else 1) mv
      else if bit s.health.vout r && !out then u.voltEvent r 2 mv else u)) := by
  subst hout hu
  dsimp only [exec, execVolt]
  rw [act_up hwf hp, hwindow]

/-- REPAIR_RECORD_WRITE of the oldest record while no record's write is under way (R387). -/
theorem exec_repairRecordWrite_oldest {s : State} {r : List Byte} {l : List (List Byte)} (hp : s.power.porst = false)
    (hbuf : s.health.recBuf = r :: l) (hnone : (s.jrn.jobs.all fun j => j.who != .record) = true) :
    exec .repairRecordWrite s = .next (finish s ((s.tick1.updJrn fun j =>
      { j with
        nextJob := j.nextJob + 1
        jobs := j.jobs ++ [{
          id := j.nextJob, who := .record, sag := 0, rank := 2, opc := 0, nsid := 0, folio := recordFolio (leAt r 0 4)
          nfol := 1, total := 1, ready := true, seq := s.tick1.serial, found := none }] }).jrnWork)) := by
  dsimp only [exec, execRepairRecordWrite]
  rw [act_up rfl hp, hbuf]
  dsimp only
  rw [State.ownJob_joins 2 0 0 _ none hnone]

/-- Settles O45: a reading crosses at most the threshold that each clause names. -/
theorem healthMeasurements : Obligations.Health_measurements := by
  refine ⟨?normal, ?warns, ?clears, ?limit, ?volt, ?record⟩
  case normal =>
    intro s t u hp hwf hhot hover hu hwarn hlimit
    rw [exec_temp hp hwf, State.takeTemp, ← hu, State.heats_not (.inr hwarn), State.overheats_not (by rw [hu]; exact hlimit),
      State.cools_not_cold (by rw [hu]; exact hhot) (by rw [hu]; exact hover)]
  case warns =>
    intro s t u hp hwf hhot hover hu hwarn hlimit
    have hhotU : u.health.hot = false := by rw [hu]; exact hhot
    have hoverU : u.health.overTemp = false := by rw [hu]; exact hover
    have hlimitU : t < u.gradeLimit := by rw [hu]; exact hlimit
    rw [exec_temp hp hwf, State.takeTemp, ← hu, State.heats_at hhotU hwarn,
      State.overheats_not (by rw [State.tempEvent_gradeLimit]; exact hlimitU),
      State.cools_not_hot (by simp) (by simpa using hoverU) hwarn]
  case clears =>
    intro s t u hp hwf hhot hover hu hwarn hlimit
    have hhotU : u.health.hot = true := by rw [hu]; exact hhot
    have hoverU : u.health.overTemp = false := by rw [hu]; exact hover
    have hlimitU : t < u.gradeLimit := by rw [hu]; exact hlimit
    rw [exec_temp hp hwf, State.takeTemp, ← hu, State.heats_not (.inl hhotU), State.overheats_not hlimitU,
      State.cools_from_hot hhotU hoverU hwarn]
  case limit =>
    intro s t u hp hwf hhot hover hu hwarn hlimit
    have hhotU : u.health.hot = false := by rw [hu]; exact hhot
    have hoverU : u.health.overTemp = false := by rw [hu]; exact hover
    have hlimitU : u.gradeLimit ≤ t := by rw [hu]; exact hlimit
    rw [exec_temp hp hwf, State.takeTemp, ← hu, State.heats_not (.inr hwarn), State.overheats_at hoverU hlimitU,
      State.cools_not_over (by simpa using hhotU) (by simp) (by rw [State.tempEvent_gradeLimit]; exact hlimitU)]
  case volt =>
    intro s r mv lo hi out u hp hwf hwindow hout hu
    exact exec_volt hp hwf hwindow hout hu
  case record =>
    intro s r l hp hbuf hnone
    exact exec_repairRecordWrite_oldest hp hbuf hnone

end Sys2Proof.Machine

/-! ## Proofs of the statements about the host attachments -/

namespace Sys2Proof.Machine

/-! ### The requests of the slim host port that answer at once (R384, R444 to R447, R449) -/

section SlimRequest

variable {s t : State} {req a : List Byte} (hp : s.power.porst = false) (hen : s.shp.en = true)
  (hlen : shpLength req = some req.length) (hcrc : crc8 req.dropLast = req.getLastD 0)
  (ht : t = s.updShp fun p => { p with response := [] }) (ha : a = (req.drop 1).dropLast)

include hp hen hlen hcrc ht ha

/-- A good request's command acts on its parameters, with the earlier response gone. -/
theorem act_shpCommand_good {i : Instr} {cmd : Nat} {f : State → List Byte → State} (hi : i.wf = true)
    (hcmd : leAt req 0 1 = cmd) : act i s (fun u => u.shpCommand cmd req f) = .next (finish s (f t a)) := by
  rw [act_up hi hp, State.shpCommand_good ht hen hcmd hlen hcrc ha]

/-- A good request to a port that is ACTIVE acts on its saggar. -/
theorem act_shpServing_good {i : Instr} {cmd : Nat} {f : List Byte → State → State} (hi : i.wf = true)
    (hcmd : leAt req 0 1 = cmd) (hactive : s.shp.active = true) :
    act i s (fun u => u.shpCommand cmd req fun u a => u.shpServing (f a)) = .next (finish s (f a t)) := by
  rw [act_shpCommand_good hp hen hlen hcrc ht ha hi hcmd, State.shpServing_active ht hactive]

end SlimRequest

/-- Settles O48: a good request acts by its command, and the premises of each clause are what that command checks. -/
theorem slimPortRequests : Obligations.Slim_port_requests := by
  refine ⟨?status, ?submit, ?complete, ?events, ?write, ?read, ?heartbeat, ?identify⟩
  case status =>
    intro s req t a hp hen hcmd hlen hcrc ht ha
    dsimp only [exec, execShpStatus]
    rw [act_shpCommand_good hp hen hlen hcrc ht ha rfl hcmd]
  case submit =>
    intro s req t a hp hen hcmd hlen hcrc ht ha hactive herror htag hfree hqreset
    dsimp only [exec, execShpSubmit]
    rw [act_shpServing_good hp hen hlen hcrc ht ha rfl hcmd hactive, if_neg (by simp [herror]),
      if_neg (Nat.not_lt.mpr htag), if_neg (by rw [hfree]; decide), if_neg (by simp [hqreset])]
  case complete =>
    intro s req t a hp hen hcmd hlen hcrc ht ha hmin hmax
    dsimp only [exec, execShpComplete]
    rw [act_shpCommand_good hp hen hlen hcrc ht ha rfl hcmd, if_neg (by simp [Nat.ne_of_gt hmin, hmax])]
  case events =>
    intro s req t a hp hen hcmd hlen hcrc ht ha hactive hmin hmax
    have hactiveT : t.shp.active = true := by rw [ht]; exact hactive
    dsimp only [exec, execShpEvents]
    rw [act_shpCommand_good hp hen hlen hcrc ht ha rfl hcmd, if_neg (by simp [Nat.ne_of_gt hmin, hmax]),
      if_pos (by simpa using hactiveT)]
    rfl
  case write =>
    intro s req t a hp hen hcmd hlen hcrc ht ha hactive hrange
    dsimp only [exec, execLsWrite]
    rw [act_shpServing_good hp hen hlen hcrc ht ha rfl hcmd hactive, hrange]
  case read =>
    intro s req t a hp hen hcmd hlen hcrc ht ha hactive hrange hclean
    dsimp only [exec, execLsRead]
    rw [act_shpServing_good hp hen hlen hcrc ht ha rfl hcmd hactive, hrange]
    dsimp only
    rw [if_neg (by simp [hclean])]
  case heartbeat =>
    intro s req t a hp hen hcmd hlen hcrc ht ha hactive
    dsimp only [exec, execShpHeartbeat]
    rw [act_shpServing_good hp hen hlen hcrc ht ha rfl hcmd hactive]
  case identify =>
    intro s req t a hp hen hcmd hlen hcrc ht ha hactive
    dsimp only [exec, execShpIdentify]
    rw [act_shpServing_good hp hen hlen hcrc ht ha rfl hcmd hactive]

/-! ### The events of PCI Express (R433, R434, R435, R438) -/

/-- A malformed packet, or one with an ECRC error or unsupported, with its bit of the AER status. -/
def aerTable : List (BadTlp × Nat) := [(.malformed, 18), (.ecrc, 19), (.unsupported, 20)]

/-- A bad packet of the table is recorded in every enabled function. -/
theorem exec_malformedTlp_table {s : State} {t : BadTlp} {k : Nat} (hp : s.power.porst = false)
    (hlink : s.pcie.linkUp = true) (ht : (t, k) ∈ aerTable) :
    exec (.malformedTlp t) s = .next (finish s (s.enabledFns.foldl (fun s f => s.aer f k) s)) := by
  simp only [aerTable, List.mem_cons, Prod.mk.injEq, List.not_mem_nil, or_false] at ht
  dsimp only [exec, execMalformedTlp]
  obtain ⟨rfl, rfl⟩ | ⟨rfl, rfl⟩ | ⟨rfl, rfl⟩ := ht <;> rw [act_up rfl hp, if_neg (by simp [hlink])]

/-- Settles O47: the premises of each clause are its command's guards. -/
theorem pciExpressEvents : Obligations.Pci_express_events := by
  refine ⟨?perst, ?perstRelease, ?down, ?up, ?flr, ?d3, ?vfs, ?early, ?read, ?write, ?malformed, ?poisoned⟩
  case perst =>
    intro s hpin hp
    dsimp only [exec, execPePerstNAssert, always]
    rw [if_neg (by simp [hpin]), if_neg (by simp [hp])]
  case perstRelease =>
    intro s
    rfl
  case down =>
    intro s hp hlink
    dsimp only [exec, execDlDown]
    rw [act_up rfl hp, if_neg (by simp [hlink])]
  case up =>
    intro s hp hpin
    dsimp only [exec, execDlUp]
    rw [act_up rfl hp, if_neg (by simp [hpin])]
  case flr =>
    intro s f hp hf hon hready
    dsimp only [exec, execFlr]
    rw [act_numbered rfl hf hp, if_pos (by simp [hon, hready])]
  case d3 =>
    intro s f hp hf hon hready hd0
    dsimp only [exec, execD3hot]
    rw [act_numbered rfl hf hp, if_pos (by simp [hon, hready, hd0]), State.enterD3]
  case vfs =>
    intro s n b hp hn hlink hready
    dsimp only [exec, execVfEnable]
    rw [act_numbered rfl hn hp, if_pos (by simp [hlink, hready])]
  case early =>
    intro s r hp hwf hlink hready
    dsimp only [exec, execConfigRequest]
    rw [act_up hwf hp, if_neg (by simp [hlink]), if_pos (by simp [hready])]
  case read =>
    intro s f o hp hwf hlink hready
    dsimp only [exec, execConfigRequest]
    rw [act_up hwf hp, if_neg (by simp [hlink]), if_neg (by simp [hready])]
  case write =>
    intro s f o w hp hwf hlink hready hon
    refine ⟨_, rfl, ?_⟩
    dsimp only [exec, execConfigRequest]
    rw [act_up hwf hp, if_neg (by simp [hlink]), if_neg (by simp [hready]), if_pos hon]
  case malformed =>
    intro s t k hp _ hlink ht
    exact exec_malformedTlp_table hp hlink ht
  case poisoned =>
    intro s f hp hf hlink hbar
    dsimp only [exec, execMalformedTlp]
    rw [act_numbered rfl hf hp, if_neg (by simp [hlink]), if_pos hbar]

end Sys2Proof.Machine

/-! ## What programs, queues and ports leave of the link -/

namespace Sys2Proof.Machine

/-! ### The link but for its traffic -/

/-- The link but for its traffic: what is queued to leave, what runs for other nodes and what is counted of each. -/
def Lnk.settled (l : Lnk) : Lnk := { l with peers := [], outA := [], outB := [], remotes := [], mailOut := [], seqs := [] }

/-- What each step of a fold leaves as it was, the fold leaves as it was. -/
theorem foldl_keeps {α β : Type} (g : State → β) {f : State → α → State} (hf : ∀ s x, g (f s x) = g s) (l : List α)
    (s : State) : g (l.foldl f s) = g s := by
  induction l generalizing s with
  | nil => rfl
  | cons x l ih => exact (ih _).trans (hf s x)

@[simp] theorem foldl_lnk {α : Type} {f : State → α → State} (hf : ∀ s x, (f s x).lnk = s.lnk) (l : List α) (s : State) :
    (l.foldl f s).lnk = s.lnk := foldl_keeps State.lnk hf l s

@[simp] theorem foldl_settled {α : Type} {f : State → α → State} (hf : ∀ s x, (f s x).lnk.settled = s.lnk.settled)
    (l : List α) (s : State) : (l.foldl f s).lnk.settled = s.lnk.settled := foldl_keeps (fun t => t.lnk.settled) hf l s

/-- The link of a state that is picked by a condition is picked by it. -/
@[simp] theorem State.lnk_ite (c : Prop) [Decidable c] (s t : State) :
    (if c then s else t).lnk = if c then s.lnk else t.lnk := apply_ite State.lnk c s t

@[simp] theorem Lnk.settled_ite (c : Prop) [Decidable c] (l m : Lnk) :
    (if c then l else m).settled = if c then l.settled else m.settled := apply_ite Lnk.settled c l m

theorem ite_settled {c : Prop} [Decidable c] {a b s : State} (ha : a.lnk.settled = s.lnk.settled)
    (hb : b.lnk.settled = s.lnk.settled) : (if c then a else b).lnk.settled = s.lnk.settled := by
  split
  · exact ha
  · exact hb

/-! ### The host and the events -/

@[simp] theorem State.hostWrite_lnk (s : State) (fn : Nat) (addr : DWord) (bs : List Byte) :
    (s.hostWrite fn addr bs).lnk = s.lnk := by simp [State.hostWrite]

@[simp] theorem State.sendMsix_lnk (s : State) (fn vec : Nat) :
    (s.sendMsix fn vec).lnk = s.lnk := by simp [State.sendMsix]

@[simp] theorem State.evqPut_lnk (s : State) (fn : Nat) (e : Evt) :
    (s.evqPut fn e).lnk = s.lnk := by simp [State.evqPut]

@[simp] theorem State.evqWrite_lnk (s : State) (sag : Nat) (e : Evt) :
    (s.evqWrite sag e).lnk = s.lnk := by simp [State.evqWrite]

@[simp] theorem State.pend_lnk (s : State) (i : Nat) : (s.pend i).lnk = s.lnk := rfl

@[simp] theorem State.pushCause_lnk (s : State) (code object detail saggar : Nat) (info : Word) :
    (s.pushCause code object detail saggar info).lnk = s.lnk := by simp [State.pushCause]

@[simp] theorem State.raise_lnk (s : State) (sag code object detail : Nat) (info : Word) :
    (s.raise sag code object detail info).lnk = s.lnk := by simp [State.raise]

@[simp] theorem State.raiseF_lnk (s : State) (sag code object detail : Nat) :
    (s.raiseF sag code object detail).lnk = s.lnk := by simp [State.raiseF]

/-! ### Programs, the local store and the queues -/

@[simp] theorem State.endSpan_lnk (s : State) (n : Nat) : (s.endSpan n).lnk = s.lnk := by
  dsimp only [State.endSpan]
  split <;> simp

@[simp] theorem State.dropGrants_lnk (s : State) (n : Nat) : (s.dropGrants n).lnk = s.lnk := rfl

@[simp] theorem State.endReqs_lnk (s : State) (n : Nat) : (s.endReqs n).lnk = s.lnk := rfl

@[simp] theorem State.unpoison_lnk (s : State) (sag off len : Nat) :
    (s.unpoison sag off len).lnk = s.lnk := by simp [State.unpoison]

@[simp] theorem State.physSet_lnk (s : State) (a : Nat) (b : Byte) : (s.physSet a b).lnk = s.lnk := rfl

@[simp] theorem State.lsPut_lnk (s : State) (sag off : Nat) (bs : List Byte) : (s.lsPut sag off bs).lnk = s.lnk := by
  induction bs generalizing s off with
  | nil => rfl
  | cons b rest ih =>
    dsimp only [State.lsPut]
    split <;> simp [ih]

@[simp] theorem State.lsWrite_lnk (s : State) (sag off : Nat) (bs : List Byte) :
    (s.lsWrite sag off bs).lnk = s.lnk := by simp [State.lsWrite]

@[simp] theorem State.memWrite_lnk (s : State) (sag : Nat) (a : DWord) (bs : List Byte) :
    (s.memWrite sag a bs).lnk = s.lnk := by simp [State.memWrite]

@[simp] theorem State.putStatus_lnk (s : State) (sag : Nat) (a : DWord) (bs : List Byte) :
    (s.putStatus sag a bs).lnk = s.lnk := by simp [State.putStatus]

@[simp] theorem State.post_lnk (s : State) (n : Nat) (st : Status) (stateNum : Nat) (final : Bool) :
    (s.post n st stateNum final).lnk = s.lnk := by simp [State.post]

@[simp] theorem State.setEntries_lnk (s : State) (q : QRef) (es : List Entry) : (s.setEntries q es).lnk = s.lnk := by
  dsimp only [State.setEntries]
  (repeat' split) <;> rfl

@[simp] theorem State.updEntry_lnk (s : State) (q : QRef) (eid : Nat) (f : Entry → Entry) :
    (s.updEntry q eid f).lnk = s.lnk := by simp [State.updEntry]

@[simp] theorem State.cqMessage_lnk (s : State) (n : Nat) : (s.cqMessage n).lnk = s.lnk := by simp [State.cqMessage]

@[simp] theorem State.afterCqe_lnk (s : State) (fn : Nat) (c : Cqe) : (s.afterCqe fn c).lnk = s.lnk := by
  dsimp only [State.afterCqe]
  split <;> simp

@[simp] theorem State.cqWrite_lnk (s : State) (n : Nat) (c : Cqe) :
    (s.cqWrite n c).lnk = s.lnk := by simp [State.cqWrite]

@[simp] theorem State.cqPut_lnk (s : State) (n : Nat) (c : Cqe) : (s.cqPut n c).lnk = s.lnk := by simp [State.cqPut]

@[simp] theorem State.putGroup_lnk (s : State) (n : Nat) (g : List Entry) : (s.putGroup n g).lnk = s.lnk := by
  dsimp only [State.putGroup]
  split <;> simp

@[simp] theorem State.coverRest_lnk (s : State) (n : Nat) : (s.coverRest n).lnk = s.lnk := by simp [State.coverRest]

@[simp] theorem State.releaseG_settled (s : State) (q : QRef) : (s.releaseG q).lnk.settled = s.lnk.settled := rfl

@[simp] theorem State.unreserve_lnk (s : State) (q : QRef) : (s.unreserve q).lnk = s.lnk := by
  refine foldl_lnk (fun t k => ?_) _ s
  rfl

@[simp] theorem State.freeSq_settled (s : State) (n : Nat) :
    (s.freeSq n).lnk.settled = s.lnk.settled := by simp [State.freeSq]

@[simp] theorem State.evqOverflow_lnk (s : State) (sag : Nat) :
    (s.evqOverflow sag).lnk = s.lnk := by simp [State.evqOverflow]

@[simp] theorem State.setPage_lnk (s : State) (p : Nat) (x : PageState) : (s.setPage p x).lnk = s.lnk := rfl

@[simp] theorem State.mapPages_lnk (s : State) (sag first : Nat) (ps : List Nat) :
    (s.mapPages sag first ps).lnk = s.lnk := by simp [State.mapPages]

@[simp] theorem State.afterAdmin_settled (s : State) (fn : Nat) (f : Fn) (st : Status) :
    (s.afterAdmin fn f st).lnk.settled = s.lnk.settled := by simp [State.afterAdmin]

@[simp] theorem State.admWrite_settled (s : State) (fn : Nat) (c : Cqe) :
    (s.admWrite fn c).lnk.settled = s.lnk.settled := by simp [State.admWrite]

@[simp] theorem State.admDone_settled (s : State) (fn : Nat) (st : Status) (info : Word) :
    (s.admDone fn st info).lnk.settled = s.lnk.settled := by simp [State.admDone]

@[simp] theorem State.resetCheck_settled (s : State) (n : Nat) :
    (s.resetCheck n).lnk.settled = s.lnk.settled := by simp [State.resetCheck]

@[simp] theorem State.sqFlushCore_lnk (s : State) (n : Nat) :
    (s.sqFlushCore n).lnk = s.lnk := by simp [State.sqFlushCore]

@[simp] theorem State.sqFlush_settled (s : State) (n : Nat) :
    (s.sqFlush n).lnk.settled = s.lnk.settled := by simp [State.sqFlush]

@[simp] theorem State.shpFlush_lnk (s : State) : (s.shpFlush).lnk = s.lnk := rfl

@[simp] theorem State.endEntry_settled (s : State) (q : QRef) (eid : Nat) (st : Status) :
    (s.endEntry q eid st).lnk.settled = s.lnk.settled := by
  dsimp only [State.endEntry]
  split <;> simp

@[simp] theorem State.autoCheck_settled (s : State) (q : QRef) : (s.autoCheck q).lnk.settled = s.lnk.settled := by
  dsimp only [State.autoCheck]
  (repeat' split) <;> simp

@[simp] theorem State.endHalts_settled (s : State) (q : QRef) (n : Nat) :
    (s.endHalts q n).lnk.settled = s.lnk.settled := by simp [State.endHalts]

@[simp] theorem State.progEndCore_settled (s : State) (n : Nat) (st : Status) :
    (s.progEndCore n st).lnk.settled = s.lnk.settled := by
  dsimp only [State.progEndCore]
  (repeat' split) <;> simp

/-! ### The words of a program -/

@[simp] theorem State.hostRead_lnk (s : State) (fn : Nat) (a : DWord) (len : Nat) (who : Reader) :
    (s.hostRead fn a len who).lnk = s.lnk := rfl

@[simp] theorem State.goto_lnk (s : State) (n : Nat) (pc : Pc) : (s.goto n pc).lnk = s.lnk := by
  dsimp only [State.goto]
  split <;> simp

@[simp] theorem State.ccwDoneCore_settled (s : State) (n : Nat) (c : Ccw) (st : Status) (next : Pc) :
    (s.ccwDoneCore n c st next).lnk.settled = s.lnk.settled := by simp [State.ccwDoneCore]

@[simp] theorem State.updOp_lnk (s : State) (n : Nat) (f : PortOp → PortOp) : (s.updOp n f).lnk = s.lnk := rfl

@[simp] theorem State.granted_settled (s : State) (p n : Nat) : (s.granted p n).lnk.settled = s.lnk.settled := by
  dsimp only [State.granted]
  (repeat' split) <;> simp

@[simp] theorem State.wakeHolders_settled (s : State) : s.wakeHolders.lnk.settled = s.lnk.settled := by
  refine foldl_settled (fun t e => ?_) _ s
  split <;> simp

/-! ### Claims -/

@[simp] theorem State.raiseReq_lnk (s : State) (g k : Nat) : (s.raiseReq g k).lnk = s.lnk := rfl

@[simp] theorem State.reRequest_settled (s : State) : s.reRequest.lnk.settled = s.lnk.settled := by
  refine foldl_settled (fun t e => ?_) _ s
  (repeat' split) <;> simp

theorem State.grantFree_lnk {s t : State} {grace p n : Nat} (h : s.grantFree grace = some (p, n, t)) : t.lnk = s.lnk := by
  dsimp only [State.grantFree] at h
  split at h
  · cases h
  · split at h
    · cases h
      rfl
    · cases h

@[simp] theorem State.grantAll_settled (s : State) (k : Nat) : (s.grantAll k).lnk.settled = s.lnk.settled := by
  induction k generalizing s with
  | zero => rfl
  | succ k ih =>
    dsimp only [State.grantAll]
    split
    next p n t h => rw [ih, State.granted_settled, State.grantFree_lnk h]
    next => rfl

/-! ### The ports -/

@[simp] theorem State.remoteBegins_settled (s : State) (n : Nat) : (s.remoteBegins n).lnk.settled = s.lnk.settled := by
  dsimp only [State.remoteBegins]
  split <;> rfl

@[simp] theorem State.addEstat_lnk (s : State) (p : Nat) (d : BitVec 16) :
    (s.addEstat p d).lnk = s.lnk := by simp [State.addEstat]

@[simp] theorem State.encSettle_lnk (s : State) (i : Nat) : (s.encSettle i).lnk = s.lnk := by simp [State.encSettle]

@[simp] theorem State.zeroOnChange_lnk (s : State) (p sag : Nat) :
    (s.zeroOnChange p sag).lnk = s.lnk := by simp [State.zeroOnChange]

@[simp] theorem State.sampleReqs_lnk (s : State) (p n : Nat) : (s.sampleReqs p n).lnk = s.lnk := by
  dsimp only [State.sampleReqs]
  split <;> simp

@[simp] theorem State.storePieces_lnk (s : State) (sag : Nat) (ps : List (DWord × Nat)) (k : Nat) (bs : List Byte) :
    (s.storePieces sag ps k bs).lnk = s.lnk := by
  induction ps generalizing s k bs with
  | nil => rfl
  | cons piece rest ih =>
    dsimp only [State.storePieces]
    (repeat' split) <;> simp [ih]

@[simp] theorem State.clearSince_lnk (s : State) (n p : Nat) :
    (s.clearSince n p).lnk = s.lnk := by simp [State.clearSince]

@[simp] theorem State.sendMsg_settled (s : State) (rank : Nat) (lane : Lane) (cells : List Cell) :
    (s.sendMsg rank lane cells).lnk.settled = s.lnk.settled := by
  dsimp only [State.sendMsg]
  (repeat' split) <;> rfl

@[simp] theorem State.sendRsp_settled (s : State) (src tag cls : Nat) (st : Status) (dstat : BitVec 16)
    (residual : Word) (frame : Word) (data : List Byte) :
    (s.sendRsp src tag cls st dstat residual frame data).lnk.settled = s.lnk.settled := by simp [State.sendRsp]

@[simp] theorem State.endRemote_settled (s : State) (n : Nat) (st : Status) (dstat : BitVec 16)
    (residual : Word) (data : List Byte) :
    (s.endRemote n st dstat residual data).lnk.settled = s.lnk.settled := by
  dsimp only [State.endRemote]
  split
  · rfl
  next r _ => exact State.sendRsp_settled s r.src r.tag r.cls st dstat residual r.frame data

@[simp] theorem State.closeOp_settled (s : State) (n : Nat) (o : PortOp) (forced : Option Status) :
    (s.closeOp n o forced).2.lnk.settled = s.lnk.settled := by
  dsimp only [State.closeOp]
  split <;> simp

@[simp] theorem State.clearBreak_lnk (s : State) (p : Nat) : (s.clearBreak p).lnk = s.lnk := rfl

@[simp] theorem State.sendChars_lnk (s : State) (p k setup : Nat) (more : Bool) :
    (s.sendChars p k setup more).lnk = s.lnk := rfl

@[simp] theorem State.sendWaiting_lnk (s : State) (p : Nat) :
    (s.sendWaiting p).lnk = s.lnk := by simp [State.sendWaiting]

@[simp] theorem State.freeLine_lnk (s : State) (p : Nat) : (s.freeLine p).lnk = s.lnk := by
  dsimp only [State.freeLine]
  split <;> simp

@[simp] theorem State.liveCheck_lnk (s : State) (p : Nat) : (s.liveCheck p).lnk = s.lnk := by
  dsimp only [State.liveCheck]
  (repeat' split) <;> rfl

@[simp] theorem State.breakPoint_lnk (s : State) (p n : Nat) : (s.breakPoint p n).2.lnk = s.lnk := by
  dsimp only [State.breakPoint]
  (repeat' split) <;> rfl

@[simp] theorem State.opBreak_lnk (s : State) (n : Nat) (o : PortOp) :
    (s.opBreak n o).lnk = s.lnk := by simp [State.opBreak]

@[simp] theorem State.opDone_settled (s : State) (n : Nat) (o : PortOp) (st : Status) :
    (s.opDone n o st).lnk.settled = s.lnk.settled := by simp [State.opDone]

@[simp] theorem State.endOp_settled (s : State) (n : Nat) (o : PortOp) (forced : Option Status) :
    (s.endOp n o forced).lnk.settled = s.lnk.settled := by simp [State.endOp]

@[simp] theorem State.charge_lnk (s : State) (n wu : Nat) : (s.charge n wu).lnk = s.lnk := by simp [State.charge]

@[simp] theorem State.readElement_lnk (s : State) (n : Nat) (o : PortOp) (a : DWord) :
    (s.readElement n o a).lnk = s.lnk := by
  dsimp only [State.readElement]
  (repeat' split) <;> simp

@[simp] theorem State.cover_lnk (n k f : Nat) (s : State) : (State.cover n k f s).lnk = s.lnk := by
  induction f generalizing s with
  | zero => rfl
  | succ f ih =>
    dsimp only [State.cover]
    (repeat' split) <;> simp [ih]

@[simp] theorem State.coverRx_lnk (s : State) (n : Nat) : (s.coverRx n).lnk = s.lnk := by
  dsimp only [State.coverRx]
  split <;> simp

@[simp] theorem State.rxDone_settled (s : State) (n : Nat) (o : PortOp) :
    (s.rxDone n o).lnk.settled = s.lnk.settled := by
  dsimp only [State.rxDone]
  split <;> simp

@[simp] theorem State.safeEvent_lnk (s : State) (code cause : Nat) (ports : List Nat) (except : Option Nat) :
    (s.safeEvent code cause ports except).lnk = s.lnk := by simp [State.safeEvent]

@[simp] theorem State.receiveEnds_lnk (s : State) (n p : Nat) (extra : BitVec 16) :
    (s.receiveEnds n p extra).lnk = s.lnk := by simp [State.receiveEnds]

@[simp] theorem State.countReached_settled (s : State) (n p : Nat) (o : PortOp) :
    (s.countReached n p o).lnk.settled = s.lnk.settled := by simp [State.countReached]

@[simp] theorem State.rxStored_settled (s : State) (n p : Nat) : (s.rxStored n p).lnk.settled = s.lnk.settled := by
  dsimp only [State.rxStored]
  split <;> simp

@[simp] theorem State.setOverrun_lnk (s : State) (p fifo : Nat) (b : Bool) : (s.setOverrun p fifo b).lnk = s.lnk := by
  dsimp only [State.setOverrun]
  split
  · rfl
  · split
    · rfl
    · split
      · rfl
      · refine foldl_lnk (fun t e => ?_) _ s
        (repeat' split) <;> simp

@[simp] theorem State.popLate_lnk (s : State) (p fifo : Nat) : (s.popLate p fifo).lnk = s.lnk := by
  dsimp only [State.popLate]
  split <;> simp

@[simp] theorem State.takeRx_lnk (s : State) (n p : Nat) : (s.takeRx n p).lnk = s.lnk := by
  dsimp only [State.takeRx]
  split <;> simp

@[simp] theorem State.beginRead_settled (s : State) (n p : Nat) :
    (s.beginRead n p).lnk.settled = s.lnk.settled := by simp [State.beginRead]

@[simp] theorem State.readRecord_settled (s : State) (n p : Nat) (o : PortOp) :
    (s.readRecord n p o).lnk.settled = s.lnk.settled := by
  dsimp only [State.readRecord]
  split <;> simp

@[simp] theorem State.prepTx_lnk (n f : Nat) (s : State) : (State.prepTx n f s).lnk = s.lnk := by
  induction f generalizing s with
  | zero => rfl
  | succ f ih =>
    dsimp only [State.prepTx]
    (repeat' split) <;> simp [ih]

@[simp] theorem State.beginWrite_settled (s : State) (n p : Nat) (o : PortOp) :
    (s.beginWrite n p o).lnk.settled = s.lnk.settled := by simp [State.beginWrite]

@[simp] theorem State.beginExchange_settled (s : State) (n p : Nat) (o : PortOp) :
    (s.beginExchange n p o).lnk.settled = s.lnk.settled := by simp [State.beginExchange]

@[simp] theorem State.putRecord_lnk (s : State) (n p : Nat) (r : List Byte) (brk : Bool) :
    (s.putRecord n p r brk).2.2.lnk = s.lnk := by
  dsimp only [State.putRecord]
  (repeat' split) <;> rfl

@[simp] theorem State.beginLine_settled (s : State) (n : Nat) (o : PortOp) :
    (s.beginLine n o).lnk.settled = s.lnk.settled := by simp [State.beginLine]

/-- The state in which a port's operation is judged: a request of another node has begun, an encoder's count is settled and a
buffer that changes its saggar is zeroed (R178, R357). -/
def State.opReadied (s : State) (n : Nat) (o : PortOp) : State :=
  let s := s.remoteBegins n
  let s := if portKind o.port = 6 then s.encSettle (o.port - 0x80) else s
  if o.port = 0x1FF || portKind o.port = 8 || portKind o.port = 9 then s else s.zeroOnChange o.port (s.opSag n)

@[simp] theorem State.opReadied_settled (s : State) (n : Nat) (o : PortOp) :
    (s.opReadied n o).lnk.settled = s.lnk.settled := by
  simp [State.opReadied]

@[simp] theorem State.beginOp_settled (s : State) (n : Nat) (o : PortOp) : (s.beginOp n o).lnk.settled = s.lnk.settled := by
  rw [← State.opReadied_settled s n o]
  dsimp only [State.beginOp, State.opReadied]
  generalize (if (o.port = 0x1FF || portKind o.port = 8 || portKind o.port = 9) = true then _ else _) = t
  refine ite_settled (by simp) (ite_settled (by simp) (ite_settled (by simp) (ite_settled (by simp) (ite_settled (by simp) ?_))))
  refine ite_settled (ite_settled (by simp) (by simp)) ?_
  split
  next => exact ite_settled (by simp) (by simp)
  next => simp

@[simp] theorem State.takeSegment_lnk (s : State) (p m t : Nat) : (s.takeSegment p m t).lnk = s.lnk := rfl

@[simp] theorem State.serve_settled (s : State) (p k : Nat) : (s.serve p k).lnk.settled = s.lnk.settled := by
  induction k generalizing s with
  | zero => rfl
  | succ k ih =>
    dsimp only [State.serve]
    (repeat' split) <;> simp [ih]

@[simp] theorem State.workRound_settled (s : State) :
    (s.workRound).lnk.settled = s.lnk.settled := by simp [State.workRound]

@[simp] theorem State.workRounds_settled (k : Nat) (s : State) : (State.workRounds k s).lnk.settled = s.lnk.settled := by
  induction k generalizing s with
  | zero => rfl
  | succ k ih =>
    dsimp only [State.workRounds]
    split <;> simp [ih]

/-! ### The starts and the rounds of work -/

@[simp] theorem State.launch_lnk (s : State) (n : Nat) : (s.launch n).lnk = s.lnk := by simp [State.launch]

@[simp] theorem State.startFired_lnk (s : State) : (s.startFired).lnk = s.lnk := by simp [State.startFired]

@[simp] theorem State.countDefer_lnk (s : State) (q : QRef) (cp d : Nat) : (s.countDefer q cp d).lnk = s.lnk := by
  dsimp only [State.countDefer]
  (repeat' split) <;> rfl

@[simp] theorem State.startOn_lnk (s : State) (q : QRef) (e : Entry) (n : Nat) :
    (s.startOn q e n).lnk = s.lnk := by simp [State.startOn]

@[simp] theorem State.tryStart_lnk (s : State) (q : QRef) (eid : Nat) : (s.tryStart q eid).lnk = s.lnk := by
  dsimp only [State.tryStart]
  (repeat' split) <;> simp

@[simp] theorem State.startWaiting_lnk (s : State) : (s.startWaiting).lnk = s.lnk := by simp [State.startWaiting]

@[simp] theorem State.work_settled (s : State) : (s.work).lnk.settled = s.lnk.settled := by simp [State.work]

@[simp] theorem State.ccwDone_settled (s : State) (n : Nat) (c : Ccw) (st : Status) (next : Pc) :
    (s.ccwDone n c st next).lnk.settled = s.lnk.settled := by simp [State.ccwDone]

@[simp] theorem State.ccwFail_settled (s : State) (n : Nat) (c : Ccw) (st : Status) :
    (s.ccwFail n c st).lnk.settled = s.lnk.settled := by simp [State.ccwFail]

/-! ### The end of remote work -/

@[simp] theorem State.endRemotes_settled (s : State) : s.endRemotes.lnk.settled = s.lnk.settled := by
  refine foldl_settled (fun t e => ?_) _ s
  split <;> simp

/-! ### The presence and the master -/

/-- A new presence changes nothing else of the settled link. -/
theorem State.setPres_settled (s : State) (new : BitVec 128) :
    (s.setPres new).lnk.settled = { s.lnk.settled with pres := new } := by
  dsimp only [State.setPres]
  split
  next h => subst h; rfl
  next =>
    rw [State.endRemotes_settled, foldl_settled]
    · rfl
    · intro t i
      (repeat' split) <;> simp

/-- The master that is followed already stays. -/
theorem State.setMaster_self {s : State} {m : Nat} (hvalid : s.lnk.masterValid = true) (hnode : s.lnk.masterNode = m) :
    s.setMaster m = s := by
  dsimp only [State.setMaster]
  exact if_pos (by simp [hvalid, hnode])

end Sys2Proof.Machine

/-! ## Proofs of the statements about the cells of the Uamond Link -/

namespace Sys2Proof.Machine

/-! ### Slots, elections, the self-start and images (R344, R352, R353, R363) -/

/-- The side that a lane's cells arrive on. -/
def arrivalSide : Lane → Side
  | .a => .west
  | .b => .east

/-- What leaves in a slot: the cell forwarded or, when none is, one of the node's own (R344). -/
def State.slotCell (s : State) (ln : Lane) (segment slot : Nat) : Option Cell → Option Cell × State
  | some c => (some c, s)
  | none => s.fillSlot ln segment slot

/-- The slot of a lane takes its cell. -/
def State.setSlotOut (s : State) (ln : Lane) (out : Option Cell) : State :=
  match ln with
  | .a => s.updLnk fun l => { l with slotOutA := out }
  | .b => s.updLnk fun l => { l with slotOutB := out }

section SlotStart

variable {s u v w : State} {ln : Lane} {g k : Nat} {i : SlotIn} {f : Side} {fwd out : Option Cell} (hp : s.power.porst = false)
  (hwf : Instr.wf (.slotStart ln g k i) = true) (hins : s.inserted = true) (hslot : k < s.nSeg) (hsegment : g < 16)
  (hf : f = arrivalSide ln)
  (hnewSegment : u = s.newSegment g)
  (hstrip : (if (u.lnk.side f).up then u.stripCell f i else (none, u)) = (fwd, v))
  (hfill : v.slotCell ln g k fwd = (out, w))
  (hexit : (w.lnk.side (otherSide f)).up = true)

include hp hwf hins hslot hsegment hf hnewSegment hstrip hfill hexit

/-- A slot whose exit is up carries the cell forwarded, or the one filled in. -/
theorem exec_slotStart :
    exec (.slotStart ln g k i) s = .next (finish s (w.setSlotOut ln out)) := by
  subst hnewSegment
  have hguard : ¬(!s.inserted || s.nSeg ≤ k || 16 ≤ g : Bool) = true := by simp [hins, hslot, hsegment]
  cases ln <;>
  · dsimp only [arrivalSide] at hf
    subst hf
    dsimp only [exec, execSlotStart, State.setSlotOut]
    rw [act_up hwf hp, if_neg hguard, hstrip]
    cases fwd with
    | some c =>
      obtain ⟨rfl, rfl⟩ := Prod.mk.inj hfill
      dsimp only
      rw [if_pos hexit]
    | none =>
      dsimp only [State.slotCell] at hfill ⊢
      rw [hfill, if_pos hexit]

end SlotStart

/-- An inserted node hears every ELECT SYNC. -/
theorem exec_election {s : State} {n : Nat} (hp : s.power.porst = false) (hwf : Instr.wf (.election n) = true)
    (hins : s.inserted = true) : exec (.election n) s = .next (finish s (s.electHeard n)) := by
  dsimp only [exec, execElection]
  rw [act_up hwf hp, if_pos hins]

/-- No SYNC has come for two periods. -/
def State.syncQuiet (s : State) : Bool :=
  match s.lnk.lastSync with
  | some t => decide (t + 2 * s.periodNs ≤ s.clk)
  | none => true

theorem exec_masterSelfStart {s : State} (hp : s.power.porst = false) (hins : s.inserted = true)
    (hmcap : s.lnk.mcap = true) (hsrc : s.kiln.src = 2) (hrun : s.kiln.run = true) (hidle : s.kiln.frameRuns = false)
    (hup : (s.lnk.east.up || s.lnk.west.up) = true) (hsince : s.lnk.runSince + 2 * s.periodNs ≤ s.clk)
    (hquiet : s.syncQuiet = true) :
    exec .masterSelfStart s = .next (finish s (
      if s.lnk.mtick then s.updKiln fun k => { k with zeroByEdge := true } else s.openFrame 0 true)) := by
  dsimp only [exec, execMasterSelfStart]
  rw [act_up rfl hp, if_neg ?_]
  change ¬(!s.inserted || !s.lnk.mcap || s.kiln.src ≠ 2 || !s.kiln.run || s.kiln.frameRuns ||
    !(s.lnk.east.up || s.lnk.west.up) || s.clk < s.lnk.runSince + 2 * s.periodNs || !s.syncQuiet : Bool) = true
  simp only [hquiet, hins, hmcap, hsrc, hrun, hidle, hup, Nat.not_lt.mpr hsince]
  decide

/-- A cell that comes to its mapped, unlocked place is written there and counted (R363). -/
theorem exec_image {s u v : State} {c : Cell} {t : DWord} (hp : s.power.porst = false)
    (hwf : Instr.wf (.image c t) = true) (hins : s.inserted = true) (hsub : (s.peer c.src).sub = true)
    (hopen : (s.peer c.src).rxDone = false) (hnew : (s.peer c.src).rxSeen.contains c.index = false)
    (hmapped : s.lsMapped (s.peer c.src).subSag (s.peer c.src).subOff (16 + 64 * c.index + 64) = true)
    (hfree : s.lsLocked (s.peer c.src).subSag (s.peer c.src).subOff (16 + 64 * c.index + 64) = false)
    (hu : u = s.lsWrite (s.peer c.src).subSag ((s.peer c.src).subOff + 16 + 64 * c.index) (padTo 64 c.payload))
    (hv : v = u.updPeer c.src fun p =>
      { p with rxGot := p.rxGot + 1, rxSeen := c.index :: p.rxSeen, rxStime := some t }) :
    exec (.image c t) s = .next (finish s (
      if c.last && (v.peer c.src).rxGot == c.index + 1 then v.subHeader c.src false else v)) := by
  subst hu hv
  have htaken : (s.lsMapped (s.peer c.src).subSag (s.peer c.src).subOff (16 + 64 * c.index + 64) &&
      !s.lsLocked (s.peer c.src).subSag (s.peer c.src).subOff (16 + 64 * c.index + 64)) = true := by
    rw [hmapped, hfree]
    rfl
  dsimp only [exec, execImage]
  rw [act_up hwf hp, if_neg (by rw [hins, hsub, hopen, hnew]; decide), if_pos htaken]

/-! ### SYNC cells (R349, R350, R351) -/

/-- The flags of an even byte say that its SYNC elects nobody. -/
theorem bit_zero_of_even {f : Nat} (h : f % 2 = 0) : bit (BitVec.ofNat 8 f) 0 = false := by
  simp only [bit, BitVec.getLsbD_ofNat, Nat.testBit_zero, h]
  rfl

section Sync

variable {s : State} {ln : Lane} {p : List Byte} (hp : s.power.porst = false) (hwf : Instr.wf (.sync ln p) = true)
  (hins : s.inserted = true) (hup : (s.lnk.side (arrivalSide ln)).up = true) (hlen : p.length = 64)

include hp hwf hins hup hlen

/-- A master takes the presence that its own SYNC has collected (R350). -/
theorem exec_sync_own (hown : leAt p 12 1 = s.lnk.node) (hmaster : s.lnk.master = true) (heven : leAt p 13 1 % 2 = 0) :
    exec (.sync ln p) s = .next (finish s (s.updLnk fun l =>
      { l with presAcc := l.presAcc ||| BitVec.ofNat 128 (leAt p 24 16), presSeen := true })) := by
  cases ln <;>
  · dsimp only [arrivalSide] at hup
    dsimp only [exec, execSync]
    rw [act_up hwf hp, if_neg (by simp [hins, hup, hlen]), if_pos hown, if_pos (by simp [hmaster, bit_zero_of_even heven])]

end Sync

/-- What the first SYNC of a frame leaves once its master is followed and its presence taken (R350, R351, R352). -/
def State.syncTaken (s : State) (m : Nat) (p : List Byte) : State :=
  ((s.updLnk fun l =>
    { l with master := false, candidate := false, electing := false, missedTicks := 0, lastSync := some s.clk }).setMaster
      m).setPres (BitVec.ofNat 128 (leAt p 40 16))

/-- A SYNC of the master that is followed leaves the wrap and the generation of the ring. -/
theorem State.syncTaken_ring {s a : State} {m : Nat} {p : List Byte} (hvalid : s.lnk.masterValid = true)
    (hnode : s.lnk.masterNode = m) (ha : a = s.syncTaken m p) :
    a.lnk.wrapped = s.lnk.wrapped ∧ a.lnk.wrapWest = s.lnk.wrapWest ∧ a.lnk.wrapEast = s.lnk.wrapEast ∧
      a.lnk.generation = s.lnk.generation := by
  have hsettled : a.lnk.settled = { s.lnk.settled with
      master := false, candidate := false, electing := false, missedTicks := 0, lastSync := some s.clk,
      pres := BitVec.ofNat 128 (leAt p 40 16) } := by
    rw [ha, State.syncTaken, State.setPres_settled, State.setMaster_self (by exact hvalid) (by exact hnode)]
    rfl
  have hwrapped := congrArg Lnk.wrapped hsettled
  have hwest := congrArg Lnk.wrapWest hsettled
  have heast := congrArg Lnk.wrapEast hsettled
  have hgeneration := congrArg Lnk.generation hsettled
  exact ⟨hwrapped, hwest, heast, hgeneration⟩

/-- Forwarding a SYNC changes nothing but the slot it leaves in. -/
theorem State.forwardSync_ring (s : State) (ln : Lane) (d : Nat) (p : List Byte) :
    (s.forwardSync ln d p).lnk.wrapped = s.lnk.wrapped ∧ (s.forwardSync ln d p).lnk.wrapWest = s.lnk.wrapWest ∧
      (s.forwardSync ln d p).lnk.wrapEast = s.lnk.wrapEast ∧ (s.forwardSync ln d p).lnk.generation = s.lnk.generation := by
  cases ln <;> exact ⟨rfl, rfl, rfl, rfl⟩

/-- A SYNC of this frame has come: the last one is less than half a period old (R351). -/
def State.syncInFrame (s : State) : Bool :=
  match s.lnk.lastSync with
  | some t => decide (2 * (s.clk - t) < s.periodNs)
  | none => false

theorem State.syncInFrame_eq_false {s : State} (hfirst : ∀ t, s.lnk.lastSync = some t → s.periodNs ≤ 2 * (s.clk - t)) :
    s.syncInFrame = false := by
  cases hlast : s.lnk.lastSync with
  | none => simp [State.syncInFrame, hlast]
  | some t => simpa [State.syncInFrame, hlast] using hfirst t hlast

section FollowedSync

variable {s a : State} {ln : Lane} {p : List Byte} {m : Nat} {f : Side} (hp : s.power.porst = false)
  (hwf : Instr.wf (.sync ln p) = true) (hins : s.inserted = true) (hf : f = arrivalSide ln)
  (hup : (s.lnk.side f).up = true) (hlen : p.length = 64) (hm : m = leAt p 12 1) (hother : m ≠ s.lnk.node)
  (hflags : leAt p 13 1 = 0) (hlower : s.lnk.master = false ∨ m < s.lnk.node) (hseen : s.lnk.lastSync.isSome = true)
  (hvalid : s.lnk.masterValid = true) (hnode : s.lnk.masterNode = m)
  (hfirst : ∀ t, s.lnk.lastSync = some t → s.periodNs ≤ 2 * (s.clk - t)) (hwrapped : s.lnk.wrapped = false)
  (hwest : leAt p 14 1 = s.lnk.wrapWest) (heast : leAt p 15 1 = s.lnk.wrapEast) (hgen : leAt p 20 4 = s.lnk.generation)
  (ha : a = (s.forwardSync ln (s.lnk.side f).delay p).syncTaken m p)

include hp hwf hins hf hup hlen hm hother hflags hlower hseen hvalid hnode hfirst hwrapped hwest heast hgen ha

/-- The first SYNC in a frame of the master that is followed is forwarded, taken and followed (R349, R351). -/
theorem exec_sync_followed :
    exec (.sync ln p) s = .next (finish s (a.followSync (a.clk - (leAt p 16 4 + (s.lnk.side f).delay))
      (w32 (leAt p 8 4)) (BitVec.ofNat 64 (leAt p 0 8))
      (BitVec.ofNat 64 (leAt p 0 8) + BitVec.ofNat 64 (leAt p 16 4 + (s.lnk.side f).delay)))) := by
  obtain ⟨hfw, hfww, hfwe, hfg⟩ := s.forwardSync_ring ln (s.lnk.side f).delay p
  obtain ⟨haw, haww, hawe, hag⟩ := State.syncTaken_ring (by cases ln <;> exact hvalid) (by cases ln <;> exact hnode) ha
  have hunchanged : (!bit (BitVec.ofNat 8 (leAt p 13 1)) 1 && (a.lnk.east.wrapped || a.lnk.west.wrapped) ||
      !(bit (BitVec.ofNat 8 (leAt p 13 1)) 1 != a.lnk.wrapped || leAt p 14 1 ≠ a.lnk.wrapWest ||
        leAt p 15 1 ≠ a.lnk.wrapEast)) = true := by
    simp [bit, hflags, haw, hfw, hwrapped, haww, hfww, hwest, hawe, hfwe, heast]
  have hkept : ¬(decide (leAt p 20 4 ≠ a.lnk.generation) && leAt p 20 4 == a.lnk.nextGeneration) = true := by
    simp [hag, hfg, hgen]
  have hstays : ¬(s.lnk.lastSync.isNone || !s.lnk.masterValid || s.lnk.masterNode ≠ m : Bool) = true := by
    simp [hvalid, hnode, Option.isSome_iff_ne_none.mp hseen]
  have hnew (valid same : Bool) : ¬(s.syncInFrame && valid && same) = true := by
    simp [State.syncInFrame_eq_false hfirst]
  dsimp only [State.syncTaken] at ha
  subst hm
  cases ln <;>
  · dsimp only [arrivalSide] at hf
    subst hf
    dsimp only [exec, execSync]
    rw [act_up hwf hp, if_neg (by simp [hins, hup, hlen]), if_neg hother, if_neg (by rw [hflags]; decide),
      if_neg (by obtain h | h := hlower <;> simp [h, Nat.le_of_lt]), ← ha, if_neg (by exact hnew _ _),
      if_pos hunchanged, if_neg hkept, if_neg (by exact hstays)]

end FollowedSync

/-- Settles O41: each command is taken through its guards; the first SYNC of a frame changes the presence alone of what decides on
the ring, since the end of the remote work leaves the settled link. -/
theorem linkCells : Obligations.Link_cells := by
  unfold Obligations.Link_cells
  refine ⟨?slot, ?own, ?followed, ?election, ?selfStart, ?image⟩
  case slot =>
    intro s ln g k i f u fwd v out w hp hwf hins hslot hsegment hf hu hstrip hfill hexit
    have hcell : v.slotCell ln g k fwd = (out, w) := by cases fwd <;> exact hfill
    cases ln <;> exact exec_slotStart hp hwf hins hslot hsegment hf hu hstrip hcell hexit
  case own =>
    intro s ln p hp hwf hins hup hlen hown hmaster heven
    exact exec_sync_own hp hwf hins (by cases ln <;> exact hup) hlen hown hmaster heven
  case followed =>
    intro s ln p m f a1 a2 acc hp hwf hins hf hup hlen hm hother hflags hlower hseen hvalid hnode hfirst hwrapped hwest heast hgen
      hacc ha1 ha2
    subst hacc
    refine exec_sync_followed hp hwf hins (hf.trans ?_) hup hlen hm hother hflags hlower hseen hvalid hnode hfirst hwrapped
      hwest heast hgen (ha2.trans ?_)
    · cases ln <;> rfl
    · rw [ha1]
      cases ln <;> rfl
  case election =>
    intro s n hp hwf hins
    exact exec_election hp hwf hins
  case selfStart =>
    intro s hp hins hmcap hsrc hrun hidle hup hsince hquiet
    exact exec_masterSelfStart hp hins hmcap hsrc hrun hidle hup hsince hquiet
  case image =>
    intro s c t off u v hp hwf hins hsub hopen hnew hoff hmapped hfree hu hv
    subst hoff
    exact exec_image hp hwf hins hsub hopen hnew hmapped hfree hu hv

end Sys2Proof.Machine
